-- ==== Sys2Proof/Word.lean ====
section
/-! DEFINITION. The word types of the D90: 64-bit registers, bytes, instruction words and halfwords
(R3, R67, R91), with their plainest arithmetic. -/
namespace Sys2Proof

/-- A general register, an e-register, a queue entry, a state register (R91, R104, R75, R87). -/
abbrev Word := BitVec 64

/-- One byte (R3). -/
abbrev Byte := BitVec 8

/-- A 32-bit instruction word (R70). -/
abbrev IWord := BitVec 32

/-- A halfword of the instruction stream (R67). -/
abbrev Half := BitVec 16

/-- A register number field of five bits (R70). -/
abbrev Reg := BitVec 5

/-- A vector register number (R72). -/
abbrev VNum := BitVec 3

/-- The 64-bit word of a natural number, modulo 2^64. -/
def w64 (n : Nat) : Word := BitVec.ofNat 64 n

/-- The 64-bit word of an integer, modulo 2^64 (R37: unbounded integers brought back to register width). -/
def wInt (i : Int) : Word := BitVec.ofInt 64 i

/-- An image that boot verifies (R447): its bytes, its 16-bit security version, its key chain from the root on, each public key with the
signature that vouches for it, and the signature of the image. -/
structure BootImage where
  bytes   : List Byte
  version : Nat
  chain   : List (List Byte × List Byte)
  sig     : List Byte
  deriving DecidableEq, Repr

end Sys2Proof
end

