-- ==== Sys2Proof/Syntax.lean ====
section
/-! DEFINITION. The syntax of the D90's steps: one constructor for each row of spec/opcode_table.json, in the table's
order but for UNASSIGNED_ENCODING, which stands first, and WFE, which stands after C_BRK. Rows with an encoding are
Fyelm instructions (R77, R85) and carry the fields their encoding has; rows without one are the device's own steps, and
carry what the step acts on and what the outside world supplies to it. -/
namespace Sys2Proof

/-- Where a detected error lies (R364, first column). Thread 0 is the control thread, 1 + n is micro-thread mn. -/
inductive ErrSite where
  /-- A DRAM beat of the granule at a logical address, met by an access of a core, or by another party (`none`). -/
  | dram (la : Nat) (core : Option Nat)
  /-- A word of a scratch or FIFO bank, in the granule at a logical address, met by an access of a core, or by another party. -/
  | scratch (la : Nat) (core : Option Nat)
  /-- The granule at a logical address in a line of a core's L1. -/
  | l1 (la : Nat) (core : Nat)
  /-- The same in a line of an L2 home slice, met by an access of a core, or by another party. -/
  | l2 (la : Nat) (core : Option Nat)
  /-- Entry `n` of a core's posted-store journal. -/
  | journal (core n : Nat)
  /-- The entry at place `n`, from the oldest, that a thread of a core reads from queue `q`. -/
  | queue (core thr q n : Nat)
  /-- Place `n` of a core's outbox. -/
  | outbox (core n : Nat)
  /-- An x- or w-register of a thread of a core. -/
  | reg (core thr : Nat)
  /-- A v-register, its scale column or its tag. -/
  | vreg (core m v : Nat)
  /-- An accumulator tile. -/
  | tile (core t : Nat)
  /-- A CIM half. -/
  | half (core m h : Nat)
  deriving DecidableEq, Repr

/-- One step of the machine: an instruction of a thread, or a step of the device. -/
inductive Instr where
  /-- UNASSIGNED_ENCODING (R78). A fetched word or halfword that no major, function code or 16-bit group assigns, the halfword 0x0000 included, raises ILLEGAL exactly with TVAL holding it. -/
  | unassignedEncoding (w : BitVec 32)
  /-- ADD (R95). Adds two registers modulo 2^64. -/
  | add (b : Reg) (a : Reg) (d : Reg)
  /-- SUB (R95). Subtracts register B from register A modulo 2^64. -/
  | sub (b : Reg) (a : Reg) (d : Reg)
  /-- SLL (R95). Shifts left by the low six bits of register B. -/
  | sll (b : Reg) (a : Reg) (d : Reg)
  /-- SLT (R95). Sets 1 when A is less than B as signed values. -/
  | slt (b : Reg) (a : Reg) (d : Reg)
  /-- SLTU (R95). Sets 1 when A is less than B as unsigned values. -/
  | sltu (b : Reg) (a : Reg) (d : Reg)
  /-- XOR (R95). Bitwise exclusive or of two registers. -/
  | xor (b : Reg) (a : Reg) (d : Reg)
  /-- SRL (R95). Logical right shift by the low six bits of B. -/
  | srl (b : Reg) (a : Reg) (d : Reg)
  /-- SRA (R95). Arithmetic right shift by the low six bits of B. -/
  | sra (b : Reg) (a : Reg) (d : Reg)
  /-- AND (R95). Bitwise and of two registers. -/
  | and (b : Reg) (a : Reg) (d : Reg)
  /-- OR (R95). Bitwise or of two registers. -/
  | or (b : Reg) (a : Reg) (d : Reg)
  /-- ANDN (R95). A and not B. -/
  | andn (b : Reg) (a : Reg) (d : Reg)
  /-- ORN (R95). A or not B. -/
  | orn (b : Reg) (a : Reg) (d : Reg)
  /-- XNOR (R95). Not of A xor B. -/
  | xnor (b : Reg) (a : Reg) (d : Reg)
  /-- ADDI (R96). Adds a sign-extended 12-bit immediate. -/
  | addi (i : BitVec 12) (a : Reg) (d : Reg)
  /-- SLLI (R96). Shifts left by an immediate amount. -/
  | slli (h : BitVec 6) (a : Reg) (d : Reg)
  /-- SLTI (R96). Signed compare with an immediate. -/
  | slti (i : BitVec 12) (a : Reg) (d : Reg)
  /-- SLTIU (R96). Unsigned compare with the sign-extended immediate. -/
  | sltiu (i : BitVec 12) (a : Reg) (d : Reg)
  /-- XORI (R96). Exclusive or with an immediate. -/
  | xori (i : BitVec 12) (a : Reg) (d : Reg)
  /-- SRLI (R96). Logical right shift by an immediate amount. -/
  | srli (h : BitVec 6) (a : Reg) (d : Reg)
  /-- SRAI (R96). Arithmetic right shift by an immediate amount. -/
  | srai (h : BitVec 6) (a : Reg) (d : Reg)
  /-- ORI (R96). Or with an immediate. -/
  | ori (i : BitVec 12) (a : Reg) (d : Reg)
  /-- ANDI (R96). And with an immediate. -/
  | andi (i : BitVec 12) (a : Reg) (d : Reg)
  /-- LUI (R97). Places a 20-bit immediate at bits 31:12, sign-extended. -/
  | lui (i : BitVec 20) (d : Reg)
  /-- AUIPC (R97). Adds the placed upper immediate to the PC. -/
  | auipc (i : BitVec 20) (d : Reg)
  /-- MUL (R98). Low 64 bits of the product. -/
  | mul (b : Reg) (a : Reg) (d : Reg)
  /-- MULH (R98). High 64 bits of the signed product. -/
  | mulh (b : Reg) (a : Reg) (d : Reg)
  /-- MULHSU (R98). High 64 bits of signed times unsigned. -/
  | mulhsu (b : Reg) (a : Reg) (d : Reg)
  /-- MULHU (R98). High 64 bits of the unsigned product. -/
  | mulhu (b : Reg) (a : Reg) (d : Reg)
  /-- DIV (R98). Signed division truncating toward zero. -/
  | div (b : Reg) (a : Reg) (d : Reg)
  /-- DIVU (R98). Unsigned division. -/
  | divu (b : Reg) (a : Reg) (d : Reg)
  /-- REM (R98). Signed remainder with the sign of the dividend. -/
  | rem (b : Reg) (a : Reg) (d : Reg)
  /-- REMU (R98). Unsigned remainder. -/
  | remu (b : Reg) (a : Reg) (d : Reg)
  /-- MIN (R99). Signed minimum. -/
  | min (b : Reg) (a : Reg) (d : Reg)
  /-- MAX (R99). Signed maximum. -/
  | max (b : Reg) (a : Reg) (d : Reg)
  /-- MINU (R99). Unsigned minimum. -/
  | minu (b : Reg) (a : Reg) (d : Reg)
  /-- MAXU (R99). Unsigned maximum. -/
  | maxu (b : Reg) (a : Reg) (d : Reg)
  /-- CLZ (R99). Counts leading zero bits. -/
  | clz (a : Reg) (d : Reg)
  /-- CTZ (R99). Counts trailing zero bits. -/
  | ctz (a : Reg) (d : Reg)
  /-- POPC (R99). Counts one bits. -/
  | popc (a : Reg) (d : Reg)
  /-- BREV (R99). Reverses the 64 bits. -/
  | brev (a : Reg) (d : Reg)
  /-- BEQ (R100). Branches when the registers are equal. -/
  | beq (i : BitVec 12) (b : Reg) (a : Reg)
  /-- BNE (R100). Branches when the registers differ. -/
  | bne (i : BitVec 12) (b : Reg) (a : Reg)
  /-- BLT (R100). Branches when A is less than B, signed. -/
  | blt (i : BitVec 12) (b : Reg) (a : Reg)
  /-- BGE (R100). Branches when A is at least B, signed. -/
  | bge (i : BitVec 12) (b : Reg) (a : Reg)
  /-- BLTU (R100). Branches when A is less than B, unsigned. -/
  | bltu (i : BitVec 12) (b : Reg) (a : Reg)
  /-- BGEU (R100). Branches when A is at least B, unsigned. -/
  | bgeu (i : BitVec 12) (b : Reg) (a : Reg)
  /-- JAL (R101). Jumps PC-relative and writes the return address. -/
  | jal (i : BitVec 20) (d : Reg)
  /-- JALR (R102). Jumps to a register plus offset and writes the return address. -/
  | jalr (i : BitVec 12) (a : Reg) (d : Reg)
  /-- LB (R295). Loads a sign-extended byte. -/
  | lb (i : BitVec 12) (a : Reg) (d : Reg)
  /-- LH (R295). Loads a sign-extended halfword. -/
  | lh (i : BitVec 12) (a : Reg) (d : Reg)
  /-- LW (R295). Loads a sign-extended word. -/
  | lw (i : BitVec 12) (a : Reg) (d : Reg)
  /-- LD (R295). Loads a doubleword. -/
  | ld (i : BitVec 12) (a : Reg) (d : Reg)
  /-- LBU (R295). Loads a zero-extended byte. -/
  | lbu (i : BitVec 12) (a : Reg) (d : Reg)
  /-- LHU (R295). Loads a zero-extended halfword. -/
  | lhu (i : BitVec 12) (a : Reg) (d : Reg)
  /-- LWU (R295). Loads a zero-extended word. -/
  | lwu (i : BitVec 12) (a : Reg) (d : Reg)
  /-- SB (R296). Stores a byte, locally or through the journal. -/
  | sb (i : BitVec 12) (b : Reg) (a : Reg)
  /-- SH (R296). Stores a halfword. -/
  | sh (i : BitVec 12) (b : Reg) (a : Reg)
  /-- SW (R296). Stores a word. -/
  | sw (i : BitVec 12) (b : Reg) (a : Reg)
  /-- SD (R296). Stores a doubleword. -/
  | sd (i : BitVec 12) (b : Reg) (a : Reg)
  /-- SWF (R296). Stores a word to the scratch window and sets the granule full. -/
  | swf (i : BitVec 12) (b : Reg) (a : Reg)
  /-- SDF (R296). Stores a doubleword to the scratch window and sets the granule full. -/
  | sdf (i : BitVec 12) (b : Reg) (a : Reg)
  /-- LWF (R297). Loads a word once its granule is full. -/
  | lwf (i : BitVec 12) (a : Reg) (d : Reg)
  /-- LDF (R297). Loads a doubleword once its granule is full. -/
  | ldf (i : BitVec 12) (a : Reg) (d : Reg)
  /-- LWFC (R297). Loads a word once full and clears the full bit. -/
  | lwfc (i : BitVec 12) (a : Reg) (d : Reg)
  /-- LDFC (R297). Loads a doubleword once full and clears the full bit. -/
  | ldfc (i : BitVec 12) (a : Reg) (d : Reg)
  /-- AMOADD (R298). Atomic fetch-and-add at the target. -/
  | amoadd (z : BitVec 1) (r : BitVec 2) (b : Reg) (a : Reg) (s : BitVec 3) (d : Reg)
  /-- AMOSWAP (R298). Atomic swap at the target. -/
  | amoswap (z : BitVec 1) (r : BitVec 2) (b : Reg) (a : Reg) (s : BitVec 3) (d : Reg)
  /-- AMOAND (R298). Atomic and at the target. -/
  | amoand (z : BitVec 1) (r : BitVec 2) (b : Reg) (a : Reg) (s : BitVec 3) (d : Reg)
  /-- AMOOR (R298). Atomic or at the target. -/
  | amoor (z : BitVec 1) (r : BitVec 2) (b : Reg) (a : Reg) (s : BitVec 3) (d : Reg)
  /-- AMOXOR (R298). Atomic xor at the target. -/
  | amoxor (z : BitVec 1) (r : BitVec 2) (b : Reg) (a : Reg) (s : BitVec 3) (d : Reg)
  /-- AMOMIN (R298). Atomic signed minimum at the target. -/
  | amomin (z : BitVec 1) (r : BitVec 2) (b : Reg) (a : Reg) (s : BitVec 3) (d : Reg)
  /-- AMOMAX (R298). Atomic signed maximum at the target. -/
  | amomax (z : BitVec 1) (r : BitVec 2) (b : Reg) (a : Reg) (s : BitVec 3) (d : Reg)
  /-- AMOMINU (R298). Atomic unsigned minimum at the target. -/
  | amominu (z : BitVec 1) (r : BitVec 2) (b : Reg) (a : Reg) (s : BitVec 3) (d : Reg)
  /-- AMOMAXU (R298). Atomic unsigned maximum at the target. -/
  | amomaxu (z : BitVec 1) (r : BitVec 2) (b : Reg) (a : Reg) (s : BitVec 3) (d : Reg)
  /-- AMOCAS (R298). Atomic compare-and-swap against e0. -/
  | amocas (z : BitVec 1) (r : BitVec 2) (b : Reg) (a : Reg) (s : BitVec 3) (d : Reg)
  /-- FENCE (R312). Performs the acquire, release, full and engine orderings of its kinds at one scope. -/
  | fence (s : BitVec 3) (k : BitVec 4)
  /-- DISCARD (R300). Drops a line at its home without writing it back. -/
  | discard (i : BitVec 12) (a : Reg)
  /-- LASTUSE (R300). Writes back a dirty line and drops it at its home. -/
  | lastuse (i : BitVec 12) (a : Reg)
  /-- PREFETCH (R300). Fetches a line into its home slice and possibly the L1. -/
  | prefetch (i : BitVec 12) (a : Reg)
  /-- FLUSHL (R300). Writes back a dirty line and keeps a clean copy. -/
  | flushl (i : BitVec 12) (a : Reg)
  /-- SETE (R104). Copies a register into an e-register. -/
  | sete (a : Reg) (d : Reg)
  /-- SETEI (R104). Writes a sign-extended immediate into an e-register. -/
  | setei (i : BitVec 12) (d : Reg)
  /-- GETE (R104). Reads an e-register into a register. -/
  | gete (a : Reg) (d : Reg)
  /-- GETE_I (R104). Reads an index register i0-i3 on the control thread. -/
  | geteI (n : BitVec 2) (d : Reg)
  /-- QPUT (R106). Writes one entry into a queue, blocking until it fits. -/
  | qput (b : Reg) (a : Reg) (q : Reg)
  /-- QGET (R107). Removes and returns the oldest queue entry, blocking until present. -/
  | qget (b : Reg) (q : Reg) (d : Reg)
  /-- QPEEK (R108). Returns the oldest queue entry without removing it. -/
  | qpeek (q : Reg) (d : Reg)
  /-- QCNT (R109). Returns a queue's entry or free count without blocking. -/
  | qcnt (q : Reg) (d : Reg)
  /-- NEST (R199). Joins a generation of a group's nest counter. -/
  | nest (b : Reg) (a : Reg)
  /-- LOOP (R200). Runs the following body once per iteration granted to this core. -/
  | loop (i : BitVec 12) (a : Reg)
  /-- NESTQ (R202). Returns the nest view of a group. -/
  | nestq (a : Reg) (d : Reg)
  /-- SEND (R189). Forms a message from memory and buffers it in the outbox. -/
  | send (b : Reg) (a : Reg)
  /-- SENDG (R189). Buffers a multicast message to every member of a group. -/
  | sendg (b : Reg) (a : Reg)
  /-- SENDF (R190). Buffers a main message and an outlier message split by column mask. -/
  | sendf (b : Reg) (a : Reg)
  /-- MLD (R192). Reads a doubleword of an input-set message payload. -/
  | mld (a : Reg) (d : Reg)
  /-- MLEN (R192). Returns the trigger's payload length. -/
  | mlen (d : Reg)
  /-- MHDR (R192). Reads a doubleword of an input-set message header. -/
  | mhdr (a : Reg) (d : Reg)
  /-- END (R193). Checks rates and CHKI, releases the outbox and ends the activation. -/
  | endAct
  /-- ENDX (R194). Ends the activation as failed, redelivering when replayable. -/
  | endx
  /-- GRANK (R212). Returns this core's rank and torus coordinates in a group. -/
  | grank (a : Reg) (d : Reg)
  /-- GSIZE (R212). Returns a group's size, torus shape and root. -/
  | gsize (a : Reg) (d : Reg)
  /-- GMEMB (R212). Returns the core of a given rank in a group. -/
  | gmemb (b : Reg) (a : Reg) (d : Reg)
  /-- BARM (R222). Arms a barrier entry against a group with an op and scope. -/
  | barm (s : BitVec 3) (o : BitVec 3) (b : Reg) (a : Reg)
  /-- BARV (R222). Releases and sends the arrival value to the root. -/
  | barv (b : Reg) (a : Reg)
  /-- BARW (R222). Waits for the generation's outcome, acquires and returns the value. -/
  | barw (a : Reg) (d : Reg)
  /-- BARX (R222). Sends an abort of the current generation to the root. -/
  | barx (a : Reg)
  /-- BARQ (R222). Returns a barrier entry's state word. -/
  | barq (a : Reg) (d : Reg)
  /-- BCAST (R249). Delivers the following block to the selected stopped micro-threads. -/
  | bcast (n : BitVec 4) (a : Reg)
  /-- BFETCH (R250). Moves a micro-thread into code it fetches itself. -/
  | bfetch (i : BitVec 12) (a : Reg)
  /-- STOP (R252). Stops the executing micro-thread with a release at CORE scope. -/
  | stop
  /-- MTWAIT (R253). Waits until the named micro-threads have stopped. -/
  | mtwait (a : Reg)
  /-- MTSTAT (R254). Returns the state of the micro-thread array. -/
  | mtstat (d : Reg)
  /-- MTRST (R255). Returns the selected micro-threads to their reset state. -/
  | mtrst (a : Reg)
  /-- VADD_VV (R229). Integer element-wise add, vector-vector. -/
  | vaddVv (b : VNum) (a : VNum) (d : VNum)
  /-- VADD_VX (R229). Integer element-wise add with a scalar. -/
  | vaddVx (b : Reg) (a : VNum) (d : VNum)
  /-- VADD_VI (R229). Integer element-wise add with an immediate. -/
  | vaddVi (i : BitVec 5) (a : VNum) (d : VNum)
  /-- VSUB_VV (R229). Integer element-wise subtract, vector-vector. -/
  | vsubVv (b : VNum) (a : VNum) (d : VNum)
  /-- VSUB_VX (R229). Integer element-wise subtract of a scalar. -/
  | vsubVx (b : Reg) (a : VNum) (d : VNum)
  /-- VSUB_VI (R229). Integer element-wise subtract of an immediate. -/
  | vsubVi (i : BitVec 5) (a : VNum) (d : VNum)
  /-- VMUL_VV (R229). Integer element-wise multiply, vector-vector. -/
  | vmulVv (b : VNum) (a : VNum) (d : VNum)
  /-- VMUL_VX (R229). Integer element-wise multiply by a scalar. -/
  | vmulVx (b : Reg) (a : VNum) (d : VNum)
  /-- VMUL_VI (R229). Integer element-wise multiply by an immediate. -/
  | vmulVi (i : BitVec 5) (a : VNum) (d : VNum)
  /-- VMIN_VV (R229). Signed element-wise minimum, vector-vector. -/
  | vminVv (b : VNum) (a : VNum) (d : VNum)
  /-- VMIN_VX (R229). Signed element-wise minimum with a scalar. -/
  | vminVx (b : Reg) (a : VNum) (d : VNum)
  /-- VMIN_VI (R229). Signed element-wise minimum with an immediate. -/
  | vminVi (i : BitVec 5) (a : VNum) (d : VNum)
  /-- VMAX_VV (R229). Signed element-wise maximum, vector-vector. -/
  | vmaxVv (b : VNum) (a : VNum) (d : VNum)
  /-- VMAX_VX (R229). Signed element-wise maximum with a scalar. -/
  | vmaxVx (b : Reg) (a : VNum) (d : VNum)
  /-- VMAX_VI (R229). Signed element-wise maximum with an immediate. -/
  | vmaxVi (i : BitVec 5) (a : VNum) (d : VNum)
  /-- VAND_VV (R229). Element-wise and, vector-vector. -/
  | vandVv (b : VNum) (a : VNum) (d : VNum)
  /-- VAND_VX (R229). Element-wise and with a scalar. -/
  | vandVx (b : Reg) (a : VNum) (d : VNum)
  /-- VAND_VI (R229). Element-wise and with an immediate. -/
  | vandVi (i : BitVec 5) (a : VNum) (d : VNum)
  /-- VOR_VV (R229). Element-wise or, vector-vector. -/
  | vorVv (b : VNum) (a : VNum) (d : VNum)
  /-- VOR_VX (R229). Element-wise or with a scalar. -/
  | vorVx (b : Reg) (a : VNum) (d : VNum)
  /-- VOR_VI (R229). Element-wise or with an immediate. -/
  | vorVi (i : BitVec 5) (a : VNum) (d : VNum)
  /-- VXOR_VV (R229). Element-wise xor, vector-vector. -/
  | vxorVv (b : VNum) (a : VNum) (d : VNum)
  /-- VXOR_VX (R229). Element-wise xor with a scalar. -/
  | vxorVx (b : Reg) (a : VNum) (d : VNum)
  /-- VXOR_VI (R229). Element-wise xor with an immediate. -/
  | vxorVi (i : BitVec 5) (a : VNum) (d : VNum)
  /-- VSHL_VV (R229). Element-wise left shift, vector-vector. -/
  | vshlVv (b : VNum) (a : VNum) (d : VNum)
  /-- VSHL_VX (R229). Element-wise left shift by a scalar. -/
  | vshlVx (b : Reg) (a : VNum) (d : VNum)
  /-- VSHL_VI (R229). Element-wise left shift by an immediate. -/
  | vshlVi (i : BitVec 5) (a : VNum) (d : VNum)
  /-- VSHR_VV (R229). Element-wise logical right shift, vector-vector. -/
  | vshrVv (b : VNum) (a : VNum) (d : VNum)
  /-- VSHR_VX (R229). Element-wise logical right shift by a scalar. -/
  | vshrVx (b : Reg) (a : VNum) (d : VNum)
  /-- VSHR_VI (R229). Element-wise logical right shift by an immediate. -/
  | vshrVi (i : BitVec 5) (a : VNum) (d : VNum)
  /-- VSRA_VV (R229). Element-wise arithmetic right shift, vector-vector. -/
  | vsraVv (b : VNum) (a : VNum) (d : VNum)
  /-- VSRA_VX (R229). Element-wise arithmetic right shift by a scalar. -/
  | vsraVx (b : Reg) (a : VNum) (d : VNum)
  /-- VSRA_VI (R229). Element-wise arithmetic right shift by an immediate. -/
  | vsraVi (i : BitVec 5) (a : VNum) (d : VNum)
  /-- VABS (R229). Element-wise absolute value. -/
  | vabs (a : VNum) (d : VNum)
  /-- VNEG (R229). Element-wise negation. -/
  | vneg (a : VNum) (d : VNum)
  /-- VCMPEQ_VV (R229). Element-wise equality into a mask, vector-vector. -/
  | vcmpeqVv (b : VNum) (a : VNum) (d : VNum)
  /-- VCMPEQ_VX (R229). Element-wise equality with a scalar into a mask. -/
  | vcmpeqVx (b : Reg) (a : VNum) (d : VNum)
  /-- VCMPEQ_VI (R229). Element-wise equality with an immediate into a mask. -/
  | vcmpeqVi (i : BitVec 5) (a : VNum) (d : VNum)
  /-- VCMPLT_VV (R229). Signed element-wise less-than into a mask, vector-vector. -/
  | vcmpltVv (b : VNum) (a : VNum) (d : VNum)
  /-- VCMPLT_VX (R229). Signed element-wise less-than against a scalar into a mask. -/
  | vcmpltVx (b : Reg) (a : VNum) (d : VNum)
  /-- VCMPLT_VI (R229). Signed element-wise less-than against an immediate into a mask. -/
  | vcmpltVi (i : BitVec 5) (a : VNum) (d : VNum)
  /-- VSEL_VV (R229). Selects elements of A or B by the mask in v0. -/
  | vselVv (b : VNum) (a : VNum) (d : VNum)
  /-- VSEL_VX (R229). Selects elements of A or a scalar by the mask in v0. -/
  | vselVx (b : Reg) (a : VNum) (d : VNum)
  /-- VSEL_VI (R229). Selects elements of A or an immediate by the mask in v0. -/
  | vselVi (i : BitVec 5) (a : VNum) (d : VNum)
  /-- VFADD_VV (R230). Floating element-wise add, vector-vector. -/
  | vfaddVv (b : VNum) (a : VNum) (d : VNum)
  /-- VFADD_VX (R230). Floating element-wise add of a scalar. -/
  | vfaddVx (b : Reg) (a : VNum) (d : VNum)
  /-- VFSUB_VV (R230). Floating element-wise subtract, vector-vector. -/
  | vfsubVv (b : VNum) (a : VNum) (d : VNum)
  /-- VFSUB_VX (R230). Floating element-wise subtract of a scalar. -/
  | vfsubVx (b : Reg) (a : VNum) (d : VNum)
  /-- VFMUL_VV (R230). Floating element-wise multiply, vector-vector. -/
  | vfmulVv (b : VNum) (a : VNum) (d : VNum)
  /-- VFMUL_VX (R230). Floating element-wise multiply by a scalar. -/
  | vfmulVx (b : Reg) (a : VNum) (d : VNum)
  /-- VFMA_VV (R230). Fused multiply-add into vD, vector-vector. -/
  | vfmaVv (b : VNum) (a : VNum) (d : VNum)
  /-- VFMA_VX (R230). Fused multiply-add into vD with a scalar. -/
  | vfmaVx (b : Reg) (a : VNum) (d : VNum)
  /-- VFMIN_VV (R230). Floating element-wise minimum, vector-vector. -/
  | vfminVv (b : VNum) (a : VNum) (d : VNum)
  /-- VFMIN_VX (R230). Floating element-wise minimum with a scalar. -/
  | vfminVx (b : Reg) (a : VNum) (d : VNum)
  /-- VFMAX_VV (R230). Floating element-wise maximum, vector-vector. -/
  | vfmaxVv (b : VNum) (a : VNum) (d : VNum)
  /-- VFMAX_VX (R230). Floating element-wise maximum with a scalar. -/
  | vfmaxVx (b : Reg) (a : VNum) (d : VNum)
  /-- VFEXP2 (R65). Correctly rounded 2^x per element. -/
  | vfexp2 (a : VNum) (d : VNum)
  /-- VFLOG2 (R65). Correctly rounded log2 per element. -/
  | vflog2 (a : VNum) (d : VNum)
  /-- VFRCP (R65). Correctly rounded reciprocal per element. -/
  | vfrcp (a : VNum) (d : VNum)
  /-- VFRSQ (R65). Correctly rounded reciprocal square root per element. -/
  | vfrsq (a : VNum) (d : VNum)
  /-- VFCMPLT_VV (R230). Floating less-than into a mask, vector-vector. -/
  | vfcmpltVv (b : VNum) (a : VNum) (d : VNum)
  /-- VFCMPLT_VX (R230). Floating less-than against a scalar into a mask. -/
  | vfcmpltVx (b : Reg) (a : VNum) (d : VNum)
  /-- VFCMPEQ_VV (R230). Floating equality into a mask, vector-vector. -/
  | vfcmpeqVv (b : VNum) (a : VNum) (d : VNum)
  /-- VFCMPEQ_VX (R230). Floating equality with a scalar into a mask. -/
  | vfcmpeqVx (b : Reg) (a : VNum) (d : VNum)
  /-- VLD (R231). Loads packed active elements of a format into a vector register. -/
  | vld (f : BitVec 5) (a : Reg) (d : VNum)
  /-- VST (R231). Stores the active elements of a vector register packed. -/
  | vst (a : Reg) (d : VNum)
  /-- VLDP (R233). Loads k planes of plane-major NI8 rows into register rows. -/
  | vldp (k : BitVec 5) (a : Reg) (d : VNum)
  /-- VSTP (R233). Stores NI8 register rows as plane-major rows at k planes. -/
  | vstp (k : BitVec 5) (a : Reg) (d : VNum)
  /-- VCVT (R234). Converts each active element to a destination format. -/
  | vcvt (p : BitVec 3) (f : BitVec 4) (a : VNum) (d : VNum)
  /-- VSPLIT (R235). Converts and leaves the rounding residual in the source. -/
  | vsplit (p : BitVec 3) (f : BitVec 4) (a : VNum) (d : VNum)
  /-- VSCALE (R236). Writes a scale column in the mode selected by wB. -/
  | vscale (b : Reg) (a : VNum) (d : VNum)
  /-- VTAG (R237). Rewrites a vector register's tag. -/
  | vtag (a : Reg) (d : VNum)
  /-- VRSUM_ROW (R238). Strictly ordered sum along each row. -/
  | vrsumRow (a : VNum) (d : VNum)
  /-- VRSUM_COL (R238). Strictly ordered sum down each column. -/
  | vrsumCol (a : VNum) (d : VNum)
  /-- VRMAX_ROW (R238). Maximum along each row. -/
  | vrmaxRow (a : VNum) (d : VNum)
  /-- VRMAX_COL (R238). Maximum down each column. -/
  | vrmaxCol (a : VNum) (d : VNum)
  /-- VRMIN_ROW (R238). Minimum along each row. -/
  | vrminRow (a : VNum) (d : VNum)
  /-- VRMIN_COL (R238). Minimum down each column. -/
  | vrminCol (a : VNum) (d : VNum)
  /-- VSCAN_ROW (R238). Running sum along each row. -/
  | vscanRow (a : VNum) (d : VNum)
  /-- VSCAN_COL (R238). Running sum down each column. -/
  | vscanCol (a : VNum) (d : VNum)
  /-- VSHAPE (R239). Writes SHAPE from a register. -/
  | vshape (a : Reg)
  /-- VMOV (R240). Copies a whole vector register with scale column and tag. -/
  | vmov (a : VNum) (d : VNum)
  /-- VBCR (R241). Broadcasts one row over the active rows. -/
  | vbcr (b : Reg) (a : VNum) (d : VNum)
  /-- VBCC (R241). Broadcasts one column over the active columns. -/
  | vbcc (b : Reg) (a : VNum) (d : VNum)
  /-- VTRN (R242). Transposes the active part of a register. -/
  | vtrn (a : VNum) (d : VNum)
  /-- VINS (R243). Inserts a scalar into one element. -/
  | vins (b : Reg) (a : Reg) (d : VNum)
  /-- VEXT (R243). Extracts one element into a scalar register. -/
  | vext (b : Reg) (a : VNum) (d : Reg)
  /-- MLDB (R272). Loads a B tile into a macro's shadow half. -/
  | mldb (m : BitVec 2) (s : BitVec 3) (o : BitVec 2) (g : BitVec 5)
  /-- MMUL (R273). Streams A rows against the active B tile into an accumulator. -/
  | mmul (t : BitVec 2) (m : BitVec 2) (s : BitVec 3) (o : BitVec 2) (g : BitVec 5)
  /-- MMROT (R273). Multiplies, then forwards B north and A west over the torus. -/
  | mmrot (t : BitVec 2) (m : BitVec 2) (s : BitVec 3) (o : BitVec 2) (g : BitVec 5)
  /-- MDRAIN (R275). Converts a tile window into memory. -/
  | mdrain (t : BitVec 2) (s : BitVec 3) (o : BitVec 2) (g : BitVec 5)
  /-- MZERO (R276). Zeroes a tile and tags it I32. -/
  | mzero (t : BitVec 2) (s : BitVec 3) (o : BitVec 2) (g : BitVec 5)
  /-- MWAIT (R277). Waits for every earlier matrix command to complete. -/
  | mwait
  /-- MSTAT (R277). Returns MSTAT once earlier commands hold records. -/
  | mstat (d : Reg)
  /-- CPY (R303). Starts an asynchronous copy of a block of rows. -/
  | cpy (s : BitVec 3) (o : BitVec 2) (g : BitVec 5)
  /-- CPYX (R303). Starts a copy that carries poison between classes. -/
  | cpyx (s : BitVec 3) (o : BitVec 2) (g : BitVec 5)
  /-- CPYW (R305). Waits for earlier copies with a tag. -/
  | cpyw (a : Reg)
  /-- CPYQ (R305). Reports copies in flight and tokens in q3. -/
  | cpyq (d : Reg)
  /-- MAP (R330). Holds a request copying rights over an extent to another context. -/
  | map (r : BitVec 6) (b : Reg) (a : Reg) (d : Reg)
  /-- GRANT (R330). Holds a request moving rights over an extent to another context. -/
  | grant (r : BitVec 6) (b : Reg) (a : Reg) (d : Reg)
  /-- UNMAP (R331). Holds a request withdrawing everything derived from an extent. -/
  | unmap (a : Reg) (d : Reg)
  /-- MQUERY (R339). Reports how the sender's space maps an address. -/
  | mquery (a : Reg) (d : Reg)
  /-- RELEASE (R336). Holds a request giving up the sender's own extent. -/
  | release (a : Reg)
  /-- ACCEPT (R337). Holds a request freeing released child nodes. -/
  | accept (a : Reg) (d : Reg)
  /-- CSRR (R147). Reads a state register. -/
  | csrr (s : BitVec 12) (d : Reg)
  /-- CSRW (R147). Writes a state register and returns the prior value. -/
  | csrw (s : BitVec 12) (a : Reg) (d : Reg)
  /-- CSRS (R147). Sets bits of a state register and returns the prior value. -/
  | csrs (s : BitVec 12) (a : Reg) (d : Reg)
  /-- CSRC (R147). Clears bits of a state register and returns the prior value. -/
  | csrc (s : BitVec 12) (a : Reg) (d : Reg)
  /-- TRAP (R148). Raises a software trap. -/
  | trap (a : Reg)
  /-- ERET (R149). Leaves the handler according to the binding and EACT. -/
  | eret
  /-- CHECKERR (R374). Examines CHKI in the middle of an activation. -/
  | checkerr (d : Reg)
  /-- BRKPT (R431). Stops a thread for an open debug session. -/
  | brkpt
  /-- TRACE (R432). Writes a user trace record. -/
  | trace (a : Reg)
  /-- PAIR (R388). Starts paired execution within an activation. -/
  | pair
  /-- UNPAIR (R388). Ends paired execution after a forced close. -/
  | unpair
  /-- GATE (R399). Opens or closes a gate window. -/
  | gate (a : Reg) (d : Reg)
  /-- GSTAT (R400). Reports a gate or the key and line of an address. -/
  | gstat (a : Reg) (d : Reg)
  /-- C_ADDI (R85). 16-bit add of an immediate to a register. -/
  | cAddi (r : Reg) (i : BitVec 6)
  /-- C_LI (R85). 16-bit load of an immediate. -/
  | cLi (r : Reg) (i : BitVec 6)
  /-- C_MV (R85). 16-bit register move. -/
  | cMv (r : Reg) (s : Reg)
  /-- C_ADD (R85). 16-bit register add. -/
  | cAdd (r : Reg) (s : Reg)
  /-- C_SUB (R85). 16-bit register subtract. -/
  | cSub (r : Reg) (s : Reg)
  /-- C_AND (R85). 16-bit register and. -/
  | cAnd (r : Reg) (s : Reg)
  /-- C_LD (R85). 16-bit doubleword load. -/
  | cLd (o : BitVec 6) (a : BitVec 3) (d : BitVec 3)
  /-- C_SD (R85). 16-bit doubleword store. -/
  | cSd (o : BitVec 6) (a : BitVec 3) (s : BitVec 3)
  /-- C_BEQZ (R85). 16-bit branch when zero. -/
  | cBeqz (a : BitVec 3) (o : BitVec 8)
  /-- C_BNEZ (R85). 16-bit branch when not zero. -/
  | cBnez (a : BitVec 3) (o : BitVec 8)
  /-- C_J (R85). 16-bit jump without link. -/
  | cJ (o : BitVec 12)
  /-- C_QPUT (R85). 16-bit queue put with default selection. -/
  | cQput (q : BitVec 3) (r : Reg)
  /-- C_QGET (R85). 16-bit queue get discarding the sender. -/
  | cQget (q : BitVec 3) (r : Reg)
  /-- C_NOP (R85). 16-bit no operation. -/
  | cNop
  /-- C_END (R85). 16-bit END. -/
  | cEnd
  /-- C_STOP (R85). 16-bit STOP. -/
  | cStop
  /-- C_BRK (R85). 16-bit BRKPT. -/
  | cBrk
  /-- WFE (R150). Waits for an event to set the latch. -/
  | wfe
  /-- ASYNC_TRAP_TAKE (R140). A pending asynchronous cause, PREEMPT included, is taken at the next control-thread boundary. -/
  | asyncTrapTake (core : Nat)
  /-- TSTAT_SAVE (R122). Writing TSTAT.SCMD = 1 starts the save engine. -/
  | tstatSave (core : Nat)
  /-- TSTAT_RESTORE (R143). Writing TSTAT.SCMD = 2 starts a restore. -/
  | tstatRestore (core : Nat)
  /-- SAVE_COMPLETE (R116). The save engine finishes and SBUSY falls. -/
  | saveComplete (core : Nat) (ok : Bool)
  /-- RESTORE_COMPLETE (R116). The restore finishes, macros are reloaded and the control thread resumes. -/
  | restoreComplete (core : Nat) (ok : Bool)
  /-- PARKTO_EXPIRY (R141). An access parked longer than PARKTO.TIMEOUT pre-empts the core. -/
  | parktoExpiry (core : Nat)
  /-- CONTEXT_DESTROY_COMPLETE (R115). With every binding out, the context's space is withdrawn and it becomes FREE. -/
  | contextDestroyComplete (ctx : Nat)
  /-- SLOT_TABLE_WRITE (R164). Apex writes a bind record, pre-empting or changing firing. -/
  | slotTableWrite (core : Nat) (rec : BitVec 128)
  /-- APEX_SCHEDULE (R165). Apex applies its binding and queue policy at a period or event. -/
  | apexSchedule (core : Nat)
  /-- LQ_ENABLE (R155). Writing LQCFG.EN = 1 enables a queue or sets CERR. -/
  | lqEnable (fn : Nat) (n : Nat)
  /-- LQ_DISABLE (R155). Writing LQCFG.EN = 0 disables a queue and drops unaccepted entries. -/
  | lqDisable (fn : Nat) (n : Nat)
  /-- LQTAIL_WRITE (R154). A tail write is accepted or refused with TERR. -/
  | lqtailWrite (fn : Nat) (n : Nat) (v : BitVec 32)
  /-- QUEUE_SWITCH_IN (R155). Apex makes a launch queue resident. -/
  | queueSwitchIn (fn : Nat) (n : Nat)
  /-- QUEUE_SWITCH_OUT (R156). Apex saves a resident queue at the snapshot point. -/
  | queueSwitchOut (fn : Nat) (n : Nat)
  /-- ENTRY_ACCEPT (R158). A queue reads and checks an entry, stamps and journals it and advances PROG. -/
  | entryAccept (fn : Nat) (n : Nat)
  /-- LAUNCH (R159). Creates or loads a context's actors and sends the trigger message. -/
  | launch (seq : Nat)
  /-- MAPROOT (R159). Sends a MAP from the function's root space to a Locus. -/
  | maproot (seq : Nat)
  /-- RECLAIM (R159). Moves a context to DESTROYING. -/
  | reclaim (seq : Nat)
  /-- QUERY (R159). Copies a context record to a given address. -/
  | query (seq : Nat)
  /-- COMMAND_COMPLETE (R161). A command's completion record is written and IRQ raised. -/
  | commandComplete (seq : Nat)
  /-- PERIOD_BOUNDARY (R167). At each 100 µs boundary every account is repaid and refilled. -/
  | periodBoundary
  /-- BUDGET_EXHAUSTED (R168). An account at zero borrows or its cores are pre-empted. -/
  | budgetExhausted (acct : Nat)
  /-- MESSAGE_ARRIVAL (R455). A message enters an inbox slot or the message buffer and is acknowledged. -/
  | messageArrival (k : Nat)
  /-- MESSAGE_DELIVERY (R186). A held message moves into its input channel when its stamp allows. -/
  | messageDelivery (core : Nat) (slot : Nat)
  /-- ACTOR_FIRE (R178). A READY slot fires and starts an activation. -/
  | actorFire (core : Nat)
  /-- FLOOR_PUBLISH (R185). The floor tree publishes FLOOR every 128 cycles. -/
  | floorPublish
  /-- OUTBOX_DEPART (R191). A released outbox message leaves when its destination grants an allowance. -/
  | outboxDepart (core : Nat)
  /-- END_OUTBOX_DRAINED (R193). END completes once every outbox message has left, consuming the input set. -/
  | endOutboxDrained (core : Nat)
  /-- NEST_JOIN_ARRIVAL (R196). A join arrives at the root and moves the generation. -/
  | nestJoinArrival (k : Nat)
  /-- NEST_CLAIM_SERVE (R197). The root serves the least eligible claim with a chunk. -/
  | nestClaimServe (ctx : Nat) (g : Nat)
  /-- LOOP_GRANT_ARRIVAL (R200). A grant reaches the member and the body is entered or the loop ends. -/
  | loopGrantArrival (k : Nat)
  /-- LOOP_LEAVE (R201). A leave reaches the root for an abandoned loop. -/
  | loopLeave (k : Nat)
  /-- BARRIER_ARRIVAL (R216). An arrival is combined at the root or ends the generation. -/
  | barrierArrival (k : Nat)
  /-- BARRIER_ABORT (R216). An abort reaches the root and ends the generation aborted. -/
  | barrierAbort (k : Nat)
  /-- BARRIER_NOTICE (R214). A completion, abort or mismatch notice reaches a member entry. -/
  | barrierNotice (k : Nat)
  /-- MATRIX_COMMAND_START (R264). A queued matrix command starts, swapping halves when the shadow is READY. -/
  | matrixCommandStart (core : Nat) (n : Nat)
  /-- MLDB_LOAD_DONE (R260). The load port finishes a B tile and the shadow becomes READY. -/
  | mldbLoadDone (core : Nat) (n : Nat)
  /-- TILE_FORWARD_ARRIVAL (R274). A forwarded B tile is loaded into a shadow or recorded in a save area. -/
  | tileForwardArrival (k : Nat)
  /-- MATRIX_COMMAND_COMPLETE (R268). A matrix command's last write performs. -/
  | matrixCommandComplete (core : Nat) (n : Nat) (rows : Nat)
  /-- MATRIX_TOKEN_PLACE (R269). A completion token enters q2 once it fits. -/
  | matrixTokenPlace (core : Nat) (n : Nat)
  /-- COPY_COMPLETE (R304). A copy ends and its token enters q3 once it fits. -/
  | copyComplete (core : Nat) (n : Nat) (granules : Nat)
  /-- JOURNAL_SEND (R290). A HELD journal entry leaves when its ordering allows. -/
  | journalSend (core : Nat) (n : Nat)
  /-- JOURNAL_ACK (R290). The target reports a posted access performed and the entry frees. -/
  | journalAck (core : Nat) (n : Nat)
  /-- JOURNAL_REFUSAL (R294). The target refuses a posted access and the asynchronous cause is raised. -/
  | journalRefusal (core : Nat) (n : Nat)
  /-- PSJE_SELECT (R293). A write of PSJE's selector chooses the journal entry doubleword shown. -/
  | psjeSelect (core : Nat) (v : Word)
  /-- PSJE_DISMISS (R293). Writing DISMISS frees a REFUSED journal entry. -/
  | psjeDismiss (core : Nat) (v : Word)
  /-- LEASE_GRANT (R288). A home slice answers an L1 miss with data and a lease expiry. -/
  | leaseGrant (acc : Nat)
  /-- HOME_WRITE_PERFORM (R288). A write waiting at its home performs once the latest lease has expired. -/
  | homeWritePerform (acc : Nat)
  /-- L1_LEASE_EXPIRY (R288). A leased L1 copy expires by itself. -/
  | l1LeaseExpiry (core : Nat) (line : Nat)
  /-- LOCUS_MAP (R330). A Locus processes a MAP in stamp order. -/
  | locusMap (n : Nat)
  /-- LOCUS_GRANT (R330). A Locus processes a GRANT in stamp order. -/
  | locusGrant (n : Nat)
  /-- LOCUS_UNMAP (R331). A Locus begins withdrawing the subtrees an UNMAP names. -/
  | locusUnmap (n : Nat)
  /-- LOCUS_RELEASE (R338). A Locus cuts, scrubs and releases the sender's nodes. -/
  | locusRelease (n : Nat)
  /-- LOCUS_ACCEPT (R337). A Locus frees RELEASED child nodes. -/
  | locusAccept (n : Nat)
  /-- REVOKE_CUT (R334). A target takes the phase-1 cut and refuses later accesses. -/
  | revokeCut (n : Nat) (target : Nat)
  /-- SHOOTDOWN (R333). A shoot-down reaches a core and removes translations and copies. -/
  | shootdown (n : Nat) (core : Nat)
  /-- SHOOTDOWN_ACK (R333). A core acknowledges a shoot-down once its accesses through the nodes have ended. -/
  | shootdownAck (n : Nat) (core : Nat)
  /-- LOCUS_PHASE_END (R332). A withdrawal phase ends and the next begins, sending notices and the completion. -/
  | locusPhaseEnd (n : Nat)
  /-- MXU_PARK (R342). An access meets a non-resident frame or host page and parks. -/
  | mxuPark (acc : Nat)
  /-- FAULT_RECORD_WRITE (R346). A fault record is written to the ring once there is room. -/
  | faultRecordWrite (mxu : Nat)
  /-- REPLAY (R350). A REPLAY write re-examines parks up to a sequence number. -/
  | replay (mxu : Nat) (v : Word)
  /-- RQTAIL_WRITE (R347). A residency command tail write is accepted or ignored. -/
  | rqtailWrite (mxu : Nat) (v : BitVec 32)
  /-- FILL (R348). Fills a non-resident frame from host memory or zeros. -/
  | fill (mxu : Nat) (ok : Bool) (data : List Byte)
  /-- EVICT (R348). Starts evicting a resident frame to host memory. -/
  | evict (mxu : Nat)
  /-- PIN (R348). Pins a resident frame. -/
  | pin (mxu : Nat)
  /-- UNPIN (R348). Unpins a pinned frame. -/
  | unpin (mxu : Nat)
  /-- EVICT_COPYOUT_DONE (R340). The copy-out completes and the frame becomes NONRES. -/
  | evictCopyoutDone (mxu : Nat) (ok : Bool)
  /-- MXSTAT_READ (R344). Reading MXSTAT clears FULL. -/
  | mxstatRead (mxu : Nat)
  /-- FGB_WRITE (R351). Writes an account's BURST and GUAR, clamping GUAR. -/
  | fgbWrite (acct : Nat) (v : Word)
  /-- TRANSLATION_COMPLETION (R358). An ATS Translation Completion fills the ATC and releases waiting accesses. -/
  | translationCompletion (page : Nat × Nat × Nat) (pa : Nat) (len : Nat) (rd : Bool) (wr : Bool)
  /-- PRG_RESPONSE (R359). A PRI response releases or refuses a page's parks. -/
  | prgResponse (page : Nat × Nat × Nat) (code : Nat)
  /-- ATS_INVALIDATION_REQUEST (R360). An ATS Invalidation Request removes held translations. -/
  | atsInvalidationRequest (rid : Nat) (pasid : Nat) (base : Nat) (len : Nat)
  /-- INVALIDATION_COMPLETION (R360). The Invalidation Completion is sent once requests under removed entries complete. -/
  | invalidationCompletion
  /-- ERROR_CORRECTED (R364). A correctable error is corrected and charged to the budget. -/
  | errorCorrected (site : ErrSite)
  /-- ERROR_UNCORRECTABLE (R364). An uncorrectable error poisons the data or register. -/
  | errorUncorrectable (site : ErrSite)
  /-- MEMORY_SCRUB (R364). Each MXU reads every resident class-P frame once in 24 hours. -/
  | memoryScrub (frame : Nat)
  /-- RELAYOUT_GO (R377). Writing RLCTL.GO = 1 stamps and holds a re-layout request. -/
  | relayoutGo (n : Nat) (v : Word)
  /-- RELAYOUT_RUN (R377). The Locus converts the range's frames to the new class in its turn. -/
  | relayoutRun (n : Nat)
  /-- INTERVAL_CLOSE (R383). A paired interval closes and the cores exchange fingerprints. -/
  | intervalClose (core : Nat)
  /-- FINGERPRINT_AGREE (R384). All CRCs agree and the interval's held entries go SENT. -/
  | fingerprintAgree (core : Nat)
  /-- FINGERPRINT_DISAGREE (R385). A disagreement rolls back, reruns, tie-breaks or diverges. -/
  | fingerprintDisagree (core : Nat)
  /-- TIEBREAK_RESULT (R385). The spare's result decides the interval or diverges it. -/
  | tiebreakResult (core : Nat) (agrees : Nat)
  /-- PAIR_CLOSE_TIMEOUT (R383). Cores not reaching a close within 100 µs count as disagreeing. -/
  | pairCloseTimeout (core : Nat)
  /-- WCFG_CONF (R390). Writing WCFG.CONF = 1 configures compartments or is refused. -/
  | wcfgConf (vf : Nat) (tdi : Nat)
  /-- WCFG_RETIRE (R391). Writing WCFG.RETIRE = 1 starts retiring the world. -/
  | wcfgRetire (vf : Nat)
  /-- KEY_SET (R405). Installs a compartment's XTS key pair over SPDM. -/
  | keySet (vf : Nat) (comp : Nat) (key : List Byte)
  /-- KEY_REVOKE (R405). Revokes a key and retires the world. -/
  | keyRevoke (vf : Nat) (comp : Nat)
  /-- TDI_ERROR (R390). The VF's TDI enters ERROR and the world retires. -/
  | tdiError (vf : Nat)
  /-- FUNCTION_LEVEL_RESET (R390). A function-level reset of a VF retires its world. -/
  | functionLevelReset (vf : Nat)
  /-- WORLD_RETIRE_COMPLETE (R390). With contexts FREE and slots idle, the slots are cleared and the world is OPEN. -/
  | worldRetireComplete (vf : Nat)
  /-- CXL_MEM_REQUEST (R408). A CXL.mem request is checked and served at the home slice. -/
  | cxlMemRequest (write : Bool) (tbit : Bool) (stream : Nat) (hpa : Nat) (data : List Byte)
  /-- CXL_H2D_SNOOP (R407). An H2D snoop is answered with a miss. -/
  | cxlH2dSnoop (line : Nat)
  /-- IDE_KEY_SWITCH (R406). A stream switches key sets for new requests. -/
  | ideKeySwitch (stream : Nat)
  /-- HOST_LINK_UP (R409). Host port training succeeds. -/
  | hostLinkUp (width : Nat)
  /-- HOST_LINK_RECOVERY (R409). The host link passes through Recovery and returns. -/
  | hostLinkRecovery
  /-- HOST_LINK_DOWN (R409). Link down or hot reset refuses outstanding host-frame accesses. -/
  | hostLinkDown
  /-- SKONOV_PORT_ENABLE (R413). Writing SKPCTL.EN = 1 starts training all nine lanes. -/
  | skonovPortEnable (p : Nat)
  /-- SKONOV_PORT_DISABLE (R413). Writing SKPCTL.EN = 0 disables the port and redirects its replay buffer. -/
  | skonovPortDisable (p : Nat)
  /-- SKONOV_RETRAIN (R412). Writing SKPCTL.RETRAIN = 1 forces a retrain. -/
  | skonovRetrain (p : Nat)
  /-- PORT_TRAINED (R413). A port finishes training at the widest usable width. -/
  | portTrained (p : Nat) (lanes : Nat)
  /-- PORT_TRAINING_TIMEOUT (R413). No lane trains within 100 ms and the port fails. -/
  | portTrainingTimeout (p : Nat)
  /-- LANE_FAILURE (R413). A lane fails and the port retrains with the spare or narrower. -/
  | laneFailure (p : Nat) (lane : Nat)
  /-- RETRAIN_COMPLETE (R413). A retrain completes and retry resumes. -/
  | retrainComplete (p : Nat)
  /-- FLIT_RECEIVE (R411). A flit is accepted in order or answered with a NAK. -/
  | flitReceive (p : Nat) (flit : List Byte)
  /-- FLIT_NAK (R411). A NAK makes the sender resend from the expected SEQ. -/
  | flitNak (p : Nat) (expected : Nat)
  /-- PROXY_GRANT (R417). A directory grant reaches the proxy slice. -/
  | proxyGrant (line : Nat) (st : Nat) (num : Nat) (data : List Byte)
  /-- PROXY_INVALIDATION (R417). A directory invalidation reaches a proxy and is acknowledged. -/
  | proxyInvalidation (line : Nat) (num : Nat)
  /-- DIRECTORY_RECALL (R416). The directory recalls or invalidates copies for a request. -/
  | directoryRecall (line : Nat) (inv : Bool)
  /-- MODULE_FAILED (R418). A switch declares a module failed and orphans lines. -/
  | moduleFailed (module : Nat)
  /-- ORPHREL (R419). Writing SKFCTL.ORPHREL discards orphaned lines. -/
  | orphrel
  /-- QUIESCE (R420). Writing SKFCTL.QUIESCE = 1 starts draining fabric state. -/
  | quiesce
  /-- QUIESCE_COMPLETE (R420). Replay buffers empty and the module becomes QUIESCED. -/
  | quiesceComplete
  /-- FABRIC_ARRIVAL (R422). A routed fabric message arrives and is stamped or discarded. -/
  | fabricArrival (p : Nat) (rctx : Nat) (x : Nat) (y : Nat) (header : List Byte) (payload : List Byte)
  /-- SESSION_OPEN (R423). Writing DBGCTL.SESSION = 1 opens a debug session. -/
  | sessionOpen (v : Word)
  /-- SESSION_CLOSE (R423). Writing DBGCTL.SESSION = 0 ends the session as a resume. -/
  | sessionClose
  /-- DBG_STOP (R428). CMD STOP stops the device between activations up to DBGVSTOP. -/
  | dbgStop
  /-- DBG_RESUME (R425). CMD RESUME restarts every frozen party. -/
  | dbgResume (v : Word)
  /-- DBG_STEP (R429). CMD STEP runs one instruction on the selected core. -/
  | dbgStep (v : Word)
  /-- FREEZE_COMPLETE (R425). Every named party has stopped and DBGSTAT is written. -/
  | freezeComplete
  /-- STOP_TIMEOUT (R425). After 10 ms every core stops at its boundary as a partial stop. -/
  | stopTimeout
  /-- STEP_COMPLETE (R429). A step completes and the device is STOPPED. -/
  | stepComplete
  /-- STEP_TIMEOUT (R429). A blocked step ends after 1 ms. -/
  | stepTimeout
  /-- COMPARATOR_CONFIG (R424). Writing CFGk enables a comparator or stores EN = 0. -/
  | comparatorConfig (n : Nat) (v : Word)
  /-- TRACE_SAMPLE (R434). A sample record is taken every SPER periods. -/
  | traceSample (core : Nat)
  /-- COUNTER_SELECT (R438). A CNTSEL write latches a counter, denying and auditing where not allowed. -/
  | counterSelect (fn : Nat) (v : Word)
  /-- REPLAY_INJECT (R442). A logged outside input is injected with its stamp. -/
  | replayInject (fn : Nat)
  /-- FREEZE_ASSERT (R444). The FREEZE signal stops every clock of the module. -/
  | freezeAssert
  /-- FREEZE_RELEASE (R444). Clocks restart and PTIME steps forward. -/
  | freezeRelease (fabricTime : Nat)
  /-- SCAN_READ (R453). A scan read returns state or an orphaned line without change. -/
  | scanRead (orphan : Bool) (la : Nat)
  /-- DEVICE_RESET (R445). Power-on or reset runs the boot sequence and builds the core map. -/
  | deviceReset (passed : List Nat) (trained : Bool) (images : List BootImage)
  /-- PCAPW_WRITE (R449). Writes the power cap, clamped to 600..1800 W. -/
  | pcapwWrite (v : Word)
  /-- PCAPWIN_WRITE (R449). Writes the averaging window, clamped to 1..1000 ms. -/
  | pcapwinWrite (v : Word)
  /-- POWER_SAMPLE (R450). Input power is measured every 100 µs. -/
  | powerSample (watts : Nat)
  /-- POWER_ADJUST (R450). GATE is adjusted every 1 ms. -/
  | powerAdjust (gate : Nat)
  /-- POWER_WINDOW_END (R450). A window completes and OVER is set above the cap. -/
  | powerWindowEnd (avg : Nat)
  /-- THERM_READ (R451). Reading THERM clears MAX. -/
  | thermRead
  /-- THERMAL_THROTTLE (R451). At 95 °C GATE rises and HOT is set. -/
  | thermalThrottle (t0 : Nat) (t1 : Nat) (gate : Nat)
  /-- THERMAL_FREEZE (R451). At 105 °C the device freezes. -/
  | thermalFreeze (t0 : Nat) (t1 : Nat)
  /-- THERMAL_TRIP (R451). At 110 °C power is removed and the interlock trips. -/
  | thermalTrip (t0 : Nat) (t1 : Nat)
  /-- THERMAL_RECOVER (R451). Below 92 °C HOT clears and a thermal freeze resumes. -/
  | thermalRecover (t0 : Nat) (t1 : Nat)
  /-- ERROR_RECORD_WRITE (R452). A reliability record enters the error-record ring or is dropped. -/
  | errorRecordWrite
  /-- REGISTER_WRITE (R7). A write to a register with no behaviour of its own updates its RW and W1C fields. -/
  | registerWrite (fn : Nat) (bar : Nat) (off : Nat) (v : Word)
  /-- ACCESS_REACHES_TARGET (R289). A posted store, load, AMO or line operation arrives at its target (a scratch bank, a home slice, the host port or an aperture) and is performed or refused there. -/
  | accessReachesTarget (acc : Nat) (ok : Bool)
  /-- NON_POSTED_COMPLETION (R360). The value or completion of a non-posted access (a load, AMO, fetch, probe, flushing read or host AtomicOp) returns to the issuing core and is written to its register. -/
  | nonPostedCompletion (acc : Nat) (ok : Bool) (data : List Byte)
  /-- BIRSP_ARRIVAL (R408). The host's BIRsp to a BISnpInv reaches the home slice, which lets the device write to a HOSTHELD line perform at SYSTEM scope. -/
  | birspArrival (line : Nat)
  /-- PCIE_COMPLETION_TIMEOUT (R406). A device non-posted request on the host link times out under the PCI Express completion timeout, which may let its old IDE key set be retired. -/
  | pcieCompletionTimeout (acc : Nat)
  /-- PRI_ENABLE_WRITE (R359). System software clears and sets PRI Enable, which clears MXSTAT.PRIFAIL and ends the immediate refusal of untranslated accesses. -/
  | priEnableWrite (fn : Nat)
  deriving DecidableEq, Repr

end Sys2Proof
end

