-- ==== Sys2Proof/Decode.lean ====
section
/-! DEFINITION. The decoder (R67, R70-R72, R77-R81, R85), total on any words, and after it the encoder, both written
from the encoding tables of spec/opcode_table.json: a word is read as the instruction whose fixed bits it has, and any
other word is rejected by name. Whether a field holds a value that the instruction allows is `Instr.wf` (WellFormed). -/
namespace Sys2Proof

/-- Why a word is no instruction (R78). -/
inductive DecodeError where
  /-- A major opcode that R77 reserves. -/
  | reservedMajor (w : IWord)
  /-- A function code, or a fixed field, that R77 and R79-R81 do not assign. -/
  | reservedFunction (w : IWord)
  /-- A 16-bit form that R85 and R86 do not assign, the halfword 0x0000 included (R67). -/
  | reservedHalf (h : Half)
  /-- The bytes end before the instruction does. -/
  | truncated
  deriving DecidableEq, Repr

/-- Bits lo..lo+len-1 of a word (R3). -/
abbrev bitsOf (w : IWord) (lo len : Nat) : BitVec len := w.extractLsb' lo len

/-- Major 0x01, OPR (R77). -/
def decodeOpr (w : IWord) : Option Instr :=
  if w.extractLsb' 25 7 = 0#7 ∧ w.extractLsb' 12 3 = 0#3 then
    some (.add (w.extractLsb' 20 5) (w.extractLsb' 15 5) (w.extractLsb' 7 5))
  else if w.extractLsb' 25 7 = 0#7 ∧ w.extractLsb' 12 3 = 1#3 then
    some (.sub (w.extractLsb' 20 5) (w.extractLsb' 15 5) (w.extractLsb' 7 5))
  else if w.extractLsb' 25 7 = 0#7 ∧ w.extractLsb' 12 3 = 2#3 then
    some (.sll (w.extractLsb' 20 5) (w.extractLsb' 15 5) (w.extractLsb' 7 5))
  else if w.extractLsb' 25 7 = 0#7 ∧ w.extractLsb' 12 3 = 3#3 then
    some (.slt (w.extractLsb' 20 5) (w.extractLsb' 15 5) (w.extractLsb' 7 5))
  else if w.extractLsb' 25 7 = 0#7 ∧ w.extractLsb' 12 3 = 4#3 then
    some (.sltu (w.extractLsb' 20 5) (w.extractLsb' 15 5) (w.extractLsb' 7 5))
  else if w.extractLsb' 25 7 = 0#7 ∧ w.extractLsb' 12 3 = 5#3 then
    some (.xor (w.extractLsb' 20 5) (w.extractLsb' 15 5) (w.extractLsb' 7 5))
  else if w.extractLsb' 25 7 = 0#7 ∧ w.extractLsb' 12 3 = 6#3 then
    some (.srl (w.extractLsb' 20 5) (w.extractLsb' 15 5) (w.extractLsb' 7 5))
  else if w.extractLsb' 25 7 = 0#7 ∧ w.extractLsb' 12 3 = 7#3 then
    some (.sra (w.extractLsb' 20 5) (w.extractLsb' 15 5) (w.extractLsb' 7 5))
  else if w.extractLsb' 25 7 = 1#7 ∧ w.extractLsb' 12 3 = 0#3 then
    some (.and (w.extractLsb' 20 5) (w.extractLsb' 15 5) (w.extractLsb' 7 5))
  else if w.extractLsb' 25 7 = 1#7 ∧ w.extractLsb' 12 3 = 1#3 then
    some (.or (w.extractLsb' 20 5) (w.extractLsb' 15 5) (w.extractLsb' 7 5))
  else if w.extractLsb' 25 7 = 1#7 ∧ w.extractLsb' 12 3 = 2#3 then
    some (.andn (w.extractLsb' 20 5) (w.extractLsb' 15 5) (w.extractLsb' 7 5))
  else if w.extractLsb' 25 7 = 1#7 ∧ w.extractLsb' 12 3 = 3#3 then
    some (.orn (w.extractLsb' 20 5) (w.extractLsb' 15 5) (w.extractLsb' 7 5))
  else if w.extractLsb' 25 7 = 1#7 ∧ w.extractLsb' 12 3 = 4#3 then
    some (.xnor (w.extractLsb' 20 5) (w.extractLsb' 15 5) (w.extractLsb' 7 5))
  else none

/-- Major 0x02, OPI (R77). -/
def decodeOpi (w : IWord) : Option Instr :=
  if w.extractLsb' 12 3 = 0#3 then
    some (.addi (w.extractLsb' 20 12) (w.extractLsb' 15 5) (w.extractLsb' 7 5))
  else if w.extractLsb' 26 6 = 0#6 ∧ w.extractLsb' 12 3 = 1#3 then
    some (.slli (w.extractLsb' 20 6) (w.extractLsb' 15 5) (w.extractLsb' 7 5))
  else if w.extractLsb' 12 3 = 2#3 then
    some (.slti (w.extractLsb' 20 12) (w.extractLsb' 15 5) (w.extractLsb' 7 5))
  else if w.extractLsb' 12 3 = 3#3 then
    some (.sltiu (w.extractLsb' 20 12) (w.extractLsb' 15 5) (w.extractLsb' 7 5))
  else if w.extractLsb' 12 3 = 4#3 then
    some (.xori (w.extractLsb' 20 12) (w.extractLsb' 15 5) (w.extractLsb' 7 5))
  else if w.extractLsb' 26 6 = 0#6 ∧ w.extractLsb' 12 3 = 5#3 then
    some (.srli (w.extractLsb' 20 6) (w.extractLsb' 15 5) (w.extractLsb' 7 5))
  else if w.extractLsb' 26 6 = 1#6 ∧ w.extractLsb' 12 3 = 5#3 then
    some (.srai (w.extractLsb' 20 6) (w.extractLsb' 15 5) (w.extractLsb' 7 5))
  else if w.extractLsb' 12 3 = 6#3 then
    some (.ori (w.extractLsb' 20 12) (w.extractLsb' 15 5) (w.extractLsb' 7 5))
  else if w.extractLsb' 12 3 = 7#3 then
    some (.andi (w.extractLsb' 20 12) (w.extractLsb' 15 5) (w.extractLsb' 7 5))
  else none

/-- Major 0x04, LUI (R77). -/
def decodeLui (w : IWord) : Option Instr :=
  some (.lui (w.extractLsb' 12 20) (w.extractLsb' 7 5))

/-- Major 0x05, AUIPC (R77). -/
def decodeAuipc (w : IWord) : Option Instr :=
  some (.auipc (w.extractLsb' 12 20) (w.extractLsb' 7 5))

/-- Major 0x06, BR (R77). -/
def decodeBr (w : IWord) : Option Instr :=
  if w.extractLsb' 12 3 = 0#3 then
    some (.beq (w.extractLsb' 25 7 ++ w.extractLsb' 7 5) (w.extractLsb' 20 5) (w.extractLsb' 15 5))
  else if w.extractLsb' 12 3 = 1#3 then
    some (.bne (w.extractLsb' 25 7 ++ w.extractLsb' 7 5) (w.extractLsb' 20 5) (w.extractLsb' 15 5))
  else if w.extractLsb' 12 3 = 2#3 then
    some (.blt (w.extractLsb' 25 7 ++ w.extractLsb' 7 5) (w.extractLsb' 20 5) (w.extractLsb' 15 5))
  else if w.extractLsb' 12 3 = 3#3 then
    some (.bge (w.extractLsb' 25 7 ++ w.extractLsb' 7 5) (w.extractLsb' 20 5) (w.extractLsb' 15 5))
  else if w.extractLsb' 12 3 = 4#3 then
    some (.bltu (w.extractLsb' 25 7 ++ w.extractLsb' 7 5) (w.extractLsb' 20 5) (w.extractLsb' 15 5))
  else if w.extractLsb' 12 3 = 5#3 then
    some (.bgeu (w.extractLsb' 25 7 ++ w.extractLsb' 7 5) (w.extractLsb' 20 5) (w.extractLsb' 15 5))
  else none

/-- Major 0x07, JAL (R77). -/
def decodeJal (w : IWord) : Option Instr :=
  some (.jal (w.extractLsb' 12 20) (w.extractLsb' 7 5))

/-- Major 0x08, JALR (R77). -/
def decodeJalr (w : IWord) : Option Instr :=
  if w.extractLsb' 12 3 = 0#3 then
    some (.jalr (w.extractLsb' 20 12) (w.extractLsb' 15 5) (w.extractLsb' 7 5))
  else none

/-- Major 0x09, LOAD (R77). -/
def decodeLoad (w : IWord) : Option Instr :=
  if w.extractLsb' 12 3 = 0#3 then
    some (.lb (w.extractLsb' 20 12) (w.extractLsb' 15 5) (w.extractLsb' 7 5))
  else if w.extractLsb' 12 3 = 1#3 then
    some (.lh (w.extractLsb' 20 12) (w.extractLsb' 15 5) (w.extractLsb' 7 5))
  else if w.extractLsb' 12 3 = 2#3 then
    some (.lw (w.extractLsb' 20 12) (w.extractLsb' 15 5) (w.extractLsb' 7 5))
  else if w.extractLsb' 12 3 = 3#3 then
    some (.ld (w.extractLsb' 20 12) (w.extractLsb' 15 5) (w.extractLsb' 7 5))
  else if w.extractLsb' 12 3 = 4#3 then
    some (.lbu (w.extractLsb' 20 12) (w.extractLsb' 15 5) (w.extractLsb' 7 5))
  else if w.extractLsb' 12 3 = 5#3 then
    some (.lhu (w.extractLsb' 20 12) (w.extractLsb' 15 5) (w.extractLsb' 7 5))
  else if w.extractLsb' 12 3 = 6#3 then
    some (.lwu (w.extractLsb' 20 12) (w.extractLsb' 15 5) (w.extractLsb' 7 5))
  else none

/-- Major 0x0A, STORE (R77). -/
def decodeStore (w : IWord) : Option Instr :=
  if w.extractLsb' 12 3 = 0#3 then
    some (.sb (w.extractLsb' 25 7 ++ w.extractLsb' 7 5) (w.extractLsb' 20 5) (w.extractLsb' 15 5))
  else if w.extractLsb' 12 3 = 1#3 then
    some (.sh (w.extractLsb' 25 7 ++ w.extractLsb' 7 5) (w.extractLsb' 20 5) (w.extractLsb' 15 5))
  else if w.extractLsb' 12 3 = 2#3 then
    some (.sw (w.extractLsb' 25 7 ++ w.extractLsb' 7 5) (w.extractLsb' 20 5) (w.extractLsb' 15 5))
  else if w.extractLsb' 12 3 = 3#3 then
    some (.sd (w.extractLsb' 25 7 ++ w.extractLsb' 7 5) (w.extractLsb' 20 5) (w.extractLsb' 15 5))
  else if w.extractLsb' 12 3 = 4#3 then
    some (.swf (w.extractLsb' 25 7 ++ w.extractLsb' 7 5) (w.extractLsb' 20 5) (w.extractLsb' 15 5))
  else if w.extractLsb' 12 3 = 5#3 then
    some (.sdf (w.extractLsb' 25 7 ++ w.extractLsb' 7 5) (w.extractLsb' 20 5) (w.extractLsb' 15 5))
  else none

/-- Major 0x0B, LDFE (R77). -/
def decodeLdfe (w : IWord) : Option Instr :=
  if w.extractLsb' 12 3 = 0#3 then
    some (.lwf (w.extractLsb' 20 12) (w.extractLsb' 15 5) (w.extractLsb' 7 5))
  else if w.extractLsb' 12 3 = 1#3 then
    some (.ldf (w.extractLsb' 20 12) (w.extractLsb' 15 5) (w.extractLsb' 7 5))
  else if w.extractLsb' 12 3 = 2#3 then
    some (.lwfc (w.extractLsb' 20 12) (w.extractLsb' 15 5) (w.extractLsb' 7 5))
  else if w.extractLsb' 12 3 = 3#3 then
    some (.ldfc (w.extractLsb' 20 12) (w.extractLsb' 15 5) (w.extractLsb' 7 5))
  else none

/-- Major 0x0C, AMO (R77). -/
def decodeAmo (w : IWord) : Option Instr :=
  if w.extractLsb' 28 4 = 0#4 then
    some (.amoadd (w.extractLsb' 27 1) (w.extractLsb' 25 2) (w.extractLsb' 20 5) (w.extractLsb' 15 5) (w.extractLsb' 12 3) (w.extractLsb' 7 5))
  else if w.extractLsb' 28 4 = 1#4 then
    some (.amoswap (w.extractLsb' 27 1) (w.extractLsb' 25 2) (w.extractLsb' 20 5) (w.extractLsb' 15 5) (w.extractLsb' 12 3) (w.extractLsb' 7 5))
  else if w.extractLsb' 28 4 = 2#4 then
    some (.amoand (w.extractLsb' 27 1) (w.extractLsb' 25 2) (w.extractLsb' 20 5) (w.extractLsb' 15 5) (w.extractLsb' 12 3) (w.extractLsb' 7 5))
  else if w.extractLsb' 28 4 = 3#4 then
    some (.amoor (w.extractLsb' 27 1) (w.extractLsb' 25 2) (w.extractLsb' 20 5) (w.extractLsb' 15 5) (w.extractLsb' 12 3) (w.extractLsb' 7 5))
  else if w.extractLsb' 28 4 = 4#4 then
    some (.amoxor (w.extractLsb' 27 1) (w.extractLsb' 25 2) (w.extractLsb' 20 5) (w.extractLsb' 15 5) (w.extractLsb' 12 3) (w.extractLsb' 7 5))
  else if w.extractLsb' 28 4 = 5#4 then
    some (.amomin (w.extractLsb' 27 1) (w.extractLsb' 25 2) (w.extractLsb' 20 5) (w.extractLsb' 15 5) (w.extractLsb' 12 3) (w.extractLsb' 7 5))
  else if w.extractLsb' 28 4 = 6#4 then
    some (.amomax (w.extractLsb' 27 1) (w.extractLsb' 25 2) (w.extractLsb' 20 5) (w.extractLsb' 15 5) (w.extractLsb' 12 3) (w.extractLsb' 7 5))
  else if w.extractLsb' 28 4 = 7#4 then
    some (.amominu (w.extractLsb' 27 1) (w.extractLsb' 25 2) (w.extractLsb' 20 5) (w.extractLsb' 15 5) (w.extractLsb' 12 3) (w.extractLsb' 7 5))
  else if w.extractLsb' 28 4 = 8#4 then
    some (.amomaxu (w.extractLsb' 27 1) (w.extractLsb' 25 2) (w.extractLsb' 20 5) (w.extractLsb' 15 5) (w.extractLsb' 12 3) (w.extractLsb' 7 5))
  else if w.extractLsb' 28 4 = 9#4 then
    some (.amocas (w.extractLsb' 27 1) (w.extractLsb' 25 2) (w.extractLsb' 20 5) (w.extractLsb' 15 5) (w.extractLsb' 12 3) (w.extractLsb' 7 5))
  else none

/-- Major 0x0D, MEMCTL (R77). -/
def decodeMemctl (w : IWord) : Option Instr :=
  if w.extractLsb' 27 5 = 0#5 ∧ w.extractLsb' 15 5 = 0#5 ∧ w.extractLsb' 12 3 = 0#3 ∧ w.extractLsb' 7 5 = 0#5 then
    some (.fence (w.extractLsb' 24 3) (w.extractLsb' 20 4))
  else if w.extractLsb' 12 3 = 1#3 ∧ w.extractLsb' 7 5 = 0#5 then
    some (.discard (w.extractLsb' 20 12) (w.extractLsb' 15 5))
  else if w.extractLsb' 12 3 = 2#3 ∧ w.extractLsb' 7 5 = 0#5 then
    some (.lastuse (w.extractLsb' 20 12) (w.extractLsb' 15 5))
  else if w.extractLsb' 12 3 = 3#3 ∧ w.extractLsb' 7 5 = 0#5 then
    some (.prefetch (w.extractLsb' 20 12) (w.extractLsb' 15 5))
  else if w.extractLsb' 12 3 = 4#3 ∧ w.extractLsb' 7 5 = 0#5 then
    some (.flushl (w.extractLsb' 20 12) (w.extractLsb' 15 5))
  else none

/-- Major 0x0E, MULDIV (R77). -/
def decodeMuldiv (w : IWord) : Option Instr :=
  if w.extractLsb' 25 7 = 0#7 ∧ w.extractLsb' 12 3 = 0#3 then
    some (.mul (w.extractLsb' 20 5) (w.extractLsb' 15 5) (w.extractLsb' 7 5))
  else if w.extractLsb' 25 7 = 0#7 ∧ w.extractLsb' 12 3 = 1#3 then
    some (.mulh (w.extractLsb' 20 5) (w.extractLsb' 15 5) (w.extractLsb' 7 5))
  else if w.extractLsb' 25 7 = 0#7 ∧ w.extractLsb' 12 3 = 2#3 then
    some (.mulhsu (w.extractLsb' 20 5) (w.extractLsb' 15 5) (w.extractLsb' 7 5))
  else if w.extractLsb' 25 7 = 0#7 ∧ w.extractLsb' 12 3 = 3#3 then
    some (.mulhu (w.extractLsb' 20 5) (w.extractLsb' 15 5) (w.extractLsb' 7 5))
  else if w.extractLsb' 25 7 = 0#7 ∧ w.extractLsb' 12 3 = 4#3 then
    some (.div (w.extractLsb' 20 5) (w.extractLsb' 15 5) (w.extractLsb' 7 5))
  else if w.extractLsb' 25 7 = 0#7 ∧ w.extractLsb' 12 3 = 5#3 then
    some (.divu (w.extractLsb' 20 5) (w.extractLsb' 15 5) (w.extractLsb' 7 5))
  else if w.extractLsb' 25 7 = 0#7 ∧ w.extractLsb' 12 3 = 6#3 then
    some (.rem (w.extractLsb' 20 5) (w.extractLsb' 15 5) (w.extractLsb' 7 5))
  else if w.extractLsb' 25 7 = 0#7 ∧ w.extractLsb' 12 3 = 7#3 then
    some (.remu (w.extractLsb' 20 5) (w.extractLsb' 15 5) (w.extractLsb' 7 5))
  else none

/-- Major 0x0F, BITS (R77). -/
def decodeBits (w : IWord) : Option Instr :=
  if w.extractLsb' 25 7 = 0#7 ∧ w.extractLsb' 12 3 = 0#3 then
    some (.min (w.extractLsb' 20 5) (w.extractLsb' 15 5) (w.extractLsb' 7 5))
  else if w.extractLsb' 25 7 = 0#7 ∧ w.extractLsb' 12 3 = 1#3 then
    some (.max (w.extractLsb' 20 5) (w.extractLsb' 15 5) (w.extractLsb' 7 5))
  else if w.extractLsb' 25 7 = 0#7 ∧ w.extractLsb' 12 3 = 2#3 then
    some (.minu (w.extractLsb' 20 5) (w.extractLsb' 15 5) (w.extractLsb' 7 5))
  else if w.extractLsb' 25 7 = 0#7 ∧ w.extractLsb' 12 3 = 3#3 then
    some (.maxu (w.extractLsb' 20 5) (w.extractLsb' 15 5) (w.extractLsb' 7 5))
  else if w.extractLsb' 25 7 = 0#7 ∧ w.extractLsb' 20 5 = 0#5 ∧ w.extractLsb' 12 3 = 4#3 then
    some (.clz (w.extractLsb' 15 5) (w.extractLsb' 7 5))
  else if w.extractLsb' 25 7 = 0#7 ∧ w.extractLsb' 20 5 = 0#5 ∧ w.extractLsb' 12 3 = 5#3 then
    some (.ctz (w.extractLsb' 15 5) (w.extractLsb' 7 5))
  else if w.extractLsb' 25 7 = 0#7 ∧ w.extractLsb' 20 5 = 0#5 ∧ w.extractLsb' 12 3 = 6#3 then
    some (.popc (w.extractLsb' 15 5) (w.extractLsb' 7 5))
  else if w.extractLsb' 25 7 = 0#7 ∧ w.extractLsb' 20 5 = 0#5 ∧ w.extractLsb' 12 3 = 7#3 then
    some (.brev (w.extractLsb' 15 5) (w.extractLsb' 7 5))
  else none

/-- Major 0x10, EXT (R77). -/
def decodeExt (w : IWord) : Option Instr :=
  if w.extractLsb' 25 7 = 0#7 ∧ w.extractLsb' 20 5 = 0#5 ∧ w.extractLsb' 17 3 = 2#3 ∧ w.extractLsb' 12 3 = 2#3 then
    some (.geteI (w.extractLsb' 15 2) (w.extractLsb' 7 5))
  else if w.extractLsb' 25 7 = 0#7 ∧ w.extractLsb' 20 5 = 0#5 ∧ w.extractLsb' 12 3 = 0#3 then
    some (.sete (w.extractLsb' 15 5) (w.extractLsb' 7 5))
  else if w.extractLsb' 15 5 = 0#5 ∧ w.extractLsb' 12 3 = 1#3 then
    some (.setei (w.extractLsb' 20 12) (w.extractLsb' 7 5))
  else if w.extractLsb' 25 7 = 0#7 ∧ w.extractLsb' 20 5 = 0#5 ∧ w.extractLsb' 12 3 = 2#3 then
    some (.gete (w.extractLsb' 15 5) (w.extractLsb' 7 5))
  else none

/-- Major 0x11, QUEUE (R77). -/
def decodeQueue (w : IWord) : Option Instr :=
  if w.extractLsb' 25 7 = 0#7 ∧ w.extractLsb' 12 3 = 0#3 then
    some (.qput (w.extractLsb' 20 5) (w.extractLsb' 15 5) (w.extractLsb' 7 5))
  else if w.extractLsb' 25 7 = 0#7 ∧ w.extractLsb' 12 3 = 1#3 then
    some (.qget (w.extractLsb' 20 5) (w.extractLsb' 15 5) (w.extractLsb' 7 5))
  else if w.extractLsb' 25 7 = 0#7 ∧ w.extractLsb' 20 5 = 0#5 ∧ w.extractLsb' 12 3 = 2#3 then
    some (.qpeek (w.extractLsb' 15 5) (w.extractLsb' 7 5))
  else if w.extractLsb' 25 7 = 0#7 ∧ w.extractLsb' 20 5 = 0#5 ∧ w.extractLsb' 12 3 = 3#3 then
    some (.qcnt (w.extractLsb' 15 5) (w.extractLsb' 7 5))
  else none

/-- Major 0x12, LOOP (R77). -/
def decodeLoop (w : IWord) : Option Instr :=
  if w.extractLsb' 25 7 = 0#7 ∧ w.extractLsb' 12 3 = 0#3 ∧ w.extractLsb' 7 5 = 0#5 then
    some (.nest (w.extractLsb' 20 5) (w.extractLsb' 15 5))
  else if w.extractLsb' 12 3 = 1#3 ∧ w.extractLsb' 7 5 = 0#5 then
    some (.loop (w.extractLsb' 20 12) (w.extractLsb' 15 5))
  else if w.extractLsb' 25 7 = 0#7 ∧ w.extractLsb' 20 5 = 0#5 ∧ w.extractLsb' 12 3 = 2#3 then
    some (.nestq (w.extractLsb' 15 5) (w.extractLsb' 7 5))
  else none

/-- Major 0x13, MSG (R77). -/
def decodeMsg (w : IWord) : Option Instr :=
  if w.extractLsb' 25 7 = 0#7 ∧ w.extractLsb' 12 3 = 0#3 ∧ w.extractLsb' 7 5 = 0#5 then
    some (.send (w.extractLsb' 20 5) (w.extractLsb' 15 5))
  else if w.extractLsb' 25 7 = 0#7 ∧ w.extractLsb' 12 3 = 1#3 ∧ w.extractLsb' 7 5 = 0#5 then
    some (.sendg (w.extractLsb' 20 5) (w.extractLsb' 15 5))
  else if w.extractLsb' 25 7 = 0#7 ∧ w.extractLsb' 12 3 = 2#3 ∧ w.extractLsb' 7 5 = 0#5 then
    some (.sendf (w.extractLsb' 20 5) (w.extractLsb' 15 5))
  else if w.extractLsb' 25 7 = 0#7 ∧ w.extractLsb' 20 5 = 0#5 ∧ w.extractLsb' 12 3 = 3#3 then
    some (.mld (w.extractLsb' 15 5) (w.extractLsb' 7 5))
  else if w.extractLsb' 25 7 = 0#7 ∧ w.extractLsb' 20 5 = 0#5 ∧ w.extractLsb' 15 5 = 0#5 ∧ w.extractLsb' 12 3 = 4#3 then
    some (.mlen (w.extractLsb' 7 5))
  else if w.extractLsb' 25 7 = 0#7 ∧ w.extractLsb' 20 5 = 0#5 ∧ w.extractLsb' 12 3 = 5#3 then
    some (.mhdr (w.extractLsb' 15 5) (w.extractLsb' 7 5))
  else none

/-- Major 0x14, ACT (R77). -/
def decodeAct (w : IWord) : Option Instr :=
  if w.extractLsb' 25 7 = 0#7 ∧ w.extractLsb' 20 5 = 0#5 ∧ w.extractLsb' 15 5 = 0#5 ∧ w.extractLsb' 12 3 = 0#3 ∧ w.extractLsb' 7 5 = 0#5 then
    some .endAct
  else if w.extractLsb' 25 7 = 0#7 ∧ w.extractLsb' 20 5 = 0#5 ∧ w.extractLsb' 15 5 = 0#5 ∧ w.extractLsb' 12 3 = 1#3 ∧ w.extractLsb' 7 5 = 0#5 then
    some .endx
  else none

/-- Major 0x15, GRP (R77). -/
def decodeGrp (w : IWord) : Option Instr :=
  if w.extractLsb' 25 7 = 0#7 ∧ w.extractLsb' 20 5 = 0#5 ∧ w.extractLsb' 12 3 = 0#3 then
    some (.grank (w.extractLsb' 15 5) (w.extractLsb' 7 5))
  else if w.extractLsb' 25 7 = 0#7 ∧ w.extractLsb' 20 5 = 0#5 ∧ w.extractLsb' 12 3 = 1#3 then
    some (.gsize (w.extractLsb' 15 5) (w.extractLsb' 7 5))
  else if w.extractLsb' 25 7 = 0#7 ∧ w.extractLsb' 12 3 = 2#3 then
    some (.gmemb (w.extractLsb' 20 5) (w.extractLsb' 15 5) (w.extractLsb' 7 5))
  else none

/-- Major 0x16, BAR (R77). -/
def decodeBar (w : IWord) : Option Instr :=
  if w.extractLsb' 31 1 = 0#1 ∧ w.extractLsb' 12 3 = 0#3 ∧ w.extractLsb' 7 5 = 0#5 then
    some (.barm (w.extractLsb' 28 3) (w.extractLsb' 25 3) (w.extractLsb' 20 5) (w.extractLsb' 15 5))
  else if w.extractLsb' 25 7 = 0#7 ∧ w.extractLsb' 12 3 = 1#3 ∧ w.extractLsb' 7 5 = 0#5 then
    some (.barv (w.extractLsb' 20 5) (w.extractLsb' 15 5))
  else if w.extractLsb' 25 7 = 0#7 ∧ w.extractLsb' 20 5 = 0#5 ∧ w.extractLsb' 12 3 = 2#3 then
    some (.barw (w.extractLsb' 15 5) (w.extractLsb' 7 5))
  else if w.extractLsb' 25 7 = 0#7 ∧ w.extractLsb' 20 5 = 0#5 ∧ w.extractLsb' 12 3 = 3#3 ∧ w.extractLsb' 7 5 = 0#5 then
    some (.barx (w.extractLsb' 15 5))
  else if w.extractLsb' 25 7 = 0#7 ∧ w.extractLsb' 20 5 = 0#5 ∧ w.extractLsb' 12 3 = 4#3 then
    some (.barq (w.extractLsb' 15 5) (w.extractLsb' 7 5))
  else none

/-- Major 0x17, MTA (R77). -/
def decodeMta (w : IWord) : Option Instr :=
  if w.extractLsb' 25 7 = 0#7 ∧ w.extractLsb' 24 1 = 0#1 ∧ w.extractLsb' 12 3 = 0#3 ∧ w.extractLsb' 7 5 = 0#5 then
    some (.bcast (w.extractLsb' 20 4) (w.extractLsb' 15 5))
  else if w.extractLsb' 12 3 = 1#3 ∧ w.extractLsb' 7 5 = 0#5 then
    some (.bfetch (w.extractLsb' 20 12) (w.extractLsb' 15 5))
  else if w.extractLsb' 25 7 = 0#7 ∧ w.extractLsb' 20 5 = 0#5 ∧ w.extractLsb' 15 5 = 0#5 ∧ w.extractLsb' 12 3 = 2#3 ∧ w.extractLsb' 7 5 = 0#5 then
    some .stop
  else if w.extractLsb' 25 7 = 0#7 ∧ w.extractLsb' 20 5 = 0#5 ∧ w.extractLsb' 12 3 = 3#3 ∧ w.extractLsb' 7 5 = 0#5 then
    some (.mtwait (w.extractLsb' 15 5))
  else if w.extractLsb' 25 7 = 0#7 ∧ w.extractLsb' 20 5 = 0#5 ∧ w.extractLsb' 15 5 = 0#5 ∧ w.extractLsb' 12 3 = 4#3 then
    some (.mtstat (w.extractLsb' 7 5))
  else if w.extractLsb' 25 7 = 0#7 ∧ w.extractLsb' 20 5 = 0#5 ∧ w.extractLsb' 12 3 = 5#3 ∧ w.extractLsb' 7 5 = 0#5 then
    some (.mtrst (w.extractLsb' 15 5))
  else none

/-- Major 0x18, VALU (R77). -/
def decodeValu (w : IWord) : Option Instr :=
  if w.extractLsb' 25 7 = 0#7 ∧ w.extractLsb' 23 2 = 0#2 ∧ w.extractLsb' 18 2 = 0#2 ∧ w.extractLsb' 12 3 = 0#3 ∧ w.extractLsb' 10 2 = 0#2 then
    some (.vaddVv (w.extractLsb' 20 3) (w.extractLsb' 15 3) (w.extractLsb' 7 3))
  else if w.extractLsb' 25 7 = 0#7 ∧ w.extractLsb' 18 2 = 0#2 ∧ w.extractLsb' 12 3 = 1#3 ∧ w.extractLsb' 10 2 = 0#2 then
    some (.vaddVx (w.extractLsb' 20 5) (w.extractLsb' 15 3) (w.extractLsb' 7 3))
  else if w.extractLsb' 25 7 = 0#7 ∧ w.extractLsb' 18 2 = 0#2 ∧ w.extractLsb' 12 3 = 2#3 ∧ w.extractLsb' 10 2 = 0#2 then
    some (.vaddVi (w.extractLsb' 20 5) (w.extractLsb' 15 3) (w.extractLsb' 7 3))
  else if w.extractLsb' 25 7 = 1#7 ∧ w.extractLsb' 23 2 = 0#2 ∧ w.extractLsb' 18 2 = 0#2 ∧ w.extractLsb' 12 3 = 0#3 ∧ w.extractLsb' 10 2 = 0#2 then
    some (.vsubVv (w.extractLsb' 20 3) (w.extractLsb' 15 3) (w.extractLsb' 7 3))
  else if w.extractLsb' 25 7 = 1#7 ∧ w.extractLsb' 18 2 = 0#2 ∧ w.extractLsb' 12 3 = 1#3 ∧ w.extractLsb' 10 2 = 0#2 then
    some (.vsubVx (w.extractLsb' 20 5) (w.extractLsb' 15 3) (w.extractLsb' 7 3))
  else if w.extractLsb' 25 7 = 1#7 ∧ w.extractLsb' 18 2 = 0#2 ∧ w.extractLsb' 12 3 = 2#3 ∧ w.extractLsb' 10 2 = 0#2 then
    some (.vsubVi (w.extractLsb' 20 5) (w.extractLsb' 15 3) (w.extractLsb' 7 3))
  else if w.extractLsb' 25 7 = 2#7 ∧ w.extractLsb' 23 2 = 0#2 ∧ w.extractLsb' 18 2 = 0#2 ∧ w.extractLsb' 12 3 = 0#3 ∧ w.extractLsb' 10 2 = 0#2 then
    some (.vmulVv (w.extractLsb' 20 3) (w.extractLsb' 15 3) (w.extractLsb' 7 3))
  else if w.extractLsb' 25 7 = 2#7 ∧ w.extractLsb' 18 2 = 0#2 ∧ w.extractLsb' 12 3 = 1#3 ∧ w.extractLsb' 10 2 = 0#2 then
    some (.vmulVx (w.extractLsb' 20 5) (w.extractLsb' 15 3) (w.extractLsb' 7 3))
  else if w.extractLsb' 25 7 = 2#7 ∧ w.extractLsb' 18 2 = 0#2 ∧ w.extractLsb' 12 3 = 2#3 ∧ w.extractLsb' 10 2 = 0#2 then
    some (.vmulVi (w.extractLsb' 20 5) (w.extractLsb' 15 3) (w.extractLsb' 7 3))
  else if w.extractLsb' 25 7 = 3#7 ∧ w.extractLsb' 23 2 = 0#2 ∧ w.extractLsb' 18 2 = 0#2 ∧ w.extractLsb' 12 3 = 0#3 ∧ w.extractLsb' 10 2 = 0#2 then
    some (.vminVv (w.extractLsb' 20 3) (w.extractLsb' 15 3) (w.extractLsb' 7 3))
  else if w.extractLsb' 25 7 = 3#7 ∧ w.extractLsb' 18 2 = 0#2 ∧ w.extractLsb' 12 3 = 1#3 ∧ w.extractLsb' 10 2 = 0#2 then
    some (.vminVx (w.extractLsb' 20 5) (w.extractLsb' 15 3) (w.extractLsb' 7 3))
  else if w.extractLsb' 25 7 = 3#7 ∧ w.extractLsb' 18 2 = 0#2 ∧ w.extractLsb' 12 3 = 2#3 ∧ w.extractLsb' 10 2 = 0#2 then
    some (.vminVi (w.extractLsb' 20 5) (w.extractLsb' 15 3) (w.extractLsb' 7 3))
  else if w.extractLsb' 25 7 = 4#7 ∧ w.extractLsb' 23 2 = 0#2 ∧ w.extractLsb' 18 2 = 0#2 ∧ w.extractLsb' 12 3 = 0#3 ∧ w.extractLsb' 10 2 = 0#2 then
    some (.vmaxVv (w.extractLsb' 20 3) (w.extractLsb' 15 3) (w.extractLsb' 7 3))
  else if w.extractLsb' 25 7 = 4#7 ∧ w.extractLsb' 18 2 = 0#2 ∧ w.extractLsb' 12 3 = 1#3 ∧ w.extractLsb' 10 2 = 0#2 then
    some (.vmaxVx (w.extractLsb' 20 5) (w.extractLsb' 15 3) (w.extractLsb' 7 3))
  else if w.extractLsb' 25 7 = 4#7 ∧ w.extractLsb' 18 2 = 0#2 ∧ w.extractLsb' 12 3 = 2#3 ∧ w.extractLsb' 10 2 = 0#2 then
    some (.vmaxVi (w.extractLsb' 20 5) (w.extractLsb' 15 3) (w.extractLsb' 7 3))
  else if w.extractLsb' 25 7 = 5#7 ∧ w.extractLsb' 23 2 = 0#2 ∧ w.extractLsb' 18 2 = 0#2 ∧ w.extractLsb' 12 3 = 0#3 ∧ w.extractLsb' 10 2 = 0#2 then
    some (.vandVv (w.extractLsb' 20 3) (w.extractLsb' 15 3) (w.extractLsb' 7 3))
  else if w.extractLsb' 25 7 = 5#7 ∧ w.extractLsb' 18 2 = 0#2 ∧ w.extractLsb' 12 3 = 1#3 ∧ w.extractLsb' 10 2 = 0#2 then
    some (.vandVx (w.extractLsb' 20 5) (w.extractLsb' 15 3) (w.extractLsb' 7 3))
  else if w.extractLsb' 25 7 = 5#7 ∧ w.extractLsb' 18 2 = 0#2 ∧ w.extractLsb' 12 3 = 2#3 ∧ w.extractLsb' 10 2 = 0#2 then
    some (.vandVi (w.extractLsb' 20 5) (w.extractLsb' 15 3) (w.extractLsb' 7 3))
  else if w.extractLsb' 25 7 = 6#7 ∧ w.extractLsb' 23 2 = 0#2 ∧ w.extractLsb' 18 2 = 0#2 ∧ w.extractLsb' 12 3 = 0#3 ∧ w.extractLsb' 10 2 = 0#2 then
    some (.vorVv (w.extractLsb' 20 3) (w.extractLsb' 15 3) (w.extractLsb' 7 3))
  else if w.extractLsb' 25 7 = 6#7 ∧ w.extractLsb' 18 2 = 0#2 ∧ w.extractLsb' 12 3 = 1#3 ∧ w.extractLsb' 10 2 = 0#2 then
    some (.vorVx (w.extractLsb' 20 5) (w.extractLsb' 15 3) (w.extractLsb' 7 3))
  else if w.extractLsb' 25 7 = 6#7 ∧ w.extractLsb' 18 2 = 0#2 ∧ w.extractLsb' 12 3 = 2#3 ∧ w.extractLsb' 10 2 = 0#2 then
    some (.vorVi (w.extractLsb' 20 5) (w.extractLsb' 15 3) (w.extractLsb' 7 3))
  else if w.extractLsb' 25 7 = 7#7 ∧ w.extractLsb' 23 2 = 0#2 ∧ w.extractLsb' 18 2 = 0#2 ∧ w.extractLsb' 12 3 = 0#3 ∧ w.extractLsb' 10 2 = 0#2 then
    some (.vxorVv (w.extractLsb' 20 3) (w.extractLsb' 15 3) (w.extractLsb' 7 3))
  else if w.extractLsb' 25 7 = 7#7 ∧ w.extractLsb' 18 2 = 0#2 ∧ w.extractLsb' 12 3 = 1#3 ∧ w.extractLsb' 10 2 = 0#2 then
    some (.vxorVx (w.extractLsb' 20 5) (w.extractLsb' 15 3) (w.extractLsb' 7 3))
  else if w.extractLsb' 25 7 = 7#7 ∧ w.extractLsb' 18 2 = 0#2 ∧ w.extractLsb' 12 3 = 2#3 ∧ w.extractLsb' 10 2 = 0#2 then
    some (.vxorVi (w.extractLsb' 20 5) (w.extractLsb' 15 3) (w.extractLsb' 7 3))
  else if w.extractLsb' 25 7 = 8#7 ∧ w.extractLsb' 23 2 = 0#2 ∧ w.extractLsb' 18 2 = 0#2 ∧ w.extractLsb' 12 3 = 0#3 ∧ w.extractLsb' 10 2 = 0#2 then
    some (.vshlVv (w.extractLsb' 20 3) (w.extractLsb' 15 3) (w.extractLsb' 7 3))
  else if w.extractLsb' 25 7 = 8#7 ∧ w.extractLsb' 18 2 = 0#2 ∧ w.extractLsb' 12 3 = 1#3 ∧ w.extractLsb' 10 2 = 0#2 then
    some (.vshlVx (w.extractLsb' 20 5) (w.extractLsb' 15 3) (w.extractLsb' 7 3))
  else if w.extractLsb' 25 7 = 8#7 ∧ w.extractLsb' 18 2 = 0#2 ∧ w.extractLsb' 12 3 = 2#3 ∧ w.extractLsb' 10 2 = 0#2 then
    some (.vshlVi (w.extractLsb' 20 5) (w.extractLsb' 15 3) (w.extractLsb' 7 3))
  else if w.extractLsb' 25 7 = 9#7 ∧ w.extractLsb' 23 2 = 0#2 ∧ w.extractLsb' 18 2 = 0#2 ∧ w.extractLsb' 12 3 = 0#3 ∧ w.extractLsb' 10 2 = 0#2 then
    some (.vshrVv (w.extractLsb' 20 3) (w.extractLsb' 15 3) (w.extractLsb' 7 3))
  else if w.extractLsb' 25 7 = 9#7 ∧ w.extractLsb' 18 2 = 0#2 ∧ w.extractLsb' 12 3 = 1#3 ∧ w.extractLsb' 10 2 = 0#2 then
    some (.vshrVx (w.extractLsb' 20 5) (w.extractLsb' 15 3) (w.extractLsb' 7 3))
  else if w.extractLsb' 25 7 = 9#7 ∧ w.extractLsb' 18 2 = 0#2 ∧ w.extractLsb' 12 3 = 2#3 ∧ w.extractLsb' 10 2 = 0#2 then
    some (.vshrVi (w.extractLsb' 20 5) (w.extractLsb' 15 3) (w.extractLsb' 7 3))
  else if w.extractLsb' 25 7 = 10#7 ∧ w.extractLsb' 23 2 = 0#2 ∧ w.extractLsb' 18 2 = 0#2 ∧ w.extractLsb' 12 3 = 0#3 ∧ w.extractLsb' 10 2 = 0#2 then
    some (.vsraVv (w.extractLsb' 20 3) (w.extractLsb' 15 3) (w.extractLsb' 7 3))
  else if w.extractLsb' 25 7 = 10#7 ∧ w.extractLsb' 18 2 = 0#2 ∧ w.extractLsb' 12 3 = 1#3 ∧ w.extractLsb' 10 2 = 0#2 then
    some (.vsraVx (w.extractLsb' 20 5) (w.extractLsb' 15 3) (w.extractLsb' 7 3))
  else if w.extractLsb' 25 7 = 10#7 ∧ w.extractLsb' 18 2 = 0#2 ∧ w.extractLsb' 12 3 = 2#3 ∧ w.extractLsb' 10 2 = 0#2 then
    some (.vsraVi (w.extractLsb' 20 5) (w.extractLsb' 15 3) (w.extractLsb' 7 3))
  else if w.extractLsb' 25 7 = 11#7 ∧ w.extractLsb' 20 5 = 0#5 ∧ w.extractLsb' 18 2 = 0#2 ∧ w.extractLsb' 12 3 = 0#3 ∧ w.extractLsb' 10 2 = 0#2 then
    some (.vabs (w.extractLsb' 15 3) (w.extractLsb' 7 3))
  else if w.extractLsb' 25 7 = 12#7 ∧ w.extractLsb' 20 5 = 0#5 ∧ w.extractLsb' 18 2 = 0#2 ∧ w.extractLsb' 12 3 = 0#3 ∧ w.extractLsb' 10 2 = 0#2 then
    some (.vneg (w.extractLsb' 15 3) (w.extractLsb' 7 3))
  else if w.extractLsb' 25 7 = 13#7 ∧ w.extractLsb' 23 2 = 0#2 ∧ w.extractLsb' 18 2 = 0#2 ∧ w.extractLsb' 12 3 = 0#3 ∧ w.extractLsb' 10 2 = 0#2 then
    some (.vcmpeqVv (w.extractLsb' 20 3) (w.extractLsb' 15 3) (w.extractLsb' 7 3))
  else if w.extractLsb' 25 7 = 13#7 ∧ w.extractLsb' 18 2 = 0#2 ∧ w.extractLsb' 12 3 = 1#3 ∧ w.extractLsb' 10 2 = 0#2 then
    some (.vcmpeqVx (w.extractLsb' 20 5) (w.extractLsb' 15 3) (w.extractLsb' 7 3))
  else if w.extractLsb' 25 7 = 13#7 ∧ w.extractLsb' 18 2 = 0#2 ∧ w.extractLsb' 12 3 = 2#3 ∧ w.extractLsb' 10 2 = 0#2 then
    some (.vcmpeqVi (w.extractLsb' 20 5) (w.extractLsb' 15 3) (w.extractLsb' 7 3))
  else if w.extractLsb' 25 7 = 14#7 ∧ w.extractLsb' 23 2 = 0#2 ∧ w.extractLsb' 18 2 = 0#2 ∧ w.extractLsb' 12 3 = 0#3 ∧ w.extractLsb' 10 2 = 0#2 then
    some (.vcmpltVv (w.extractLsb' 20 3) (w.extractLsb' 15 3) (w.extractLsb' 7 3))
  else if w.extractLsb' 25 7 = 14#7 ∧ w.extractLsb' 18 2 = 0#2 ∧ w.extractLsb' 12 3 = 1#3 ∧ w.extractLsb' 10 2 = 0#2 then
    some (.vcmpltVx (w.extractLsb' 20 5) (w.extractLsb' 15 3) (w.extractLsb' 7 3))
  else if w.extractLsb' 25 7 = 14#7 ∧ w.extractLsb' 18 2 = 0#2 ∧ w.extractLsb' 12 3 = 2#3 ∧ w.extractLsb' 10 2 = 0#2 then
    some (.vcmpltVi (w.extractLsb' 20 5) (w.extractLsb' 15 3) (w.extractLsb' 7 3))
  else if w.extractLsb' 25 7 = 15#7 ∧ w.extractLsb' 23 2 = 0#2 ∧ w.extractLsb' 18 2 = 0#2 ∧ w.extractLsb' 12 3 = 0#3 ∧ w.extractLsb' 10 2 = 0#2 then
    some (.vselVv (w.extractLsb' 20 3) (w.extractLsb' 15 3) (w.extractLsb' 7 3))
  else if w.extractLsb' 25 7 = 15#7 ∧ w.extractLsb' 18 2 = 0#2 ∧ w.extractLsb' 12 3 = 1#3 ∧ w.extractLsb' 10 2 = 0#2 then
    some (.vselVx (w.extractLsb' 20 5) (w.extractLsb' 15 3) (w.extractLsb' 7 3))
  else if w.extractLsb' 25 7 = 15#7 ∧ w.extractLsb' 18 2 = 0#2 ∧ w.extractLsb' 12 3 = 2#3 ∧ w.extractLsb' 10 2 = 0#2 then
    some (.vselVi (w.extractLsb' 20 5) (w.extractLsb' 15 3) (w.extractLsb' 7 3))
  else none

/-- Major 0x19, VFP (R77). -/
def decodeVfp (w : IWord) : Option Instr :=
  if w.extractLsb' 25 7 = 0#7 ∧ w.extractLsb' 23 2 = 0#2 ∧ w.extractLsb' 18 2 = 0#2 ∧ w.extractLsb' 12 3 = 0#3 ∧ w.extractLsb' 10 2 = 0#2 then
    some (.vfaddVv (w.extractLsb' 20 3) (w.extractLsb' 15 3) (w.extractLsb' 7 3))
  else if w.extractLsb' 25 7 = 0#7 ∧ w.extractLsb' 18 2 = 0#2 ∧ w.extractLsb' 12 3 = 1#3 ∧ w.extractLsb' 10 2 = 0#2 then
    some (.vfaddVx (w.extractLsb' 20 5) (w.extractLsb' 15 3) (w.extractLsb' 7 3))
  else if w.extractLsb' 25 7 = 1#7 ∧ w.extractLsb' 23 2 = 0#2 ∧ w.extractLsb' 18 2 = 0#2 ∧ w.extractLsb' 12 3 = 0#3 ∧ w.extractLsb' 10 2 = 0#2 then
    some (.vfsubVv (w.extractLsb' 20 3) (w.extractLsb' 15 3) (w.extractLsb' 7 3))
  else if w.extractLsb' 25 7 = 1#7 ∧ w.extractLsb' 18 2 = 0#2 ∧ w.extractLsb' 12 3 = 1#3 ∧ w.extractLsb' 10 2 = 0#2 then
    some (.vfsubVx (w.extractLsb' 20 5) (w.extractLsb' 15 3) (w.extractLsb' 7 3))
  else if w.extractLsb' 25 7 = 2#7 ∧ w.extractLsb' 23 2 = 0#2 ∧ w.extractLsb' 18 2 = 0#2 ∧ w.extractLsb' 12 3 = 0#3 ∧ w.extractLsb' 10 2 = 0#2 then
    some (.vfmulVv (w.extractLsb' 20 3) (w.extractLsb' 15 3) (w.extractLsb' 7 3))
  else if w.extractLsb' 25 7 = 2#7 ∧ w.extractLsb' 18 2 = 0#2 ∧ w.extractLsb' 12 3 = 1#3 ∧ w.extractLsb' 10 2 = 0#2 then
    some (.vfmulVx (w.extractLsb' 20 5) (w.extractLsb' 15 3) (w.extractLsb' 7 3))
  else if w.extractLsb' 25 7 = 3#7 ∧ w.extractLsb' 23 2 = 0#2 ∧ w.extractLsb' 18 2 = 0#2 ∧ w.extractLsb' 12 3 = 0#3 ∧ w.extractLsb' 10 2 = 0#2 then
    some (.vfmaVv (w.extractLsb' 20 3) (w.extractLsb' 15 3) (w.extractLsb' 7 3))
  else if w.extractLsb' 25 7 = 3#7 ∧ w.extractLsb' 18 2 = 0#2 ∧ w.extractLsb' 12 3 = 1#3 ∧ w.extractLsb' 10 2 = 0#2 then
    some (.vfmaVx (w.extractLsb' 20 5) (w.extractLsb' 15 3) (w.extractLsb' 7 3))
  else if w.extractLsb' 25 7 = 4#7 ∧ w.extractLsb' 23 2 = 0#2 ∧ w.extractLsb' 18 2 = 0#2 ∧ w.extractLsb' 12 3 = 0#3 ∧ w.extractLsb' 10 2 = 0#2 then
    some (.vfminVv (w.extractLsb' 20 3) (w.extractLsb' 15 3) (w.extractLsb' 7 3))
  else if w.extractLsb' 25 7 = 4#7 ∧ w.extractLsb' 18 2 = 0#2 ∧ w.extractLsb' 12 3 = 1#3 ∧ w.extractLsb' 10 2 = 0#2 then
    some (.vfminVx (w.extractLsb' 20 5) (w.extractLsb' 15 3) (w.extractLsb' 7 3))
  else if w.extractLsb' 25 7 = 5#7 ∧ w.extractLsb' 23 2 = 0#2 ∧ w.extractLsb' 18 2 = 0#2 ∧ w.extractLsb' 12 3 = 0#3 ∧ w.extractLsb' 10 2 = 0#2 then
    some (.vfmaxVv (w.extractLsb' 20 3) (w.extractLsb' 15 3) (w.extractLsb' 7 3))
  else if w.extractLsb' 25 7 = 5#7 ∧ w.extractLsb' 18 2 = 0#2 ∧ w.extractLsb' 12 3 = 1#3 ∧ w.extractLsb' 10 2 = 0#2 then
    some (.vfmaxVx (w.extractLsb' 20 5) (w.extractLsb' 15 3) (w.extractLsb' 7 3))
  else if w.extractLsb' 25 7 = 6#7 ∧ w.extractLsb' 20 5 = 0#5 ∧ w.extractLsb' 18 2 = 0#2 ∧ w.extractLsb' 12 3 = 0#3 ∧ w.extractLsb' 10 2 = 0#2 then
    some (.vfexp2 (w.extractLsb' 15 3) (w.extractLsb' 7 3))
  else if w.extractLsb' 25 7 = 7#7 ∧ w.extractLsb' 20 5 = 0#5 ∧ w.extractLsb' 18 2 = 0#2 ∧ w.extractLsb' 12 3 = 0#3 ∧ w.extractLsb' 10 2 = 0#2 then
    some (.vflog2 (w.extractLsb' 15 3) (w.extractLsb' 7 3))
  else if w.extractLsb' 25 7 = 8#7 ∧ w.extractLsb' 20 5 = 0#5 ∧ w.extractLsb' 18 2 = 0#2 ∧ w.extractLsb' 12 3 = 0#3 ∧ w.extractLsb' 10 2 = 0#2 then
    some (.vfrcp (w.extractLsb' 15 3) (w.extractLsb' 7 3))
  else if w.extractLsb' 25 7 = 9#7 ∧ w.extractLsb' 20 5 = 0#5 ∧ w.extractLsb' 18 2 = 0#2 ∧ w.extractLsb' 12 3 = 0#3 ∧ w.extractLsb' 10 2 = 0#2 then
    some (.vfrsq (w.extractLsb' 15 3) (w.extractLsb' 7 3))
  else if w.extractLsb' 25 7 = 10#7 ∧ w.extractLsb' 23 2 = 0#2 ∧ w.extractLsb' 18 2 = 0#2 ∧ w.extractLsb' 12 3 = 0#3 ∧ w.extractLsb' 10 2 = 0#2 then
    some (.vfcmpltVv (w.extractLsb' 20 3) (w.extractLsb' 15 3) (w.extractLsb' 7 3))
  else if w.extractLsb' 25 7 = 10#7 ∧ w.extractLsb' 18 2 = 0#2 ∧ w.extractLsb' 12 3 = 1#3 ∧ w.extractLsb' 10 2 = 0#2 then
    some (.vfcmpltVx (w.extractLsb' 20 5) (w.extractLsb' 15 3) (w.extractLsb' 7 3))
  else if w.extractLsb' 25 7 = 11#7 ∧ w.extractLsb' 23 2 = 0#2 ∧ w.extractLsb' 18 2 = 0#2 ∧ w.extractLsb' 12 3 = 0#3 ∧ w.extractLsb' 10 2 = 0#2 then
    some (.vfcmpeqVv (w.extractLsb' 20 3) (w.extractLsb' 15 3) (w.extractLsb' 7 3))
  else if w.extractLsb' 25 7 = 11#7 ∧ w.extractLsb' 18 2 = 0#2 ∧ w.extractLsb' 12 3 = 1#3 ∧ w.extractLsb' 10 2 = 0#2 then
    some (.vfcmpeqVx (w.extractLsb' 20 5) (w.extractLsb' 15 3) (w.extractLsb' 7 3))
  else none

/-- Major 0x1A, VMEM (R77). -/
def decodeVmem (w : IWord) : Option Instr :=
  if w.extractLsb' 25 7 = 0#7 ∧ w.extractLsb' 12 3 = 0#3 ∧ w.extractLsb' 10 2 = 0#2 then
    some (.vld (w.extractLsb' 20 5) (w.extractLsb' 15 5) (w.extractLsb' 7 3))
  else if w.extractLsb' 25 7 = 0#7 ∧ w.extractLsb' 20 5 = 0#5 ∧ w.extractLsb' 12 3 = 1#3 ∧ w.extractLsb' 10 2 = 0#2 then
    some (.vst (w.extractLsb' 15 5) (w.extractLsb' 7 3))
  else if w.extractLsb' 25 7 = 0#7 ∧ w.extractLsb' 12 3 = 2#3 ∧ w.extractLsb' 10 2 = 0#2 then
    some (.vldp (w.extractLsb' 20 5) (w.extractLsb' 15 5) (w.extractLsb' 7 3))
  else if w.extractLsb' 25 7 = 0#7 ∧ w.extractLsb' 12 3 = 3#3 ∧ w.extractLsb' 10 2 = 0#2 then
    some (.vstp (w.extractLsb' 20 5) (w.extractLsb' 15 5) (w.extractLsb' 7 3))
  else none

/-- Major 0x1B, VCVT (R77). -/
def decodeVcvt (w : IWord) : Option Instr :=
  if w.extractLsb' 20 5 = 0#5 ∧ w.extractLsb' 18 2 = 0#2 ∧ w.extractLsb' 12 3 = 0#3 ∧ w.extractLsb' 10 2 = 0#2 then
    some (.vcvt (w.extractLsb' 29 3) (w.extractLsb' 25 4) (w.extractLsb' 15 3) (w.extractLsb' 7 3))
  else if w.extractLsb' 20 5 = 0#5 ∧ w.extractLsb' 18 2 = 0#2 ∧ w.extractLsb' 12 3 = 1#3 ∧ w.extractLsb' 10 2 = 0#2 then
    some (.vsplit (w.extractLsb' 29 3) (w.extractLsb' 25 4) (w.extractLsb' 15 3) (w.extractLsb' 7 3))
  else if w.extractLsb' 25 7 = 0#7 ∧ w.extractLsb' 18 2 = 0#2 ∧ w.extractLsb' 12 3 = 2#3 ∧ w.extractLsb' 10 2 = 0#2 then
    some (.vscale (w.extractLsb' 20 5) (w.extractLsb' 15 3) (w.extractLsb' 7 3))
  else if w.extractLsb' 25 7 = 0#7 ∧ w.extractLsb' 20 5 = 0#5 ∧ w.extractLsb' 12 3 = 3#3 ∧ w.extractLsb' 10 2 = 0#2 then
    some (.vtag (w.extractLsb' 15 5) (w.extractLsb' 7 3))
  else none

/-- Major 0x1C, VRED (R77). -/
def decodeVred (w : IWord) : Option Instr :=
  if w.extractLsb' 25 7 = 0#7 ∧ w.extractLsb' 20 5 = 0#5 ∧ w.extractLsb' 18 2 = 0#2 ∧ w.extractLsb' 12 3 = 0#3 ∧ w.extractLsb' 10 2 = 0#2 then
    some (.vrsumRow (w.extractLsb' 15 3) (w.extractLsb' 7 3))
  else if w.extractLsb' 25 7 = 1#7 ∧ w.extractLsb' 20 5 = 0#5 ∧ w.extractLsb' 18 2 = 0#2 ∧ w.extractLsb' 12 3 = 0#3 ∧ w.extractLsb' 10 2 = 0#2 then
    some (.vrsumCol (w.extractLsb' 15 3) (w.extractLsb' 7 3))
  else if w.extractLsb' 25 7 = 0#7 ∧ w.extractLsb' 20 5 = 0#5 ∧ w.extractLsb' 18 2 = 0#2 ∧ w.extractLsb' 12 3 = 1#3 ∧ w.extractLsb' 10 2 = 0#2 then
    some (.vrmaxRow (w.extractLsb' 15 3) (w.extractLsb' 7 3))
  else if w.extractLsb' 25 7 = 1#7 ∧ w.extractLsb' 20 5 = 0#5 ∧ w.extractLsb' 18 2 = 0#2 ∧ w.extractLsb' 12 3 = 1#3 ∧ w.extractLsb' 10 2 = 0#2 then
    some (.vrmaxCol (w.extractLsb' 15 3) (w.extractLsb' 7 3))
  else if w.extractLsb' 25 7 = 0#7 ∧ w.extractLsb' 20 5 = 0#5 ∧ w.extractLsb' 18 2 = 0#2 ∧ w.extractLsb' 12 3 = 2#3 ∧ w.extractLsb' 10 2 = 0#2 then
    some (.vrminRow (w.extractLsb' 15 3) (w.extractLsb' 7 3))
  else if w.extractLsb' 25 7 = 1#7 ∧ w.extractLsb' 20 5 = 0#5 ∧ w.extractLsb' 18 2 = 0#2 ∧ w.extractLsb' 12 3 = 2#3 ∧ w.extractLsb' 10 2 = 0#2 then
    some (.vrminCol (w.extractLsb' 15 3) (w.extractLsb' 7 3))
  else if w.extractLsb' 25 7 = 0#7 ∧ w.extractLsb' 20 5 = 0#5 ∧ w.extractLsb' 18 2 = 0#2 ∧ w.extractLsb' 12 3 = 3#3 ∧ w.extractLsb' 10 2 = 0#2 then
    some (.vscanRow (w.extractLsb' 15 3) (w.extractLsb' 7 3))
  else if w.extractLsb' 25 7 = 1#7 ∧ w.extractLsb' 20 5 = 0#5 ∧ w.extractLsb' 18 2 = 0#2 ∧ w.extractLsb' 12 3 = 3#3 ∧ w.extractLsb' 10 2 = 0#2 then
    some (.vscanCol (w.extractLsb' 15 3) (w.extractLsb' 7 3))
  else none

/-- Major 0x1D, VMISC (R77). -/
def decodeVmisc (w : IWord) : Option Instr :=
  if w.extractLsb' 25 7 = 0#7 ∧ w.extractLsb' 20 5 = 0#5 ∧ w.extractLsb' 12 3 = 0#3 ∧ w.extractLsb' 7 5 = 0#5 then
    some (.vshape (w.extractLsb' 15 5))
  else if w.extractLsb' 25 7 = 0#7 ∧ w.extractLsb' 20 5 = 0#5 ∧ w.extractLsb' 18 2 = 0#2 ∧ w.extractLsb' 12 3 = 1#3 ∧ w.extractLsb' 10 2 = 0#2 then
    some (.vmov (w.extractLsb' 15 3) (w.extractLsb' 7 3))
  else if w.extractLsb' 25 7 = 0#7 ∧ w.extractLsb' 18 2 = 0#2 ∧ w.extractLsb' 12 3 = 2#3 ∧ w.extractLsb' 10 2 = 0#2 then
    some (.vbcr (w.extractLsb' 20 5) (w.extractLsb' 15 3) (w.extractLsb' 7 3))
  else if w.extractLsb' 25 7 = 0#7 ∧ w.extractLsb' 18 2 = 0#2 ∧ w.extractLsb' 12 3 = 3#3 ∧ w.extractLsb' 10 2 = 0#2 then
    some (.vbcc (w.extractLsb' 20 5) (w.extractLsb' 15 3) (w.extractLsb' 7 3))
  else if w.extractLsb' 25 7 = 0#7 ∧ w.extractLsb' 20 5 = 0#5 ∧ w.extractLsb' 18 2 = 0#2 ∧ w.extractLsb' 12 3 = 4#3 ∧ w.extractLsb' 10 2 = 0#2 then
    some (.vtrn (w.extractLsb' 15 3) (w.extractLsb' 7 3))
  else if w.extractLsb' 25 7 = 0#7 ∧ w.extractLsb' 12 3 = 5#3 ∧ w.extractLsb' 10 2 = 0#2 then
    some (.vins (w.extractLsb' 20 5) (w.extractLsb' 15 5) (w.extractLsb' 7 3))
  else if w.extractLsb' 25 7 = 0#7 ∧ w.extractLsb' 18 2 = 0#2 ∧ w.extractLsb' 12 3 = 6#3 then
    some (.vext (w.extractLsb' 20 5) (w.extractLsb' 15 3) (w.extractLsb' 7 5))
  else none

/-- Major 0x1E, MTX (R77). -/
def decodeMtx (w : IWord) : Option Instr :=
  if w.extractLsb' 27 5 = 0#5 ∧ w.extractLsb' 15 5 = 0#5 ∧ w.extractLsb' 12 3 = 0#3 then
    some (.mldb (w.extractLsb' 25 2) (w.extractLsb' 22 3) (w.extractLsb' 20 2) (w.extractLsb' 7 5))
  else if w.extractLsb' 29 3 = 0#3 ∧ w.extractLsb' 15 5 = 0#5 ∧ w.extractLsb' 12 3 = 1#3 then
    some (.mmul (w.extractLsb' 27 2) (w.extractLsb' 25 2) (w.extractLsb' 22 3) (w.extractLsb' 20 2) (w.extractLsb' 7 5))
  else if w.extractLsb' 29 3 = 0#3 ∧ w.extractLsb' 15 5 = 0#5 ∧ w.extractLsb' 12 3 = 2#3 then
    some (.mmrot (w.extractLsb' 27 2) (w.extractLsb' 25 2) (w.extractLsb' 22 3) (w.extractLsb' 20 2) (w.extractLsb' 7 5))
  else if w.extractLsb' 25 2 = 0#2 ∧ w.extractLsb' 29 3 = 0#3 ∧ w.extractLsb' 15 5 = 0#5 ∧ w.extractLsb' 12 3 = 3#3 then
    some (.mdrain (w.extractLsb' 27 2) (w.extractLsb' 22 3) (w.extractLsb' 20 2) (w.extractLsb' 7 5))
  else if w.extractLsb' 25 2 = 0#2 ∧ w.extractLsb' 29 3 = 0#3 ∧ w.extractLsb' 15 5 = 0#5 ∧ w.extractLsb' 12 3 = 4#3 then
    some (.mzero (w.extractLsb' 27 2) (w.extractLsb' 22 3) (w.extractLsb' 20 2) (w.extractLsb' 7 5))
  else if w.extractLsb' 25 7 = 0#7 ∧ w.extractLsb' 20 5 = 0#5 ∧ w.extractLsb' 15 5 = 0#5 ∧ w.extractLsb' 12 3 = 5#3 ∧ w.extractLsb' 7 5 = 0#5 then
    some .mwait
  else if w.extractLsb' 25 7 = 0#7 ∧ w.extractLsb' 20 5 = 0#5 ∧ w.extractLsb' 15 5 = 0#5 ∧ w.extractLsb' 12 3 = 6#3 then
    some (.mstat (w.extractLsb' 7 5))
  else none

/-- Major 0x1F, CPY (R77). -/
def decodeCpy (w : IWord) : Option Instr :=
  if w.extractLsb' 25 7 = 0#7 ∧ w.extractLsb' 15 5 = 0#5 ∧ w.extractLsb' 12 3 = 0#3 then
    some (.cpy (w.extractLsb' 22 3) (w.extractLsb' 20 2) (w.extractLsb' 7 5))
  else if w.extractLsb' 25 7 = 0#7 ∧ w.extractLsb' 15 5 = 0#5 ∧ w.extractLsb' 12 3 = 1#3 then
    some (.cpyx (w.extractLsb' 22 3) (w.extractLsb' 20 2) (w.extractLsb' 7 5))
  else if w.extractLsb' 25 7 = 0#7 ∧ w.extractLsb' 20 5 = 0#5 ∧ w.extractLsb' 12 3 = 2#3 ∧ w.extractLsb' 7 5 = 0#5 then
    some (.cpyw (w.extractLsb' 15 5))
  else if w.extractLsb' 25 7 = 0#7 ∧ w.extractLsb' 20 5 = 0#5 ∧ w.extractLsb' 15 5 = 0#5 ∧ w.extractLsb' 12 3 = 3#3 then
    some (.cpyq (w.extractLsb' 7 5))
  else none

/-- Major 0x20, MAP (R77). -/
def decodeMap (w : IWord) : Option Instr :=
  if w.extractLsb' 31 1 = 0#1 ∧ w.extractLsb' 12 3 = 0#3 then
    some (.map (w.extractLsb' 25 6) (w.extractLsb' 20 5) (w.extractLsb' 15 5) (w.extractLsb' 7 5))
  else if w.extractLsb' 31 1 = 0#1 ∧ w.extractLsb' 12 3 = 1#3 then
    some (.grant (w.extractLsb' 25 6) (w.extractLsb' 20 5) (w.extractLsb' 15 5) (w.extractLsb' 7 5))
  else if w.extractLsb' 25 7 = 0#7 ∧ w.extractLsb' 20 5 = 0#5 ∧ w.extractLsb' 12 3 = 2#3 then
    some (.unmap (w.extractLsb' 15 5) (w.extractLsb' 7 5))
  else if w.extractLsb' 25 7 = 0#7 ∧ w.extractLsb' 20 5 = 0#5 ∧ w.extractLsb' 12 3 = 3#3 then
    some (.mquery (w.extractLsb' 15 5) (w.extractLsb' 7 5))
  else if w.extractLsb' 25 7 = 0#7 ∧ w.extractLsb' 20 5 = 0#5 ∧ w.extractLsb' 12 3 = 4#3 ∧ w.extractLsb' 7 5 = 0#5 then
    some (.release (w.extractLsb' 15 5))
  else if w.extractLsb' 25 7 = 0#7 ∧ w.extractLsb' 20 5 = 0#5 ∧ w.extractLsb' 12 3 = 5#3 then
    some (.accept (w.extractLsb' 15 5) (w.extractLsb' 7 5))
  else none

/-- Major 0x21, SYS (R77). -/
def decodeSys (w : IWord) : Option Instr :=
  if w.extractLsb' 15 5 = 0#5 ∧ w.extractLsb' 12 3 = 0#3 then
    some (.csrr (w.extractLsb' 20 12) (w.extractLsb' 7 5))
  else if w.extractLsb' 12 3 = 1#3 then
    some (.csrw (w.extractLsb' 20 12) (w.extractLsb' 15 5) (w.extractLsb' 7 5))
  else if w.extractLsb' 12 3 = 2#3 then
    some (.csrs (w.extractLsb' 20 12) (w.extractLsb' 15 5) (w.extractLsb' 7 5))
  else if w.extractLsb' 12 3 = 3#3 then
    some (.csrc (w.extractLsb' 20 12) (w.extractLsb' 15 5) (w.extractLsb' 7 5))
  else if w.extractLsb' 25 7 = 0#7 ∧ w.extractLsb' 20 5 = 0#5 ∧ w.extractLsb' 12 3 = 4#3 ∧ w.extractLsb' 7 5 = 0#5 then
    some (.trap (w.extractLsb' 15 5))
  else if w.extractLsb' 25 7 = 1#7 ∧ w.extractLsb' 20 5 = 0#5 ∧ w.extractLsb' 15 5 = 0#5 ∧ w.extractLsb' 12 3 = 4#3 ∧ w.extractLsb' 7 5 = 0#5 then
    some .eret
  else if w.extractLsb' 25 7 = 2#7 ∧ w.extractLsb' 20 5 = 0#5 ∧ w.extractLsb' 15 5 = 0#5 ∧ w.extractLsb' 12 3 = 4#3 then
    some (.checkerr (w.extractLsb' 7 5))
  else if w.extractLsb' 25 7 = 3#7 ∧ w.extractLsb' 20 5 = 0#5 ∧ w.extractLsb' 15 5 = 0#5 ∧ w.extractLsb' 12 3 = 4#3 ∧ w.extractLsb' 7 5 = 0#5 then
    some .brkpt
  else if w.extractLsb' 25 7 = 4#7 ∧ w.extractLsb' 20 5 = 0#5 ∧ w.extractLsb' 12 3 = 4#3 ∧ w.extractLsb' 7 5 = 0#5 then
    some (.trace (w.extractLsb' 15 5))
  else if w.extractLsb' 25 7 = 5#7 ∧ w.extractLsb' 20 5 = 0#5 ∧ w.extractLsb' 15 5 = 0#5 ∧ w.extractLsb' 12 3 = 4#3 ∧ w.extractLsb' 7 5 = 0#5 then
    some .pair
  else if w.extractLsb' 25 7 = 6#7 ∧ w.extractLsb' 20 5 = 0#5 ∧ w.extractLsb' 15 5 = 0#5 ∧ w.extractLsb' 12 3 = 4#3 ∧ w.extractLsb' 7 5 = 0#5 then
    some .unpair
  else if w.extractLsb' 25 7 = 7#7 ∧ w.extractLsb' 20 5 = 0#5 ∧ w.extractLsb' 15 5 = 0#5 ∧ w.extractLsb' 12 3 = 4#3 ∧ w.extractLsb' 7 5 = 0#5 then
    some .wfe
  else none

/-- Major 0x22, SEC (R77). -/
def decodeSec (w : IWord) : Option Instr :=
  if w.extractLsb' 25 7 = 0#7 ∧ w.extractLsb' 20 5 = 0#5 ∧ w.extractLsb' 12 3 = 0#3 then
    some (.gate (w.extractLsb' 15 5) (w.extractLsb' 7 5))
  else if w.extractLsb' 25 7 = 0#7 ∧ w.extractLsb' 20 5 = 0#5 ∧ w.extractLsb' 12 3 = 1#3 then
    some (.gstat (w.extractLsb' 15 5) (w.extractLsb' 7 5))
  else none

/-- The majors that R77 assigns. -/
def majorAssigned (m : Nat) : Bool :=
  m ≠ 0 && m ≠ 3 && m ≤ 0x22

/-- The instruction of a 32-bit word, where one is assigned (R70, R77). -/
def decode32? (w : IWord) : Option Instr :=
  match (w.extractLsb' 0 7).toNat with
  | 0x03 => decodeOpr w
  | 0x05 => decodeOpi w
  | 0x09 => decodeLui w
  | 0x0B => decodeAuipc w
  | 0x0D => decodeBr w
  | 0x0F => decodeJal w
  | 0x11 => decodeJalr w
  | 0x13 => decodeLoad w
  | 0x15 => decodeStore w
  | 0x17 => decodeLdfe w
  | 0x19 => decodeAmo w
  | 0x1B => decodeMemctl w
  | 0x1D => decodeMuldiv w
  | 0x1F => decodeBits w
  | 0x21 => decodeExt w
  | 0x23 => decodeQueue w
  | 0x25 => decodeLoop w
  | 0x27 => decodeMsg w
  | 0x29 => decodeAct w
  | 0x2B => decodeGrp w
  | 0x2D => decodeBar w
  | 0x2F => decodeMta w
  | 0x31 => decodeValu w
  | 0x33 => decodeVfp w
  | 0x35 => decodeVmem w
  | 0x37 => decodeVcvt w
  | 0x39 => decodeVred w
  | 0x3B => decodeVmisc w
  | 0x3D => decodeMtx w
  | 0x3F => decodeCpy w
  | 0x41 => decodeMap w
  | 0x43 => decodeSys w
  | 0x45 => decodeSec w
  | _ => none

/-- The instruction of a halfword, where one is assigned (R85, R86). -/
def decode16? (w : Half) : Option Instr :=
  if w = 0#16 then none
  else if w.extractLsb' 0 4 = 0#4 ∧ w.extractLsb' 15 1 = 0#1 then
    some (.cAddi (w.extractLsb' 10 5) (w.extractLsb' 4 6))
  else if w.extractLsb' 0 4 = 0#4 ∧ w.extractLsb' 15 1 = 1#1 then
    some (.cLi (w.extractLsb' 10 5) (w.extractLsb' 4 6))
  else if w.extractLsb' 0 4 = 2#4 ∧ w.extractLsb' 14 2 = 0#2 then
    some (.cMv (w.extractLsb' 9 5) (w.extractLsb' 4 5))
  else if w.extractLsb' 0 4 = 2#4 ∧ w.extractLsb' 14 2 = 1#2 then
    some (.cAdd (w.extractLsb' 9 5) (w.extractLsb' 4 5))
  else if w.extractLsb' 0 4 = 2#4 ∧ w.extractLsb' 14 2 = 2#2 then
    some (.cSub (w.extractLsb' 9 5) (w.extractLsb' 4 5))
  else if w.extractLsb' 0 4 = 2#4 ∧ w.extractLsb' 14 2 = 3#2 then
    some (.cAnd (w.extractLsb' 9 5) (w.extractLsb' 4 5))
  else if w.extractLsb' 0 4 = 4#4 then
    some (.cLd (w.extractLsb' 10 6) (w.extractLsb' 7 3) (w.extractLsb' 4 3))
  else if w.extractLsb' 0 4 = 6#4 then
    some (.cSd (w.extractLsb' 10 6) (w.extractLsb' 7 3) (w.extractLsb' 4 3))
  else if w.extractLsb' 0 4 = 8#4 ∧ w.extractLsb' 15 1 = 0#1 then
    some (.cBeqz (w.extractLsb' 12 3) (w.extractLsb' 4 8))
  else if w.extractLsb' 0 4 = 8#4 ∧ w.extractLsb' 15 1 = 1#1 then
    some (.cBnez (w.extractLsb' 12 3) (w.extractLsb' 4 8))
  else if w.extractLsb' 0 4 = 10#4 then
    some (.cJ (w.extractLsb' 4 12))
  else if w.extractLsb' 0 7 = 12#7 ∧ w.extractLsb' 15 1 = 0#1 then
    some (.cQput (w.extractLsb' 12 3) (w.extractLsb' 7 5))
  else if w.extractLsb' 0 7 = 12#7 ∧ w.extractLsb' 15 1 = 1#1 then
    some (.cQget (w.extractLsb' 12 3) (w.extractLsb' 7 5))
  else if w.extractLsb' 0 16 = 14#16 then
    some .cNop
  else if w.extractLsb' 0 16 = 16398#16 then
    some .cEnd
  else if w.extractLsb' 0 16 = 32782#16 then
    some .cStop
  else if w.extractLsb' 0 16 = 49166#16 then
    some .cBrk
  else none

/-- A 32-bit word read, or rejected by name. -/
def decode32 (w : IWord) : Except DecodeError Instr :=
  match decode32? w with
  | some i => .ok i
  | none =>
    if majorAssigned (w.extractLsb' 1 6).toNat then .error (.reservedFunction w) else .error (.reservedMajor w)

/-- A halfword read, or rejected by name. -/
def decode16 (h : Half) : Except DecodeError Instr :=
  match decode16? h with
  | some i => .ok i
  | none => .error (.reservedHalf h)

/-- Bit 0 of the first halfword tells the length (R67): true for a 32-bit instruction. -/
def isLong (h : Half) : Bool := h.getLsbD 0

/-- The first instruction of a byte stream and the rest of the bytes: halfwords are little-endian (R3, R67). -/
def decode : List Byte → Except DecodeError (Instr × List Byte)
  | b0 :: b1 :: rest =>
    let h : Half := b1 ++ b0
    if isLong h then
      match rest with
      | b2 :: b3 :: rest' =>
        match decode32 (b3 ++ b2 ++ b1 ++ b0) with
        | .ok i => .ok (i, rest')
        | .error e => .error e
      | _ => .error .truncated
    else
      match decode16 h with
      | .ok i => .ok (i, rest)
      | .error e => .error e
  | _ => .error .truncated

/-- The instruction read from bits `w` of a row of `nbits` bits, laid out as the stream stores them. -/
def decodeTableWord (nbits w : Nat) : Option Instr :=
  let v : IWord := BitVec.ofNat 32 (w % 2 ^ nbits)
  let bytes := [v.extractLsb' 0 8, v.extractLsb' 8 8, v.extractLsb' 16 8, v.extractLsb' 24 8]
  match decode bytes with
  | .ok (i, _) => some i
  | .error _ => none

/-! ## The encoder -/

/-- The bits of an instruction: a word, a halfword, or none (a device step has no encoding). -/
inductive Enc where
  | word (w : IWord)
  | half (h : Half)
  | none
  deriving DecidableEq, Repr

/-- The R shape every 32-bit format shares (R70): F7, B, A, F3, D, MAJOR and bit 0. -/
def rShape (f7 : BitVec 7) (b a : BitVec 5) (f3 : BitVec 3) (d : BitVec 5) (m : BitVec 7) : IWord :=
  f7 ++ b ++ a ++ f3 ++ d ++ m

/-- The encoding of an instruction (R70-R72, R77-R81, R85). -/
def encode : Instr → Enc
  | .add b a d => .word (rShape 0#7 b a 0#3 d 3#7)
  | .sub b a d => .word (rShape 0#7 b a 1#3 d 3#7)
  | .sll b a d => .word (rShape 0#7 b a 2#3 d 3#7)
  | .slt b a d => .word (rShape 0#7 b a 3#3 d 3#7)
  | .sltu b a d => .word (rShape 0#7 b a 4#3 d 3#7)
  | .xor b a d => .word (rShape 0#7 b a 5#3 d 3#7)
  | .srl b a d => .word (rShape 0#7 b a 6#3 d 3#7)
  | .sra b a d => .word (rShape 0#7 b a 7#3 d 3#7)
  | .and b a d => .word (rShape 1#7 b a 0#3 d 3#7)
  | .or b a d => .word (rShape 1#7 b a 1#3 d 3#7)
  | .andn b a d => .word (rShape 1#7 b a 2#3 d 3#7)
  | .orn b a d => .word (rShape 1#7 b a 3#3 d 3#7)
  | .xnor b a d => .word (rShape 1#7 b a 4#3 d 3#7)
  | .addi i a d => .word (rShape (i.extractLsb' 5 7) (i.extractLsb' 0 5) a 0#3 d 5#7)
  | .slli h a d => .word (rShape (0#6 ++ (h.extractLsb' 5 1)) (h.extractLsb' 0 5) a 1#3 d 5#7)
  | .slti i a d => .word (rShape (i.extractLsb' 5 7) (i.extractLsb' 0 5) a 2#3 d 5#7)
  | .sltiu i a d => .word (rShape (i.extractLsb' 5 7) (i.extractLsb' 0 5) a 3#3 d 5#7)
  | .xori i a d => .word (rShape (i.extractLsb' 5 7) (i.extractLsb' 0 5) a 4#3 d 5#7)
  | .srli h a d => .word (rShape (0#6 ++ (h.extractLsb' 5 1)) (h.extractLsb' 0 5) a 5#3 d 5#7)
  | .srai h a d => .word (rShape (1#6 ++ (h.extractLsb' 5 1)) (h.extractLsb' 0 5) a 5#3 d 5#7)
  | .ori i a d => .word (rShape (i.extractLsb' 5 7) (i.extractLsb' 0 5) a 6#3 d 5#7)
  | .andi i a d => .word (rShape (i.extractLsb' 5 7) (i.extractLsb' 0 5) a 7#3 d 5#7)
  | .lui i d => .word (rShape (i.extractLsb' 13 7) (i.extractLsb' 8 5) (i.extractLsb' 3 5) (i.extractLsb' 0 3) d 9#7)
  | .auipc i d => .word (rShape (i.extractLsb' 13 7) (i.extractLsb' 8 5) (i.extractLsb' 3 5) (i.extractLsb' 0 3) d 11#7)
  | .mul b a d => .word (rShape 0#7 b a 0#3 d 29#7)
  | .mulh b a d => .word (rShape 0#7 b a 1#3 d 29#7)
  | .mulhsu b a d => .word (rShape 0#7 b a 2#3 d 29#7)
  | .mulhu b a d => .word (rShape 0#7 b a 3#3 d 29#7)
  | .div b a d => .word (rShape 0#7 b a 4#3 d 29#7)
  | .divu b a d => .word (rShape 0#7 b a 5#3 d 29#7)
  | .rem b a d => .word (rShape 0#7 b a 6#3 d 29#7)
  | .remu b a d => .word (rShape 0#7 b a 7#3 d 29#7)
  | .min b a d => .word (rShape 0#7 b a 0#3 d 31#7)
  | .max b a d => .word (rShape 0#7 b a 1#3 d 31#7)
  | .minu b a d => .word (rShape 0#7 b a 2#3 d 31#7)
  | .maxu b a d => .word (rShape 0#7 b a 3#3 d 31#7)
  | .clz a d => .word (rShape 0#7 0#5 a 4#3 d 31#7)
  | .ctz a d => .word (rShape 0#7 0#5 a 5#3 d 31#7)
  | .popc a d => .word (rShape 0#7 0#5 a 6#3 d 31#7)
  | .brev a d => .word (rShape 0#7 0#5 a 7#3 d 31#7)
  | .beq i b a => .word (rShape (i.extractLsb' 5 7) b a 0#3 (i.extractLsb' 0 5) 13#7)
  | .bne i b a => .word (rShape (i.extractLsb' 5 7) b a 1#3 (i.extractLsb' 0 5) 13#7)
  | .blt i b a => .word (rShape (i.extractLsb' 5 7) b a 2#3 (i.extractLsb' 0 5) 13#7)
  | .bge i b a => .word (rShape (i.extractLsb' 5 7) b a 3#3 (i.extractLsb' 0 5) 13#7)
  | .bltu i b a => .word (rShape (i.extractLsb' 5 7) b a 4#3 (i.extractLsb' 0 5) 13#7)
  | .bgeu i b a => .word (rShape (i.extractLsb' 5 7) b a 5#3 (i.extractLsb' 0 5) 13#7)
  | .jal i d => .word (rShape (i.extractLsb' 13 7) (i.extractLsb' 8 5) (i.extractLsb' 3 5) (i.extractLsb' 0 3) d 15#7)
  | .jalr i a d => .word (rShape (i.extractLsb' 5 7) (i.extractLsb' 0 5) a 0#3 d 17#7)
  | .lb i a d => .word (rShape (i.extractLsb' 5 7) (i.extractLsb' 0 5) a 0#3 d 19#7)
  | .lh i a d => .word (rShape (i.extractLsb' 5 7) (i.extractLsb' 0 5) a 1#3 d 19#7)
  | .lw i a d => .word (rShape (i.extractLsb' 5 7) (i.extractLsb' 0 5) a 2#3 d 19#7)
  | .ld i a d => .word (rShape (i.extractLsb' 5 7) (i.extractLsb' 0 5) a 3#3 d 19#7)
  | .lbu i a d => .word (rShape (i.extractLsb' 5 7) (i.extractLsb' 0 5) a 4#3 d 19#7)
  | .lhu i a d => .word (rShape (i.extractLsb' 5 7) (i.extractLsb' 0 5) a 5#3 d 19#7)
  | .lwu i a d => .word (rShape (i.extractLsb' 5 7) (i.extractLsb' 0 5) a 6#3 d 19#7)
  | .sb i b a => .word (rShape (i.extractLsb' 5 7) b a 0#3 (i.extractLsb' 0 5) 21#7)
  | .sh i b a => .word (rShape (i.extractLsb' 5 7) b a 1#3 (i.extractLsb' 0 5) 21#7)
  | .sw i b a => .word (rShape (i.extractLsb' 5 7) b a 2#3 (i.extractLsb' 0 5) 21#7)
  | .sd i b a => .word (rShape (i.extractLsb' 5 7) b a 3#3 (i.extractLsb' 0 5) 21#7)
  | .swf i b a => .word (rShape (i.extractLsb' 5 7) b a 4#3 (i.extractLsb' 0 5) 21#7)
  | .sdf i b a => .word (rShape (i.extractLsb' 5 7) b a 5#3 (i.extractLsb' 0 5) 21#7)
  | .lwf i a d => .word (rShape (i.extractLsb' 5 7) (i.extractLsb' 0 5) a 0#3 d 23#7)
  | .ldf i a d => .word (rShape (i.extractLsb' 5 7) (i.extractLsb' 0 5) a 1#3 d 23#7)
  | .lwfc i a d => .word (rShape (i.extractLsb' 5 7) (i.extractLsb' 0 5) a 2#3 d 23#7)
  | .ldfc i a d => .word (rShape (i.extractLsb' 5 7) (i.extractLsb' 0 5) a 3#3 d 23#7)
  | .amoadd z r b a s d => .word (rShape (0#4 ++ z ++ r) b a s d 25#7)
  | .amoswap z r b a s d => .word (rShape (1#4 ++ z ++ r) b a s d 25#7)
  | .amoand z r b a s d => .word (rShape (2#4 ++ z ++ r) b a s d 25#7)
  | .amoor z r b a s d => .word (rShape (3#4 ++ z ++ r) b a s d 25#7)
  | .amoxor z r b a s d => .word (rShape (4#4 ++ z ++ r) b a s d 25#7)
  | .amomin z r b a s d => .word (rShape (5#4 ++ z ++ r) b a s d 25#7)
  | .amomax z r b a s d => .word (rShape (6#4 ++ z ++ r) b a s d 25#7)
  | .amominu z r b a s d => .word (rShape (7#4 ++ z ++ r) b a s d 25#7)
  | .amomaxu z r b a s d => .word (rShape (8#4 ++ z ++ r) b a s d 25#7)
  | .amocas z r b a s d => .word (rShape (9#4 ++ z ++ r) b a s d 25#7)
  | .fence s k => .word (rShape (0#5 ++ (s.extractLsb' 1 2)) ((s.extractLsb' 0 1) ++ k) 0#5 0#3 0#5 27#7)
  | .discard i a => .word (rShape (i.extractLsb' 5 7) (i.extractLsb' 0 5) a 1#3 0#5 27#7)
  | .lastuse i a => .word (rShape (i.extractLsb' 5 7) (i.extractLsb' 0 5) a 2#3 0#5 27#7)
  | .prefetch i a => .word (rShape (i.extractLsb' 5 7) (i.extractLsb' 0 5) a 3#3 0#5 27#7)
  | .flushl i a => .word (rShape (i.extractLsb' 5 7) (i.extractLsb' 0 5) a 4#3 0#5 27#7)
  | .sete a d => .word (rShape 0#7 0#5 a 0#3 d 33#7)
  | .setei i d => .word (rShape (i.extractLsb' 5 7) (i.extractLsb' 0 5) 0#5 1#3 d 33#7)
  | .gete a d => .word (rShape 0#7 0#5 a 2#3 d 33#7)
  | .geteI n d => .word (rShape 0#7 0#5 (2#3 ++ n) 2#3 d 33#7)
  | .qput b a q => .word (rShape 0#7 b a 0#3 q 35#7)
  | .qget b q d => .word (rShape 0#7 b q 1#3 d 35#7)
  | .qpeek q d => .word (rShape 0#7 0#5 q 2#3 d 35#7)
  | .qcnt q d => .word (rShape 0#7 0#5 q 3#3 d 35#7)
  | .nest b a => .word (rShape 0#7 b a 0#3 0#5 37#7)
  | .loop i a => .word (rShape (i.extractLsb' 5 7) (i.extractLsb' 0 5) a 1#3 0#5 37#7)
  | .nestq a d => .word (rShape 0#7 0#5 a 2#3 d 37#7)
  | .send b a => .word (rShape 0#7 b a 0#3 0#5 39#7)
  | .sendg b a => .word (rShape 0#7 b a 1#3 0#5 39#7)
  | .sendf b a => .word (rShape 0#7 b a 2#3 0#5 39#7)
  | .mld a d => .word (rShape 0#7 0#5 a 3#3 d 39#7)
  | .mlen d => .word (rShape 0#7 0#5 0#5 4#3 d 39#7)
  | .mhdr a d => .word (rShape 0#7 0#5 a 5#3 d 39#7)
  | .endAct => .word (rShape 0#7 0#5 0#5 0#3 0#5 41#7)
  | .endx => .word (rShape 0#7 0#5 0#5 1#3 0#5 41#7)
  | .grank a d => .word (rShape 0#7 0#5 a 0#3 d 43#7)
  | .gsize a d => .word (rShape 0#7 0#5 a 1#3 d 43#7)
  | .gmemb b a d => .word (rShape 0#7 b a 2#3 d 43#7)
  | .barm s o b a => .word (rShape (0#1 ++ s ++ o) b a 0#3 0#5 45#7)
  | .barv b a => .word (rShape 0#7 b a 1#3 0#5 45#7)
  | .barw a d => .word (rShape 0#7 0#5 a 2#3 d 45#7)
  | .barx a => .word (rShape 0#7 0#5 a 3#3 0#5 45#7)
  | .barq a d => .word (rShape 0#7 0#5 a 4#3 d 45#7)
  | .bcast n a => .word (rShape 0#7 (0#1 ++ n) a 0#3 0#5 47#7)
  | .bfetch i a => .word (rShape (i.extractLsb' 5 7) (i.extractLsb' 0 5) a 1#3 0#5 47#7)
  | .stop => .word (rShape 0#7 0#5 0#5 2#3 0#5 47#7)
  | .mtwait a => .word (rShape 0#7 0#5 a 3#3 0#5 47#7)
  | .mtstat d => .word (rShape 0#7 0#5 0#5 4#3 d 47#7)
  | .mtrst a => .word (rShape 0#7 0#5 a 5#3 0#5 47#7)
  | .vaddVv b a d => .word (rShape 0#7 (0#2 ++ b) (0#2 ++ a) 0#3 (0#2 ++ d) 49#7)
  | .vaddVx b a d => .word (rShape 0#7 b (0#2 ++ a) 1#3 (0#2 ++ d) 49#7)
  | .vaddVi i a d => .word (rShape 0#7 i (0#2 ++ a) 2#3 (0#2 ++ d) 49#7)
  | .vsubVv b a d => .word (rShape 1#7 (0#2 ++ b) (0#2 ++ a) 0#3 (0#2 ++ d) 49#7)
  | .vsubVx b a d => .word (rShape 1#7 b (0#2 ++ a) 1#3 (0#2 ++ d) 49#7)
  | .vsubVi i a d => .word (rShape 1#7 i (0#2 ++ a) 2#3 (0#2 ++ d) 49#7)
  | .vmulVv b a d => .word (rShape 2#7 (0#2 ++ b) (0#2 ++ a) 0#3 (0#2 ++ d) 49#7)
  | .vmulVx b a d => .word (rShape 2#7 b (0#2 ++ a) 1#3 (0#2 ++ d) 49#7)
  | .vmulVi i a d => .word (rShape 2#7 i (0#2 ++ a) 2#3 (0#2 ++ d) 49#7)
  | .vminVv b a d => .word (rShape 3#7 (0#2 ++ b) (0#2 ++ a) 0#3 (0#2 ++ d) 49#7)
  | .vminVx b a d => .word (rShape 3#7 b (0#2 ++ a) 1#3 (0#2 ++ d) 49#7)
  | .vminVi i a d => .word (rShape 3#7 i (0#2 ++ a) 2#3 (0#2 ++ d) 49#7)
  | .vmaxVv b a d => .word (rShape 4#7 (0#2 ++ b) (0#2 ++ a) 0#3 (0#2 ++ d) 49#7)
  | .vmaxVx b a d => .word (rShape 4#7 b (0#2 ++ a) 1#3 (0#2 ++ d) 49#7)
  | .vmaxVi i a d => .word (rShape 4#7 i (0#2 ++ a) 2#3 (0#2 ++ d) 49#7)
  | .vandVv b a d => .word (rShape 5#7 (0#2 ++ b) (0#2 ++ a) 0#3 (0#2 ++ d) 49#7)
  | .vandVx b a d => .word (rShape 5#7 b (0#2 ++ a) 1#3 (0#2 ++ d) 49#7)
  | .vandVi i a d => .word (rShape 5#7 i (0#2 ++ a) 2#3 (0#2 ++ d) 49#7)
  | .vorVv b a d => .word (rShape 6#7 (0#2 ++ b) (0#2 ++ a) 0#3 (0#2 ++ d) 49#7)
  | .vorVx b a d => .word (rShape 6#7 b (0#2 ++ a) 1#3 (0#2 ++ d) 49#7)
  | .vorVi i a d => .word (rShape 6#7 i (0#2 ++ a) 2#3 (0#2 ++ d) 49#7)
  | .vxorVv b a d => .word (rShape 7#7 (0#2 ++ b) (0#2 ++ a) 0#3 (0#2 ++ d) 49#7)
  | .vxorVx b a d => .word (rShape 7#7 b (0#2 ++ a) 1#3 (0#2 ++ d) 49#7)
  | .vxorVi i a d => .word (rShape 7#7 i (0#2 ++ a) 2#3 (0#2 ++ d) 49#7)
  | .vshlVv b a d => .word (rShape 8#7 (0#2 ++ b) (0#2 ++ a) 0#3 (0#2 ++ d) 49#7)
  | .vshlVx b a d => .word (rShape 8#7 b (0#2 ++ a) 1#3 (0#2 ++ d) 49#7)
  | .vshlVi i a d => .word (rShape 8#7 i (0#2 ++ a) 2#3 (0#2 ++ d) 49#7)
  | .vshrVv b a d => .word (rShape 9#7 (0#2 ++ b) (0#2 ++ a) 0#3 (0#2 ++ d) 49#7)
  | .vshrVx b a d => .word (rShape 9#7 b (0#2 ++ a) 1#3 (0#2 ++ d) 49#7)
  | .vshrVi i a d => .word (rShape 9#7 i (0#2 ++ a) 2#3 (0#2 ++ d) 49#7)
  | .vsraVv b a d => .word (rShape 10#7 (0#2 ++ b) (0#2 ++ a) 0#3 (0#2 ++ d) 49#7)
  | .vsraVx b a d => .word (rShape 10#7 b (0#2 ++ a) 1#3 (0#2 ++ d) 49#7)
  | .vsraVi i a d => .word (rShape 10#7 i (0#2 ++ a) 2#3 (0#2 ++ d) 49#7)
  | .vabs a d => .word (rShape 11#7 0#5 (0#2 ++ a) 0#3 (0#2 ++ d) 49#7)
  | .vneg a d => .word (rShape 12#7 0#5 (0#2 ++ a) 0#3 (0#2 ++ d) 49#7)
  | .vcmpeqVv b a d => .word (rShape 13#7 (0#2 ++ b) (0#2 ++ a) 0#3 (0#2 ++ d) 49#7)
  | .vcmpeqVx b a d => .word (rShape 13#7 b (0#2 ++ a) 1#3 (0#2 ++ d) 49#7)
  | .vcmpeqVi i a d => .word (rShape 13#7 i (0#2 ++ a) 2#3 (0#2 ++ d) 49#7)
  | .vcmpltVv b a d => .word (rShape 14#7 (0#2 ++ b) (0#2 ++ a) 0#3 (0#2 ++ d) 49#7)
  | .vcmpltVx b a d => .word (rShape 14#7 b (0#2 ++ a) 1#3 (0#2 ++ d) 49#7)
  | .vcmpltVi i a d => .word (rShape 14#7 i (0#2 ++ a) 2#3 (0#2 ++ d) 49#7)
  | .vselVv b a d => .word (rShape 15#7 (0#2 ++ b) (0#2 ++ a) 0#3 (0#2 ++ d) 49#7)
  | .vselVx b a d => .word (rShape 15#7 b (0#2 ++ a) 1#3 (0#2 ++ d) 49#7)
  | .vselVi i a d => .word (rShape 15#7 i (0#2 ++ a) 2#3 (0#2 ++ d) 49#7)
  | .vfaddVv b a d => .word (rShape 0#7 (0#2 ++ b) (0#2 ++ a) 0#3 (0#2 ++ d) 51#7)
  | .vfaddVx b a d => .word (rShape 0#7 b (0#2 ++ a) 1#3 (0#2 ++ d) 51#7)
  | .vfsubVv b a d => .word (rShape 1#7 (0#2 ++ b) (0#2 ++ a) 0#3 (0#2 ++ d) 51#7)
  | .vfsubVx b a d => .word (rShape 1#7 b (0#2 ++ a) 1#3 (0#2 ++ d) 51#7)
  | .vfmulVv b a d => .word (rShape 2#7 (0#2 ++ b) (0#2 ++ a) 0#3 (0#2 ++ d) 51#7)
  | .vfmulVx b a d => .word (rShape 2#7 b (0#2 ++ a) 1#3 (0#2 ++ d) 51#7)
  | .vfmaVv b a d => .word (rShape 3#7 (0#2 ++ b) (0#2 ++ a) 0#3 (0#2 ++ d) 51#7)
  | .vfmaVx b a d => .word (rShape 3#7 b (0#2 ++ a) 1#3 (0#2 ++ d) 51#7)
  | .vfminVv b a d => .word (rShape 4#7 (0#2 ++ b) (0#2 ++ a) 0#3 (0#2 ++ d) 51#7)
  | .vfminVx b a d => .word (rShape 4#7 b (0#2 ++ a) 1#3 (0#2 ++ d) 51#7)
  | .vfmaxVv b a d => .word (rShape 5#7 (0#2 ++ b) (0#2 ++ a) 0#3 (0#2 ++ d) 51#7)
  | .vfmaxVx b a d => .word (rShape 5#7 b (0#2 ++ a) 1#3 (0#2 ++ d) 51#7)
  | .vfexp2 a d => .word (rShape 6#7 0#5 (0#2 ++ a) 0#3 (0#2 ++ d) 51#7)
  | .vflog2 a d => .word (rShape 7#7 0#5 (0#2 ++ a) 0#3 (0#2 ++ d) 51#7)
  | .vfrcp a d => .word (rShape 8#7 0#5 (0#2 ++ a) 0#3 (0#2 ++ d) 51#7)
  | .vfrsq a d => .word (rShape 9#7 0#5 (0#2 ++ a) 0#3 (0#2 ++ d) 51#7)
  | .vfcmpltVv b a d => .word (rShape 10#7 (0#2 ++ b) (0#2 ++ a) 0#3 (0#2 ++ d) 51#7)
  | .vfcmpltVx b a d => .word (rShape 10#7 b (0#2 ++ a) 1#3 (0#2 ++ d) 51#7)
  | .vfcmpeqVv b a d => .word (rShape 11#7 (0#2 ++ b) (0#2 ++ a) 0#3 (0#2 ++ d) 51#7)
  | .vfcmpeqVx b a d => .word (rShape 11#7 b (0#2 ++ a) 1#3 (0#2 ++ d) 51#7)
  | .vld f a d => .word (rShape 0#7 f a 0#3 (0#2 ++ d) 53#7)
  | .vst a d => .word (rShape 0#7 0#5 a 1#3 (0#2 ++ d) 53#7)
  | .vldp k a d => .word (rShape 0#7 k a 2#3 (0#2 ++ d) 53#7)
  | .vstp k a d => .word (rShape 0#7 k a 3#3 (0#2 ++ d) 53#7)
  | .vcvt p f a d => .word (rShape (p ++ f) 0#5 (0#2 ++ a) 0#3 (0#2 ++ d) 55#7)
  | .vsplit p f a d => .word (rShape (p ++ f) 0#5 (0#2 ++ a) 1#3 (0#2 ++ d) 55#7)
  | .vscale b a d => .word (rShape 0#7 b (0#2 ++ a) 2#3 (0#2 ++ d) 55#7)
  | .vtag a d => .word (rShape 0#7 0#5 a 3#3 (0#2 ++ d) 55#7)
  | .vrsumRow a d => .word (rShape 0#7 0#5 (0#2 ++ a) 0#3 (0#2 ++ d) 57#7)
  | .vrsumCol a d => .word (rShape 1#7 0#5 (0#2 ++ a) 0#3 (0#2 ++ d) 57#7)
  | .vrmaxRow a d => .word (rShape 0#7 0#5 (0#2 ++ a) 1#3 (0#2 ++ d) 57#7)
  | .vrmaxCol a d => .word (rShape 1#7 0#5 (0#2 ++ a) 1#3 (0#2 ++ d) 57#7)
  | .vrminRow a d => .word (rShape 0#7 0#5 (0#2 ++ a) 2#3 (0#2 ++ d) 57#7)
  | .vrminCol a d => .word (rShape 1#7 0#5 (0#2 ++ a) 2#3 (0#2 ++ d) 57#7)
  | .vscanRow a d => .word (rShape 0#7 0#5 (0#2 ++ a) 3#3 (0#2 ++ d) 57#7)
  | .vscanCol a d => .word (rShape 1#7 0#5 (0#2 ++ a) 3#3 (0#2 ++ d) 57#7)
  | .vshape a => .word (rShape 0#7 0#5 a 0#3 0#5 59#7)
  | .vmov a d => .word (rShape 0#7 0#5 (0#2 ++ a) 1#3 (0#2 ++ d) 59#7)
  | .vbcr b a d => .word (rShape 0#7 b (0#2 ++ a) 2#3 (0#2 ++ d) 59#7)
  | .vbcc b a d => .word (rShape 0#7 b (0#2 ++ a) 3#3 (0#2 ++ d) 59#7)
  | .vtrn a d => .word (rShape 0#7 0#5 (0#2 ++ a) 4#3 (0#2 ++ d) 59#7)
  | .vins b a d => .word (rShape 0#7 b a 5#3 (0#2 ++ d) 59#7)
  | .vext b a d => .word (rShape 0#7 b (0#2 ++ a) 6#3 d 59#7)
  | .mldb m s o g => .word (rShape (0#5 ++ m) (s ++ o) 0#5 0#3 g 61#7)
  | .mmul t m s o g => .word (rShape (0#3 ++ t ++ m) (s ++ o) 0#5 1#3 g 61#7)
  | .mmrot t m s o g => .word (rShape (0#3 ++ t ++ m) (s ++ o) 0#5 2#3 g 61#7)
  | .mdrain t s o g => .word (rShape (0#3 ++ t ++ 0#2) (s ++ o) 0#5 3#3 g 61#7)
  | .mzero t s o g => .word (rShape (0#3 ++ t ++ 0#2) (s ++ o) 0#5 4#3 g 61#7)
  | .mwait => .word (rShape 0#7 0#5 0#5 5#3 0#5 61#7)
  | .mstat d => .word (rShape 0#7 0#5 0#5 6#3 d 61#7)
  | .cpy s o g => .word (rShape 0#7 (s ++ o) 0#5 0#3 g 63#7)
  | .cpyx s o g => .word (rShape 0#7 (s ++ o) 0#5 1#3 g 63#7)
  | .cpyw a => .word (rShape 0#7 0#5 a 2#3 0#5 63#7)
  | .cpyq d => .word (rShape 0#7 0#5 0#5 3#3 d 63#7)
  | .map r b a d => .word (rShape (0#1 ++ r) b a 0#3 d 65#7)
  | .grant r b a d => .word (rShape (0#1 ++ r) b a 1#3 d 65#7)
  | .unmap a d => .word (rShape 0#7 0#5 a 2#3 d 65#7)
  | .mquery a d => .word (rShape 0#7 0#5 a 3#3 d 65#7)
  | .release a => .word (rShape 0#7 0#5 a 4#3 0#5 65#7)
  | .accept a d => .word (rShape 0#7 0#5 a 5#3 d 65#7)
  | .csrr s d => .word (rShape (s.extractLsb' 5 7) (s.extractLsb' 0 5) 0#5 0#3 d 67#7)
  | .csrw s a d => .word (rShape (s.extractLsb' 5 7) (s.extractLsb' 0 5) a 1#3 d 67#7)
  | .csrs s a d => .word (rShape (s.extractLsb' 5 7) (s.extractLsb' 0 5) a 2#3 d 67#7)
  | .csrc s a d => .word (rShape (s.extractLsb' 5 7) (s.extractLsb' 0 5) a 3#3 d 67#7)
  | .trap a => .word (rShape 0#7 0#5 a 4#3 0#5 67#7)
  | .eret => .word (rShape 1#7 0#5 0#5 4#3 0#5 67#7)
  | .checkerr d => .word (rShape 2#7 0#5 0#5 4#3 d 67#7)
  | .brkpt => .word (rShape 3#7 0#5 0#5 4#3 0#5 67#7)
  | .trace a => .word (rShape 4#7 0#5 a 4#3 0#5 67#7)
  | .pair => .word (rShape 5#7 0#5 0#5 4#3 0#5 67#7)
  | .unpair => .word (rShape 6#7 0#5 0#5 4#3 0#5 67#7)
  | .wfe => .word (rShape 7#7 0#5 0#5 4#3 0#5 67#7)
  | .gate a d => .word (rShape 0#7 0#5 a 0#3 d 69#7)
  | .gstat a d => .word (rShape 0#7 0#5 a 1#3 d 69#7)
  | .cAddi r i => .half (0#1 ++ r ++ i ++ 0#4)
  | .cLi r i => .half (1#1 ++ r ++ i ++ 0#4)
  | .cMv r s => .half (0#2 ++ r ++ s ++ 2#4)
  | .cAdd r s => .half (1#2 ++ r ++ s ++ 2#4)
  | .cSub r s => .half (2#2 ++ r ++ s ++ 2#4)
  | .cAnd r s => .half (3#2 ++ r ++ s ++ 2#4)
  | .cLd o a d => .half (o ++ a ++ d ++ 4#4)
  | .cSd o a s => .half (o ++ a ++ s ++ 6#4)
  | .cBeqz a o => .half (0#1 ++ a ++ o ++ 8#4)
  | .cBnez a o => .half (1#1 ++ a ++ o ++ 8#4)
  | .cJ o => .half (o ++ 10#4)
  | .cQput q r => .half (0#1 ++ q ++ r ++ 12#7)
  | .cQget q r => .half (1#1 ++ q ++ r ++ 12#7)
  | .cNop => .half 14#16
  | .cEnd => .half 16398#16
  | .cStop => .half 32782#16
  | .cBrk => .half 49166#16
  | .asyncTrapTake _ => .none
  | .tstatSave _ => .none
  | .tstatRestore _ => .none
  | .saveComplete _ _ => .none
  | .restoreComplete _ _ => .none
  | .parktoExpiry _ => .none
  | .contextDestroyComplete _ => .none
  | .slotTableWrite _ _ => .none
  | .apexSchedule _ => .none
  | .lqEnable _ _ => .none
  | .lqDisable _ _ => .none
  | .lqtailWrite _ _ _ => .none
  | .queueSwitchIn _ _ => .none
  | .queueSwitchOut _ _ => .none
  | .entryAccept _ _ => .none
  | .launch _ => .none
  | .maproot _ => .none
  | .reclaim _ => .none
  | .query _ => .none
  | .commandComplete _ => .none
  | .periodBoundary => .none
  | .budgetExhausted _ => .none
  | .messageArrival _ => .none
  | .messageDelivery _ _ => .none
  | .actorFire _ => .none
  | .floorPublish => .none
  | .outboxDepart _ => .none
  | .endOutboxDrained _ => .none
  | .nestJoinArrival _ => .none
  | .nestClaimServe _ _ => .none
  | .loopGrantArrival _ => .none
  | .loopLeave _ => .none
  | .barrierArrival _ => .none
  | .barrierAbort _ => .none
  | .barrierNotice _ => .none
  | .matrixCommandStart _ _ => .none
  | .mldbLoadDone _ _ => .none
  | .tileForwardArrival _ => .none
  | .matrixCommandComplete _ _ _ => .none
  | .matrixTokenPlace _ _ => .none
  | .copyComplete _ _ _ => .none
  | .journalSend _ _ => .none
  | .journalAck _ _ => .none
  | .journalRefusal _ _ => .none
  | .psjeSelect _ _ => .none
  | .psjeDismiss _ _ => .none
  | .leaseGrant _ => .none
  | .homeWritePerform _ => .none
  | .l1LeaseExpiry _ _ => .none
  | .locusMap _ => .none
  | .locusGrant _ => .none
  | .locusUnmap _ => .none
  | .locusRelease _ => .none
  | .locusAccept _ => .none
  | .revokeCut _ _ => .none
  | .shootdown _ _ => .none
  | .shootdownAck _ _ => .none
  | .locusPhaseEnd _ => .none
  | .mxuPark _ => .none
  | .faultRecordWrite _ => .none
  | .replay _ _ => .none
  | .rqtailWrite _ _ => .none
  | .fill _ _ _ => .none
  | .evict _ => .none
  | .pin _ => .none
  | .unpin _ => .none
  | .evictCopyoutDone _ _ => .none
  | .mxstatRead _ => .none
  | .fgbWrite _ _ => .none
  | .translationCompletion _ _ _ _ _ => .none
  | .prgResponse _ _ => .none
  | .atsInvalidationRequest _ _ _ _ => .none
  | .invalidationCompletion => .none
  | .errorCorrected _ => .none
  | .errorUncorrectable _ => .none
  | .memoryScrub _ => .none
  | .relayoutGo _ _ => .none
  | .relayoutRun _ => .none
  | .intervalClose _ => .none
  | .fingerprintAgree _ => .none
  | .fingerprintDisagree _ => .none
  | .tiebreakResult _ _ => .none
  | .pairCloseTimeout _ => .none
  | .wcfgConf _ _ => .none
  | .wcfgRetire _ => .none
  | .keySet _ _ _ => .none
  | .keyRevoke _ _ => .none
  | .tdiError _ => .none
  | .functionLevelReset _ => .none
  | .worldRetireComplete _ => .none
  | .cxlMemRequest _ _ _ _ _ => .none
  | .cxlH2dSnoop _ => .none
  | .ideKeySwitch _ => .none
  | .hostLinkUp _ => .none
  | .hostLinkRecovery => .none
  | .hostLinkDown => .none
  | .skonovPortEnable _ => .none
  | .skonovPortDisable _ => .none
  | .skonovRetrain _ => .none
  | .portTrained _ _ => .none
  | .portTrainingTimeout _ => .none
  | .laneFailure _ _ => .none
  | .retrainComplete _ => .none
  | .flitReceive _ _ => .none
  | .flitNak _ _ => .none
  | .proxyGrant _ _ _ _ => .none
  | .proxyInvalidation _ _ => .none
  | .directoryRecall _ _ => .none
  | .moduleFailed _ => .none
  | .orphrel => .none
  | .quiesce => .none
  | .quiesceComplete => .none
  | .fabricArrival _ _ _ _ _ _ => .none
  | .sessionOpen _ => .none
  | .sessionClose => .none
  | .dbgStop => .none
  | .dbgResume _ => .none
  | .dbgStep _ => .none
  | .freezeComplete => .none
  | .stopTimeout => .none
  | .stepComplete => .none
  | .stepTimeout => .none
  | .comparatorConfig _ _ => .none
  | .traceSample _ => .none
  | .counterSelect _ _ => .none
  | .replayInject _ => .none
  | .freezeAssert => .none
  | .freezeRelease _ => .none
  | .scanRead _ _ => .none
  | .deviceReset _ _ _ => .none
  | .pcapwWrite _ => .none
  | .pcapwinWrite _ => .none
  | .powerSample _ => .none
  | .powerAdjust _ => .none
  | .powerWindowEnd _ => .none
  | .thermRead => .none
  | .thermalThrottle _ _ _ => .none
  | .thermalFreeze _ _ => .none
  | .thermalTrip _ _ => .none
  | .thermalRecover _ _ => .none
  | .errorRecordWrite => .none
  | .registerWrite _ _ _ _ => .none
  | .unassignedEncoding _ => .none
  | .accessReachesTarget _ _ => .none
  | .nonPostedCompletion _ _ _ => .none
  | .birspArrival _ => .none
  | .pcieCompletionTimeout _ => .none
  | .priEnableWrite _ => .none

/-- The instruction, zero-extended, as TVAL holds it for ILLEGAL (R89, R113); a rejected word is its own. -/
def encodeWord (i : Instr) : Word :=
  match i with
  | .unassignedEncoding w => w.setWidth 64
  | _ =>
    match encode i with
    | .word w => w.setWidth 64
    | .half h => h.setWidth 64
    | .none => 0

/-- The length in bytes of an instruction (R67). A rejected word is as long as its bit 0 says. -/
def instrLen (i : Instr) : Nat :=
  match i with
  | .unassignedEncoding w => if w.getLsbD 0 then 4 else 2
  | _ =>
    match encode i with
    | .half _ => 2
    | _ => 4

end Sys2Proof
end

