-- ==== Sys2Proof/Machine/Numbers.lean ====
section
/-! DEFINITION. The element formats of chapter 03: their widths, their values as exact reals, the one rounding, NI8 and
its quantisation, the conversions, floating arithmetic, the correctly rounded functions, and the CRC-64 of R363. -/
namespace Sys2Proof.Machine

/-! ## Formats (R40, R48) -/

/-- The element width in bits of a format code (R40); 0 for NONE and for codes that name no format. -/
def fmtWidth : Nat → Nat
  | 1 => 8 | 2 => 8 | 3 => 16 | 4 => 32 | 5 => 8 | 6 => 8 | 7 => 16 | 8 => 16 | 9 => 32 | 10 => 8 | _ => 0

/-- The element width in bytes (R223). -/
def fmtBytes (f : Nat) : Nat := fmtWidth f / 8

/-- Elements in a 64-byte register row (R40, R223). -/
def fmtEpr (f : Nat) : Nat :=
  match fmtWidth f with
  | 8 => 64 | 16 => 32 | 32 => 16 | _ => 0

def isIntFmt (f : Nat) : Bool := f = 2 || f = 3 || f = 4

def isFpFmt (f : Nat) : Bool := f = 7 || f = 8 || f = 9

/-- A floating format: exponent bits, mantissa bits, bias, and whether it has infinities (R48). -/
structure FpFmt where
  ebits : Nat
  mbits : Nat
  bias  : Nat
  hasInf : Bool
  deriving DecidableEq, Repr

/-- The layouts of R48, by format code. -/
def fpFmt : Nat → Option FpFmt
  | 5 => some ⟨4, 3, 7, false⟩
  | 6 => some ⟨5, 2, 15, true⟩
  | 7 => some ⟨5, 10, 15, true⟩
  | 8 => some ⟨8, 7, 127, true⟩
  | 9 => some ⟨8, 23, 127, true⟩
  | _ => none

/-- An element's value: not a number, an infinity, or the exact rational n/d with a sign that a zero keeps. -/
inductive ExactNum where
  | nan
  | inf (neg : Bool)
  | rat (neg : Bool) (n d : Nat)
  deriving DecidableEq, Repr

/-- The value of an integer. -/
def ExactNum.ofInt (i : Int) : ExactNum := .rat (i < 0) i.natAbs 1

/-- The value times 2^s, exact (R61). -/
def ExactNum.scale (x : ExactNum) (s : Int) : ExactNum :=
  match x with
  | .rat ng n d => if 0 ≤ s then .rat ng (n * 2 ^ s.toNat) d else .rat ng n (d * 2 ^ (-s).toNat)
  | y => y

/-- The signed numerator of a rational value. -/
def signedNum (neg : Bool) (n : Nat) : Int := if neg then -(n : Int) else n

/-! ## Decoding and rounding -/

/-- The largest exponent field. -/
def FpFmt.emax (f : FpFmt) : Nat := 2 ^ f.ebits - 1

/-- The encoding of the largest finite magnitude (R49). -/
def FpFmt.maxFinite (f : FpFmt) : Nat :=
  if f.hasInf then f.emax * 2 ^ f.mbits - 1 else 2 ^ (f.ebits + f.mbits) - 2

/-- The sign bit's weight. -/
def FpFmt.sign (f : FpFmt) : Nat := 2 ^ (f.ebits + f.mbits)

/-- The canonical NaN (R49): positive and quiet; in FP8E4 the all-ones encoding. -/
def FpFmt.canonNan (f : FpFmt) : Nat :=
  if f.hasInf then f.emax * 2 ^ f.mbits + 2 ^ (f.mbits - 1) else 2 ^ (f.ebits + f.mbits) - 1

/-- The value of an encoding (R48). -/
def FpFmt.value (f : FpFmt) (enc : Nat) : ExactNum :=
  let neg := f.sign ≤ enc % (2 * f.sign)
  let mag := enc % f.sign
  let e := mag / 2 ^ f.mbits
  let m := mag % 2 ^ f.mbits
  if f.hasInf && e = f.emax then (if m = 0 then .inf neg else .nan)
  else if !f.hasInf && mag = f.sign - 1 then .nan
  else if e = 0 then (ExactNum.rat neg m 1).scale (1 - (f.bias : Int) - f.mbits)
  else (ExactNum.rat neg (2 ^ f.mbits + m) 1).scale ((e : Int) - f.bias - f.mbits)

/-- floor(log2(n/d)) of a positive rational. -/
def ratLog2 (n d : Nat) : Int :=
  let k : Int := (Nat.log2 n : Int) - Nat.log2 d
  let ge := if 0 ≤ k then decide (d * 2 ^ k.toNat ≤ n) else decide (d ≤ n * 2 ^ (-k).toNat)
  if ge then k else k - 1

/-- The quotient n/d rounded to the nearest integer, ties to even (R51). -/
def divNe (n d : Nat) : Nat :=
  let q := n / d
  let r := n % d
  if 2 * r < d then q else if d < 2 * r then q + 1 else if q % 2 = 0 then q else q + 1

/-- The encoding of the magnitude n/d rounded once (R51), before the overflow rule. -/
def FpFmt.roundMag (f : FpFmt) (n d : Nat) : Nat :=
  if n = 0 then 0
  else
    let emin : Int := 1 - f.bias
    let u : Int := max (ratLog2 n d) emin - f.mbits
    let q := if 0 ≤ u then divNe n (d * 2 ^ u.toNat) else divNe (n * 2 ^ (-u).toNat) d
    (u - (emin - f.mbits)).toNat * 2 ^ f.mbits + q

/-- The result of an overflow (R52): infinity, or ±448 in FP8E4. -/
def FpFmt.overflow (f : FpFmt) : Nat := if f.hasInf then f.emax * 2 ^ f.mbits else f.maxFinite

/-- round_ne into a floating format (R37, R51, R52). A finite result keeps the sign of the exact one. -/
def FpFmt.round (f : FpFmt) : ExactNum → Nat
  | .nan => f.canonNan
  | .inf neg => (if neg then f.sign else 0) + f.overflow
  | .rat neg n d =>
    let m := f.roundMag n d
    (if neg then f.sign else 0) + (if f.maxFinite < m then f.overflow else m)

/-- Whether rounding a value into the format overflows (R52, R63). -/
def FpFmt.overflows (f : FpFmt) : ExactNum → Bool
  | .rat _ n d => f.maxFinite < f.roundMag n d
  | .inf _ => true
  | .nan => false

/-! ## Integers (R47) -/

/-- A pattern of `w` bits as a two's-complement integer. -/
def toSigned (w : Nat) (v : Nat) : Int :=
  let u := v % 2 ^ w
  if 2 ^ (w - 1) ≤ u then (u : Int) - 2 ^ w else u

/-- An integer modulo 2^w. -/
def wrapTo (w : Nat) (i : Int) : Nat := (i % (2 ^ w : Int)).toNat

/-- An integer saturated to `w` bits, as its pattern (R47, R52). -/
def satTo (w : Nat) (i : Int) : Nat :=
  let lo : Int := -(2 ^ (w - 1) : Int)
  let hi : Int := 2 ^ (w - 1) - 1
  wrapTo w (if i < lo then lo else if hi < i then hi else i)

/-- Whether an integer lies outside `w` bits. -/
def satOverflows (w : Nat) (i : Int) : Bool := i < -(2 ^ (w - 1) : Int) || (2 ^ (w - 1) - 1 : Int) < i

/-- A value rounded to an integer, ties to even (R54). -/
def ratToInt (neg : Bool) (n d : Nat) : Int := signedNum neg (divNe n d)

/-! ## NI8 (R41-R46) -/

/-- The k-plane value of a stored byte (R42, R44: the low 8 - k bits are ignored). -/
def ni8Value (k b : Nat) : Int := 2 ^ (9 - k) * (b % 256 / 2 ^ (8 - k) : Nat) - 256 + 2 ^ (8 - k)

/-- The byte that holds a representable k-plane value, its low bits zero (R44). -/
def ni8Byte (k : Nat) (v : Int) : Nat :=
  ((v + 256 - 2 ^ (8 - k)) / (2 ^ (9 - k))).toNat * 2 ^ (8 - k) % 256

/-- The nearest k-plane value of the rational n/d, ties toward +infinity, clamped to the range (R46). -/
def ni8Nearest (k : Nat) (x : Int) (d : Nat) : Int :=
  let h : Int := 2 ^ (8 - k)
  let v := h * (2 * (x / (2 * h * d)) + 1)
  let hi : Int := 256 - h
  if hi < v then hi else if v < -hi then -hi else v

/-- Quantisation to k-plane NI8, as the stored byte (R46). -/
def quantise (k : Nat) : ExactNum → Nat
  | .nan => ni8Byte k (2 ^ (8 - k))
  | .inf neg => ni8Byte k (if neg then -(256 - 2 ^ (8 - k)) else 256 - 2 ^ (8 - k))
  | .rat neg n d => ni8Byte k (ni8Nearest k (signedNum neg n) d)

/-- The byte that a plane store writes for a held byte kept to k planes, with the fill of R45. -/
def ni8Fill (k b : Nat) : Nat :=
  b % 256 / 2 ^ (8 - k) * 2 ^ (8 - k) + (if k < 8 then 2 ^ (7 - k) else 0)

/-! ## Element values and conversions (R54) -/

/-- The exact value of an element of a numeric format; NI8 with `k` planes. -/
def elemValue (f k e : Nat) : ExactNum :=
  if f = 1 then .ofInt (ni8Value k e)
  else if isIntFmt f then .ofInt (toSigned (fmtWidth f) e)
  else
    match fpFmt f with
    | some p => p.value e
    | none => .nan

/-- The element that a value converts to in format `f` (R54); NI8 with `k` planes. -/
def convertTo (f k : Nat) (x : ExactNum) : Nat :=
  if f = 1 then quantise k x
  else if isIntFmt f then
    match x with
    | .nan => 0
    | .inf neg => satTo (fmtWidth f) (if neg then -(2 ^ 40) else 2 ^ 40)
    | .rat neg n d => satTo (fmtWidth f) (ratToInt neg n d)
  else
    match fpFmt f with
    | some p => p.round x
    | none => 0

/-- Whether a conversion overflows the destination (R52, R63). -/
def convertOverflows (f : Nat) (x : ExactNum) : Bool :=
  if isIntFmt f then
    match x with
    | .rat neg n d => satOverflows (fmtWidth f) (ratToInt neg n d)
    | .inf _ => true
    | .nan => false
  else
    match fpFmt f with
    | some p => p.overflows x
    | none => false

/-! ## Floating arithmetic (R50) -/

/-- The exact sum, with the sign of an exact zero as IEEE 754 and R50 give it. -/
def ExactNum.add : ExactNum → ExactNum → ExactNum
  | .nan, _ => .nan
  | _, .nan => .nan
  | .inf a, .inf b => if a = b then .inf a else .nan
  | .inf a, _ => .inf a
  | _, .inf b => .inf b
  | .rat a n d, .rat b m e =>
    let s := signedNum a n * e + signedNum b m * d
    if s = 0 then .rat (n = 0 && m = 0 && a && b) 0 1 else .rat (s < 0) s.natAbs (d * e)

/-- The value with its sign turned. -/
def ExactNum.negate : ExactNum → ExactNum
  | .nan => .nan
  | .inf a => .inf (!a)
  | .rat a n d => .rat (!a) n d

/-- The exact product; zero times infinity is invalid. -/
def ExactNum.mul : ExactNum → ExactNum → ExactNum
  | .nan, _ => .nan
  | _, .nan => .nan
  | .inf a, .inf b => .inf (a != b)
  | .inf a, .rat b m _ => if m = 0 then .nan else .inf (a != b)
  | .rat a n _, .inf b => if n = 0 then .nan else .inf (a != b)
  | .rat a n d, .rat b m e => .rat (a != b) (n * m) (d * e)

/-- Strictly less, false with a NaN; zeros of either sign are equal. -/
def ExactNum.lt : ExactNum → ExactNum → Bool
  | .nan, _ => false
  | _, .nan => false
  | .inf a, .inf b => a && !b
  | .inf a, _ => a
  | _, .inf b => !b
  | .rat a n d, .rat b m e => signedNum a n * e < signedNum b m * d

/-- Equal as numbers, false with a NaN. -/
def ExactNum.eqv : ExactNum → ExactNum → Bool
  | .nan, _ => false
  | _, .nan => false
  | .inf a, .inf b => a = b
  | .inf _, _ => false
  | _, .inf _ => false
  | .rat a n d, .rat b m e => signedNum a n * e = signedNum b m * d

def ExactNum.isNan : ExactNum → Bool
  | .nan => true
  | _ => false

def ExactNum.isNeg : ExactNum → Bool
  | .rat a _ _ => a
  | .inf a => a
  | .nan => false

/-- The order of minimum and maximum: −0 counts as less than +0 (R50). -/
def ExactNum.ltMin (a b : ExactNum) : Bool := a.lt b || (a.eqv b && a.isNeg && !b.isNeg)

/-- Minimum and maximum of two values: a NaN in either operand gives NaN (R50). -/
def ExactNum.minOf (a b : ExactNum) : ExactNum := if a.isNan || b.isNan then .nan else if b.ltMin a then b else a

def ExactNum.maxOf (a b : ExactNum) : ExactNum := if a.isNan || b.isNan then .nan else if a.ltMin b then b else a

/-! ## Correctly rounded functions (R65) -/

/-- The integer square root of `n` below 2^bits, one bit at a time. -/
def isqrtFrom (n : Nat) : Nat → Nat → Nat
  | 0, r => r
  | k + 1, r => isqrtFrom n k (if (r + 2 ^ k) * (r + 2 ^ k) ≤ n then r + 2 ^ k else r)

/-- The integer square root of a number below 2^(2·bits). -/
def isqrt (bits n : Nat) : Nat := isqrtFrom n bits 0

/-- Working precision, in fraction bits, of the interval arithmetic below. -/
def fnBits : Nat := 256

/-- 2 to the fraction given by bits `k` bits long (most significant first) of `f`, from below, with `fnBits` fraction
bits: `root` is 2^(2^-i) for the bit in turn. -/
def exp2Frac : Nat → Nat → Nat → Nat → Nat
  | 0, _, _, acc => acc
  | k + 1, f, root, acc =>
    let root' := isqrt (fnBits + 2) (root * 2 ^ fnBits)
    exp2Frac k f root' (if f / 2 ^ k % 2 = 1 then acc * root' / 2 ^ fnBits else acc)

/-- How many fraction bits of the argument of VFEXP2 are used before the interval closes over the rest. -/
def expBits : Nat := 190

/-- A value known to lie between two positive magnitudes so close that both round alike, which the precision above
gives for arguments of at most 24 significant bits: the rounding of their midpoint. -/
def FpFmt.roundBetween (f : FpFmt) (neg : Bool) (lo hi d : Nat) : Nat := f.round (.rat neg (lo + hi) (2 * d))

/-- 2^x of a finite value. -/
def FpFmt.exp2 (f : FpFmt) (neg : Bool) (n d : Nat) : Nat :=
  let x := signedNum neg n
  let i : Int := x / (d : Int)
  let r := (x % (d : Int)).toNat
  if 2000 < i then f.round (.inf false)
  else if i < -2000 then f.round (.rat false 1 (2 ^ 2000))
  else if r = 0 then f.round ((ExactNum.rat false 1 1).scale i)
  else
    let fr := r * 2 ^ expBits / d
    let lo := exp2Frac expBits fr (2 * 2 ^ fnBits) (2 ^ fnBits)
    let hi := lo + 2 ^ (fnBits - 150)
    match (ExactNum.rat false lo (2 ^ fnBits)).scale i, (ExactNum.rat false hi (2 ^ fnBits)).scale i with
    | .rat _ a b, .rat _ c _ => f.roundBetween false a c b
    | _, _ => f.canonNan

/-- The fraction bits of log2 of y in [1, 2), y with `p` fraction bits, most significant first. -/
def log2Frac (p : Nat) : Nat → Nat → Nat → Nat
  | 0, _, acc => acc
  | k + 1, y, acc =>
    let s := y * y / 2 ^ p
    if 2 * 2 ^ p ≤ s then log2Frac p k (s / 2) (2 * acc + 1) else log2Frac p k s (2 * acc)

/-- log2 of a positive finite value. -/
def FpFmt.log2 (f : FpFmt) (n d : Nat) : Nat :=
  let e := ratLog2 n d
  let exact := if 0 ≤ e then decide (n = d * 2 ^ e.toNat) else decide (n * 2 ^ (-e).toNat = d)
  if exact then f.round (.ofInt e)
  else
    let p := 420
    let y := if 0 ≤ e then n * 2 ^ p / (d * 2 ^ e.toNat) else n * 2 ^ (-e).toNat * 2 ^ p / d
    let bits := 160
    let fr := log2Frac p bits y 0
    let lo : Int := e * 2 ^ bits + fr
    let hi : Int := lo + 1
    if 0 ≤ lo then f.roundBetween false lo.natAbs hi.natAbs (2 ^ bits)
    else f.roundBetween true hi.natAbs lo.natAbs (2 ^ bits)

/-- 1/√(n/d) of a positive finite value. -/
def FpFmt.rsq (f : FpFmt) (n d : Nat) : Nat :=
  let k := 256
  let q := d * 2 ^ (2 * k) / n
  let s := isqrt 600 q
  if s * s * n = d * 2 ^ (2 * k) then f.round (.rat false s (2 ^ k))
  else f.roundBetween false (2 * s + 1) (2 * s + 1) (2 * 2 ^ k)

/-- VFEXP2 (R65). -/
def FpFmt.fnExp2 (f : FpFmt) : ExactNum → Nat
  | .nan => f.canonNan
  | .inf neg => if neg then 0 else f.round (.inf false)
  | .rat neg n d => if n = 0 then f.round (.rat false 1 1) else f.exp2 neg n d

/-- VFLOG2 (R65). -/
def FpFmt.fnLog2 (f : FpFmt) : ExactNum → Nat
  | .nan => f.canonNan
  | .inf neg => if neg then f.canonNan else f.round (.inf false)
  | .rat neg n d => if n = 0 then f.round (.inf true) else if neg then f.canonNan else f.log2 n d

/-- VFRCP (R65). -/
def FpFmt.fnRcp (f : FpFmt) : ExactNum → Nat
  | .nan => f.canonNan
  | .inf neg => f.round (.rat neg 0 1)
  | .rat neg n d => if n = 0 then f.round (.inf neg) else f.round (.rat neg d n)

/-- VFRSQ (R65). -/
def FpFmt.fnRsq (f : FpFmt) : ExactNum → Nat
  | .nan => f.canonNan
  | .inf neg => if neg then f.canonNan else f.round (.rat false 0 1)
  | .rat neg n d => if n = 0 then f.round (.inf neg) else if neg then f.canonNan else f.rsq n d

/-! ## CRC-64 (R363) -/

/-- One byte folded into the register, most significant bit first, ECMA-182 polynomial. -/
def crcByte (c : Word) (b : Byte) : Word :=
  (List.range 8).foldl
    (fun (r : Word) _ => if r.getLsbD 63 then (r <<< 1) ^^^ 0x42F0E1EBA9EA3693#64 else r <<< 1)
    (c ^^^ (b.setWidth 64 <<< 56))

/-- The register after a list of bytes. -/
def crcFold (c : Word) (bs : List Byte) : Word := bs.foldl crcByte c

/-- The CRC of a list of bytes (R363): the register starts at all ones and ends XORed with all ones. -/
def crc64 (bs : List Byte) : Word := crcFold 0xFFFF_FFFF_FFFF_FFFF#64 bs ^^^ 0xFFFF_FFFF_FFFF_FFFF#64

/-! ## Bytes (R3) -/

/-- The `n` little-endian bytes of a number. -/
def leBytes : Nat → Nat → List Byte
  | 0, _ => []
  | n + 1, v => BitVec.ofNat 8 v :: leBytes n (v / 256)

/-- The number of little-endian bytes. -/
def ofLe : List Byte → Nat
  | [] => 0
  | b :: t => b.toNat + 256 * ofLe t

end Sys2Proof.Machine
end

