-- ==== Sys2Proof/Config.lean ====
section
/-! DEFINITION. What one module fixes and the spec leaves open: the free values. None has a body that a proof can see. -/
namespace Sys2Proof.Config

/-- A byte that the spec does not state: the n-th one asked for. Free (log 19). -/
opaque freeByte : Nat → Byte

/-- The handler entry that boot firmware writes into TVEC of every core (R134, R142, R445). Free (log 8). -/
opaque tvec : Word

/-- The bytes of the resident handler region as boot firmware loads them (R134, R445). Free (log 7). -/
opaque firmware : Nat → Byte

/-- How many fused-off sites each die has, by its remainder modulo 25 (R1, R11). Free (log 9). -/
opaque fused : Nat → Nat

/-- Where they are: the sites of a die, of which equal ones count once. Free (log 9). -/
opaque fusedSite : Nat → Nat → Nat

/-- The reserved class-P frames that boot firmware allocates: the first and how many (R341, R445). Free (log 23). -/
opaque resvFirst : Nat
opaque resvCount : Nat

/-- The digests of the measured images (R404 indices 1 to 4), 32 bytes each. Free (log 9). -/
opaque imageDigest : Nat → List Byte

/-- The block cipher AES-256 of IEEE 1619 XTS (R389, R393): key of 32 bytes, block of 16 bytes. Free (log 15). -/
opaque aes256 : List Byte → List Byte → List Byte

/-- Its inverse. Free (log 15). -/
opaque aes256Inv : List Byte → List Byte → List Byte

/-- SHA-256 of a list of bytes (R404). Free (log 15). -/
opaque sha256 : List Byte → List Byte

/-- The raw bytes that fill a save area's reserved-memory address for a context and core (R117, R118: the address of an
allocation that the spec leaves to the device). Free (log 14). -/
opaque saveBase : Nat → Nat → Word

/-- The address of a context's save-area table (R117), by its CTXID. Free (log 14). -/
opaque saveTab : Nat → Word

/-- A byte of a part of a save area whose inner layout the spec does not give, by the part, the numbers that it holds, and the byte's
place in it (R119, R120, R125, R126, R128, R129). Free (log 106). -/
opaque areaByte : Nat → List Nat → Nat → Byte

/-- How many bytes of reserved class-P memory there are for save areas (R118, R161: NORES). Free (log 23). -/
opaque areaBytes : Nat

/-- The cycles that a Locus works on a request that withdraws nothing, by its operation and the nodes made or freed (R169 charges
them, R456 states only those of a withdrawal). Free (log 97). -/
opaque locusCycles : Nat → Nat → Nat

/-- The payload of a flit of TYPE 2 to 6, by its type and what it is about (R410 gives none). Free (log 111). -/
opaque flitPayload : Nat → List Nat → List Byte

/-- Whether RSASSA-PSS with RSA-3072 and SHA-256 accepts a signature: public key, message, signature (R447). Free (log 15). -/
opaque rsaVerify : List Byte → List Byte → List Byte → Bool

/-- The signature of the device's identity key (R404): RSASSA-PSS with RSA-3072 and SHA-256. Free (log 15). -/
opaque rsaSign : List Byte → List Byte

/-- The SHA-256 digest of the root public key in fuses, and the fused minimum of the security version of each image (R447). Free (log 9). -/
opaque rootDigest : List Byte
opaque minVersion : Nat → Nat

/-- The bytes of the device configuration and of a world that index 4 and 0x10 + n of R404 measure, by the numbers that they hold; the spec
gives no layout. Free (log 128). -/
opaque measuredBytes : Nat → List Nat → List Byte

end Sys2Proof.Config
end

