-- ==== Sys2Proof/Machine/Maps.lean ====
section
/-! DEFINITION. Sparse tables in one canonical form: pairs with strictly rising keys and no entry equal to what an
unlisted key reads as. Every register file, memory and table of the machine is one of these. -/
namespace Sys2Proof.Machine

/-- A sparse table: keys strictly rising. -/
abbrev SMap (α : Type) := List (Nat × α)

namespace SMap

variable {α : Type}

/-- The entry at key `k`, where one is listed. -/
def find? : SMap α → Nat → Option α
  | [], _ => none
  | (j, v) :: t, k => if j = k then some v else find? t k

/-- What key `k` reads as; `d` is what an unlisted key reads as. -/
def get (d : α) (m : SMap α) (k : Nat) : α := (find? m k).getD d

/-- The table without key `k`. -/
def del : SMap α → Nat → SMap α
  | [], _ => []
  | (j, v) :: t, k => if j = k then del t k else (j, v) :: del t k

/-- Insert a pair before the first larger key. -/
def ins : SMap α → Nat → α → SMap α
  | [], k, v => [(k, v)]
  | (j, u) :: t, k, v => if k < j then (k, v) :: (j, u) :: t else (j, u) :: ins t k v

/-- The table with key `k` listed as `v`, whatever `v` is. -/
def put (m : SMap α) (k : Nat) (v : α) : SMap α := ins (del m k) k v

/-- The table with key `k` reading as `v`: an entry equal to the default `d` is not listed. -/
def set [DecidableEq α] (d : α) (m : SMap α) (k : Nat) (v : α) : SMap α :=
  if v = d then del m k else put m k v

/-- The table of `f` over keys `lo, lo+1, …, lo+n-1`. -/
def ofFn [DecidableEq α] (d : α) (f : Nat → α) : Nat → Nat → SMap α
  | _, 0 => []
  | lo, n + 1 => if f lo = d then ofFn d f (lo + 1) n else (lo, f lo) :: ofFn d f (lo + 1) n

/-- Keys strictly rising. -/
def sorted : SMap α → Bool
  | [] => true
  | [_] => true
  | (i, _) :: (j, v) :: t => i < j && sorted ((j, v) :: t)

/-- The canonical form: keys strictly rising and no entry equal to the default. -/
def wf [DecidableEq α] (d : α) (m : SMap α) : Bool :=
  sorted m && m.all (fun p => p.2 ≠ d)

end SMap

/-- The first position of a list where `p` holds. -/
def findIdx {α : Type} (p : α → Bool) : List α → Option Nat
  | [] => none
  | a :: t => if p a then some 0 else (findIdx p t).map (· + 1)

/-- The list without its `n`-th element. -/
def dropAt {α : Type} : List α → Nat → List α
  | [], _ => []
  | _ :: t, 0 => t
  | a :: t, n + 1 => a :: dropAt t n

/-- The list with its `n`-th element replaced by `v` (unchanged where there is none). -/
def setAt {α : Type} : List α → Nat → α → List α
  | [], _, _ => []
  | _ :: t, 0, v => v :: t
  | a :: t, n + 1, v => a :: setAt t n v

/-- The least element under a strict order, the first of equals. -/
def leastBy {α : Type} (lt : α → α → Bool) : List α → Option α
  | [] => none
  | a :: t =>
    match leastBy lt t with
    | none => some a
    | some b => if lt b a then some b else some a

/-- The minimum of a list of stamps, `none` for +infinity (R185). -/
def minStamp : List Nat → Option Nat
  | [] => none
  | a :: t =>
    match minStamp t with
    | none => some a
    | some b => some (min a b)

end Sys2Proof.Machine
end

