-- ==== Sys2Proof/Machine/State.lean ====
section
/-! DEFINITION. The state of one D90 module as plain data, and the state after device reset. A table is an `SMap`: what
an unlisted key reads as is the default named beside the field. Numbers that the machine counts with (stamps, sequence
numbers, PTIME, addresses used as keys) are `Nat`; what software reads and writes as a word is a bit vector. -/
namespace Sys2Proof.Machine

/-! ## Reasons to stop -/

/-- Why the machine stops. Raised by no instruction of the table in a state a run reaches. -/
inductive Fault where
  /-- An access to a reserved logical address (R279). No meaning raises it: no mapping can name such an address, and what a
  space map, a home slice or the debugger finds there is refused as the spec says. Safe. -/
  | reservedLogical (la : Nat)
  deriving DecidableEq, Repr

/-- Why an instruction has no meaning. -/
inductive Refusal where
  /-- The instruction is not modelled (raised by Dispatch arms only). Safe: the model stops where the part goes on. -/
  | notModelled (mnemonic : String)
  deriving DecidableEq, Repr

/-! ## Vector registers -/

/-- A vector register: 32 rows of 64 bytes (byte c of row r at key 64·r + c, unlisted 0), its scale column (row r at
key r, unlisted 0) and its format tag (R55, R59, R223). -/
structure VReg where
  data  : SMap Byte
  scale : SMap Byte
  tag   : BitVec 16
  deriving DecidableEq, Repr

/-- The zero register with tag 0x0000 (R55, R179). -/
def VReg.zero : VReg := ⟨[], [], 0⟩

/-- The states of a micro-thread (R245). -/
inductive MtRun where
  | stopped | broadcast | fetched | fault
  deriving DecidableEq, Repr

/-! ## Loops -/

/-- The iteration fetcher of a control thread (R200, R201): the active loop of one generation of a group. -/
structure Loop where
  group  : Nat
  gen    : Nat
  body   : Word
  target : Word
  claim  : Bool
  next   : Nat
  left   : Nat
  bounds : List Nat
  deriving DecidableEq, Repr

/-- The NESTQ view of one group on one core (R202): generation, state code, LEFT, and whether the core has left. -/
structure NestView where
  gen   : Nat
  st    : Nat
  left  : Nat
  out   : Bool
  bounds : List Nat
  deriving DecidableEq, Repr

def NestView.none : NestView := ⟨0, 0, 0, false, []⟩

/-! ## Micro-threads and vector registers -/

/-- What a thread held before a load that is still outstanding, kept so that an exact fault of that load leaves every
register as it was (R38, R93): its registers, its loop and its fingerprint, and `jseq`, below which lie the journal entries
of its earlier stores. `pend` lists the earlier loads then outstanding, with their destinations; `hostReads` is the number of
host reads that the thread had made (R441). -/
structure Snap where
  regs    : SMap Word
  es      : SMap Word
  ix      : SMap Word
  v       : SMap VReg
  shape   : Word
  loop    : Option Loop
  views   : SMap NestView
  crc     : Word
  jseq    : Nat
  pc      : Word
  pend    : List (Nat × Nat)
  retired : Nat
  block   : List (Nat × IWord)
  hostReads : Nat
  deriving DecidableEq, Repr

/-- A load that has issued and not yet returned (R93): its access, its destination register, its size in bytes,
whether it sign-extends, the length of its instruction, whether the thread waits for it (the instruction then retires at
the completion), and what the thread held before it. A destination of 0 means
that a later instruction has already written the register. -/
structure PendLoad where
  acc    : Nat
  dst    : Nat
  size   : Nat
  signed : Bool
  len    : Nat
  blocking : Bool
  snap   : Snap
  deriving DecidableEq, Repr

/-- A part of a longer read that has returned (R355): its place in the read, its bytes, whether they came poisoned, and
whether a FRAME answer stands for them (R354); and whether it counts among the thread's host reads (R441). -/
structure GotPart where
  off    : Nat
  bytes  : List Byte
  poison : Bool
  frame  : Bool
  host   : Bool := false
  deriving DecidableEq, Repr

/-- One micro-thread of a context on a core (R12, R120, R245). `w`, `e`: unlisted 0. `v`: unlisted `VReg.zero`.
`east` and `west` are the chords this micro-thread writes through q3 and q5. `block` holds the instructions of the
block buffer as (length, word). `mtf` is set when the micro-thread has entered FAULT since MTF was last taken (R257).
`held` is set while a debugger's hit holds the thread (R425), `skip` when it passes its comparators once (R424).
`waits` is set while a blocking access of the thread is outstanding; `got` holds the parts of a vector load that have
returned. `prog` counts the granules
that a vector store in progress has issued, and `grp` names that access. `halt` is set while the thread has still to stop at
its next boundary (R135, R245). `crc` is its fingerprint register (R383). -/
structure Mt where
  w     : SMap Word
  e     : SMap Word
  v     : SMap VReg
  shape : Word
  q0    : List Word
  east  : List Word
  west  : List Word
  pc    : Word
  run   : MtRun
  block : List (Nat × IWord)
  cause : Nat
  tval  : Word
  mtf   : Bool
  held  : Bool
  skip  : Bool
  waits : Bool
  pend  : List PendLoad
  got   : List GotPart
  prog  : Nat
  grp   : Nat
  halt  : Bool
  crc   : Word
  retired : Nat
  deriving DecidableEq, Repr

/-- A micro-thread at a context's first activation on a core (R179, R224, R245). -/
def Mt.reset : Mt :=
  { w := [], e := [], v := [], shape := 0x3F1F, q0 := [], east := [], west := [], pc := 0, run := .stopped,
    block := [], cause := 0, tval := 0, mtf := false, held := false, skip := false, waits := false, pend := [],
    got := [], prog := 0, grp := 0, halt := false, crc := 0xFFFF_FFFF_FFFF_FFFF, retired := 0 }

/-! ## Messages, actors and activations -/

/-- A message: the header of R182 and its payload. LEN is the payload's length. `poison` tells that the outbox entry that it left
from delivered it poisoned (R364). -/
structure Msg where
  stamp  : Nat
  sptime : Nat
  seq    : Nat
  saddr  : Nat
  sslot  : Nat
  flags  : Nat
  dslot  : Nat
  dchan  : Nat
  tag    : Nat
  ostamp : Nat
  payload : List Byte
  poison : Bool
  deriving DecidableEq, Repr

/-- A message held in an inbox or a message buffer: the message, PTIME of its arrival (R436), and whether it has been
delivered to its input channel (R186), and, in an inbox, the slot that it occupies: 204 times its bank's number and the slot's own
number there (R455). `poison` lists the 16-byte granules of its 320 bytes that are poisoned (R365). -/
structure Held where
  msg       : Msg
  arrival   : Nat
  delivered : Bool
  place     : Nat
  poison    : List Nat := []
  deriving DecidableEq, Repr

/-- An actor slot (R174): its descriptor as R175 lays it out, the redelivery count, and its state. An actor with no
declared input channel is no descriptor (R176), so `loaded` tells EMPTY apart. -/
inductive SlotSt where
  | empty | idle | ready | running
  deriving DecidableEq, Repr

/-- An actor descriptor (R175) with the fields the device keeps. `incnt` and `outcnt` hold one byte per channel. A
descriptor waiting for a running activation to end (R174) is held in `next`. -/
structure Desc where
  entry     : Word
  flags     : BitVec 8
  lookahead : Nat
  incnt     : BitVec 32
  outcnt    : BitVec 32
  deriving DecidableEq, Repr

structure Slot where
  st    : SlotSt
  desc  : Desc
  redlv : Nat
  next  : Option Desc
  deriving DecidableEq, Repr

/-- An EMPTY slot (R174). -/
def Slot.empty : Slot := ⟨.empty, ⟨0, 0, 0, 0, 0⟩, 0, none⟩

/-- The running activation (R179-R181): its slot, its trigger's channel, whether the trigger is an outside input, the
trigger's routing tag, whether the input set is redelivered, PTIME of the firing, and the effective class (R369). -/
structure Activation where
  slot    : Nat
  chan    : Nat
  outside : Bool
  tag     : Nat
  redl    : Bool
  fired   : Nat
  eff     : Nat
  trigger : Msg
  deriving DecidableEq, Repr

/-- A mapping request as the Locus receives it (R326, R330, R331, R336). `op` is the F3 of the instruction, 8 for the
withdrawal of a destroyed context's space (R115); MAPROOT is a MAP with `cmd` the journal
sequence number of its command (R159). `node`, `gen` and `status` are what the first byte translated to at issue; `b` is the
length. -/
structure MapReq where
  op     : Nat
  ctx    : Nat
  core   : Nat
  a      : Word
  b      : Word
  rights : BitVec 6
  e0     : Word
  e1     : Word
  e2     : Word
  e3     : Word
  stamp  : Nat
  saddr  : Nat
  node   : Option Nat
  gen    : Nat
  status : Nat
  home   : Nat
  keysel : Nat
  cmd    : Option Nat
  deriving DecidableEq, Repr

/-- A place of the outbox (R189, R191, R326): a message to a list of cores (one copy each, R210) with its
destination word, or a held mapping request. -/
inductive OutItem where
  | msg (dests : List Nat) (m : Msg) (word : Word)
  | req (r : MapReq)
  deriving DecidableEq, Repr

/-! ## Nest counters and barriers -/

/-- A join or a claim held at a root (R195-R197). -/
structure Join where
  core   : Nat
  gen    : Nat
  bounds : List Nat
  minch  : Nat
  stamp  : Nat
  deriving DecidableEq, Repr

structure Claim where
  core  : Nat
  gen   : Nat
  stamp : Nat
  deriving DecidableEq, Repr

/-- The states of a generation at its root (R196). -/
inductive NestSt where
  | idle | joining | granting | draining
  deriving DecidableEq, Repr

/-- A nest counter at its root (R195-R197): `bnd` is the bound of each member, `done` the members that have received an
empty grant or have left, `held` the joins of the next generation. -/
structure NestCtr where
  st     : NestSt
  gen    : Nat
  joins  : List Join
  held   : List Join
  claims : List Claim
  bad    : Bool
  total  : Nat
  remain : Nat
  bnd    : SMap Nat
  done   : List Nat
  gone   : List (Nat × Nat)
  deriving DecidableEq, Repr

def NestCtr.idle : NestCtr := ⟨.idle, 0, [], [], [], false, 0, 0, [], [], []⟩

/-- A barrier entry (R213) of one core, with the outcomes recorded for generations that it has not armed yet, by generation
(R214, R216: 4 aborted, 5 mismatch). -/
structure BarEntry where
  value : Word
  count : Nat
  gen   : Nat
  group : Nat
  scope : Nat
  op    : Nat
  last  : Nat
  st    : Nat
  early : SMap Nat
  deriving DecidableEq, Repr

def BarEntry.zero : BarEntry := ⟨0, 0, 0, 0, 0, 0, 0, 0, []⟩

/-! ## The matrix engine and the copy engine -/

/-- The source descriptor of a CIM half (R261) with the B bytes as the load port read them (the forward store of R274
keeps them before decryption), and the key slot and logical address that each row was read with, which an MMROT's receiver
deciphers by. Row k, byte j at key 128·k + j. -/
structure Half where
  va      : Word
  stride  : Word
  pb      : Nat
  kk      : Nat
  loaded  : Bool
  ready   : Bool
  loading : Bool
  invalid : Bool
  poison  : Bool
  slot    : Nat
  raw     : SMap Byte
  plain   : SMap Byte
  rowsAt  : List (Nat × Nat)
  deriving DecidableEq, Repr

def Half.zero : Half := ⟨0, 0, 0, 0, false, false, false, false, false, 0xFF, [], [], []⟩

/-- A CIM macro: the active half's number and both halves (R260). -/
structure Cim where
  act : Nat
  h0  : Half
  h1  : Half
  deriving DecidableEq, Repr

def Cim.zero : Cim := ⟨0, Half.zero, Half.zero⟩

/-- An accumulator tile: element (r, c) at key 128·r + c, unlisted 0, and its tag (R262). -/
structure Tile where
  acc : SMap (BitVec 32)
  tag : BitVec 16
  deriving DecidableEq, Repr

def Tile.zero : Tile := ⟨[], 0⟩

/-- Progress of a command record (R263). -/
inductive CmdSt where
  | queued | running | complete
  deriving DecidableEq, Repr

/-- A matrix command record (R125, R263): the operation (F3), tile, macro, ordering and scope fields, tag, the
e-registers read at issue, rows done, whether the B forward has been sent (of an MLDB: whether its tile is loaded), how many
forwarded halves have been accepted, whether it has ended early and only its release is still to come, status and failing
address, the activation class it runs at, and its place in the order of issue among the journal's entries. -/
structure MtxCmd where
  op     : Nat
  tile   : Nat
  mac    : Nat
  ord    : Nat
  scope  : Nat
  tag    : Nat
  e0     : Word
  e1     : Word
  e2     : Word
  e3     : Word
  rows   : Nat
  st     : CmdSt
  fwd    : Bool
  accepted : Nat
  stop   : Bool
  status : Nat
  addr   : Word
  eff    : Nat
  seq    : Nat
  deriving DecidableEq, Repr

/-- A copy in flight (R126, R302, R303); `stop` as in a matrix command. -/
structure CopyRec where
  op     : Nat
  ord    : Nat
  scope  : Nat
  tag    : Nat
  e0     : Word
  e1     : Word
  e2     : Word
  e3     : Word
  moved  : Nat
  stop   : Bool
  st     : CmdSt
  status : Nat
  addr   : Word
  lost   : Nat
  eff    : Nat
  seq    : Nat
  deriving DecidableEq, Repr

/-! ## The posted-store journal -/

/-- The states of a journal entry (R290). -/
inductive JSt where
  | free | held | sent | refused
  deriving DecidableEq, Repr

/-- A journal entry (R292) with what the device keeps of its translation. `probe` is set while the access spans
frames and waits for its probes (R355); `grp` names the access it belongs to. `ival` is 1 + the number of the
fingerprint interval that holds the entry, 0 when none does (R290). `eff` is the class it was issued at (R370). -/
structure JEntry where
  st      : JSt
  va      : Word
  data    : List Byte
  size    : Nat
  full    : Bool
  lineOp  : Nat
  cls     : Nat
  reason  : Nat
  thr     : Nat
  recNo   : Nat
  retired : Nat
  la      : Nat
  attr    : Nat
  node    : Option Nat
  poison  : Bool
  seq     : Nat
  grp     : Nat
  probe   : Bool
  ival    : Nat
  eff     : Nat
  deriving DecidableEq, Repr

def JEntry.free : JEntry :=
  ⟨.free, 0, [], 0, false, 0, 0, 0, 0, 0, 0, 0, 0, none, false, 0, 0, false, 0, 0⟩

/-- An activation record (R292). -/
structure ActRec where
  used  : Bool
  vtime : Nat
  entry : Word
  tag   : Nat
  slot  : Nat
  deriving DecidableEq, Repr

def ActRec.free : ActRec := ⟨false, 0, 0, 0, 0⟩

/-- A gate window (R398). -/
structure Window where
  base  : Word
  len   : Word
  gate  : Nat
  kinds : Nat
  isOpen : Bool
  deriving DecidableEq, Repr

def Window.closed : Window := ⟨0, 0, 0, 0, false⟩

/-- Activity counters of a context on a core (R437). -/
structure Counters where
  fired    : Nat
  failed   : Nat
  redeliv  : Nat
  ctRet    : Nat
  mtRet    : Nat
  stream   : Nat
  loadPort : Nat
  cpyBytes : Nat
  copies   : Nat
  stores   : Nat
  refusals : Nat
  parks    : Nat
  tokens   : Nat
  chk      : Nat
  deriving DecidableEq, Repr

def Counters.zero : Counters := ⟨0, 0, 0, 0, 0, 0, 0, 0, 0, 0, 0, 0, 0, 0⟩

/-- What a pre-empted pair keeps of its own state while it is out (R386, R387): whether it was running, and its counts. -/
structure PairSave where
  active   : Bool
  partner  : Bool
  byInstr  : Bool
  interval : Nat
  tiebrk   : Nat
  rollb    : Nat
  deriving DecidableEq, Repr

/-! ## A context's state on one core -/

/-- The states of a binding (R116). -/
inductive BindSt where
  | unbound | restoring | bound | saving | out
  deriving DecidableEq, Repr

/-- A waiting barrier message at a root (R215): an arrival with its value, or an abort. -/
structure BarMsg where
  id    : Nat
  group : Nat
  gen   : Nat
  op    : Nat
  scope : Nat
  value : Word
  abort : Bool
  core  : Nat
  deriving DecidableEq, Repr

/-- A notice of a barrier's outcome to a member (R214): 3 completed with its value, 4 aborted, 5 mismatch. -/
structure BarNote where
  id    : Nat
  gen   : Nat
  st    : Nat
  value : Word
  deriving DecidableEq, Repr

/-! ## The Lattice -/

/-- What travels between cores on the Lattice (R128, R191, R199, R214, R274, R326): a message, an audit or trap message
included; a nest join, claim, leave or grant; a barrier arrival or abort, or a notice; a forwarded B tile, which the receiver's load
port has taken up or not. -/
inductive Body where
  | msg (m : Msg)
  | join (g : Nat) (j : Join)
  | claim (g : Nat) (c : Claim)
  | leave (g gen : Nat)
  | grant (g gen f c : Nat) (mismatch : Bool)
  | bar (b : BarMsg)
  | note (n : BarNote)
  | tile (mac : Nat) (h : Half) (sender cmd : Nat) (taken : Bool)
  deriving DecidableEq, Repr

/-- A packet in flight: its source core (or outside address of R183), its destination core, its context. -/
structure Packet where
  src  : Nat
  dst  : Nat
  ctx  : Nat
  body : Body
  deriving DecidableEq, Repr

/-! ## The state of a binding -/

/-- The state of one context on one logical core (R114, R116, R119-R121): what the save area of R119 holds while the
binding is out, and what the core holds while it is bound. `x`, `e`, `i`: unlisted 0. `code` is the code memory as the
running activation's fetches see it (R69), by logical address, `codeFrames` the
frames it holds, and `codeGot` the halfwords of host and aperture frames that it has read; `codeHost` is host memory as the
device knew it at the start of the activation, and `codeLines` the aperture lines that its proxy slice then held. `badQ` lists the queue entries that deliver poisoned
data (R364): the thread that reads them, the queue, and the place from the oldest. `netBuf` holds what the
message buffer keeps beside messages: nest joins and claims, barrier arrivals and notices (R128, R211). `flushDue` gives, by
thread, the number of the newest access when a host write of it was last accepted, until a flushing read has followed (R307). -/
structure Bind where
  st       : BindSt
  x        : SMap Word
  e        : SMap Word
  i        : SMap Word
  pc       : Word
  act      : Option Activation
  endWait  : Bool
  vtime    : Nat
  retired  : Nat
  produced : SMap Nat
  chki     : Word
  mtmask   : Word
  mtflt    : Word
  trctl    : Word
  ebud     : BitVec 32
  ebcnt    : BitVec 32
  q1       : List (Word × Nat)
  q2       : List Word
  q3       : List Word
  wfe      : Bool
  mts      : SMap Mt
  slots    : SMap Slot
  inbox    : List Held
  msgBuf   : List Held
  netBuf   : List Packet
  outbox   : List OutItem
  bars     : SMap BarEntry
  loop     : Option Loop
  gens     : SMap Nat
  views    : SMap NestView
  lastNest : Nat
  roots    : SMap NestCtr
  journal  : SMap JEntry
  recs     : SMap ActRec
  jseq     : Nat
  cims     : SMap Cim
  tiles    : SMap Tile
  cmds     : List MtxCmd
  mErr     : Bool
  movf     : Bool
  copies   : List CopyRec
  windows  : SMap Window
  seqMsg   : Nat
  seqAns   : Nat
  seqExact : Nat
  seqAsync : Nat
  pend     : List PendLoad
  waits    : Bool
  got      : List GotPart
  mtfe     : Bool
  tepc     : Word
  pendBits : BitVec 7
  asyncVal : SMap Word
  prsn     : Nat
  savedAt  : Nat
  savedBank : Word
  savedLen : Nat
  held     : Bool
  skip     : Bool
  hostReads : SMap Nat
  flushDue : SMap Nat
  crc      : Word
  cnt      : Counters
  code     : SMap Byte
  codeFrames : List Nat
  codeGot  : List Nat
  codeHost : SMap Byte
  codeLines : List Nat
  badQ     : List (Nat × Nat × Nat)
  paired   : Option PairSave
  deriving DecidableEq, Repr

/-- A context's state on a core before its first activation there (R55, R179, R180, R213, R224, R247, R260, R271). -/
def Bind.zero : Bind :=
  { st := .unbound, x := [], e := [], i := [], pc := 0, act := none, endWait := false, vtime := 0, retired := 0,
    produced := [], chki := 0, mtmask := 0xFFFF, mtflt := 0, trctl := 0, ebud := 0, ebcnt := 0, q1 := [], q2 := [],
    q3 := [], wfe := false, mts := [], slots := [], inbox := [], msgBuf := [], netBuf := [], outbox := [], bars := [],
    loop := none, gens := [], views := [], lastNest := 0, roots := [], journal := [], recs := [],
    jseq := 0, cims := [], tiles := [], cmds := [], mErr := false, movf := false, copies := [],
    windows := [], seqMsg := 0, seqAns := 0, seqExact := 0, seqAsync := 0, pend := [], waits := false, got := [], mtfe := false,
    tepc := 0, pendBits := 0, asyncVal := [], prsn := 0, savedAt := 0, savedBank := 0, savedLen := 4, held := false,
    skip := false, hostReads := [], flushDue := [], crc := 0xFFFF_FFFF_FFFF_FFFF, cnt := Counters.zero, code := [], codeFrames := [], codeGot := [],
    codeHost := [], codeLines := [], badQ := [], paired := none }

/-! ## A core -/

/-- What a trap message carries (R136); `ptime` is PTIME at trap entry. -/
structure TrapInfo where
  code    : Nat
  slot    : Nat
  thr     : Nat
  tag     : Nat
  tval    : Word
  tepc    : Word
  entry   : Word
  vtime   : Nat
  retired : Nat
  ptime   : Nat
  deriving DecidableEq, Repr

/-- A TLB entry (R324): a 4 KiB page of a context, with a bit for each of its 32-byte granules, or a 2 MiB range; the logical
address of its first byte, the rights, the ordering attribute, and the nodes that it was made from, by granule or by page. -/
structure TlbEnt where
  ctx    : Nat
  page   : Nat
  la     : Nat
  big    : Bool
  mask   : BitVec 128
  rights : BitVec 6
  attr   : Nat
  nodes  : SMap Nat
  deriving DecidableEq, Repr

/-- A leased L1 copy of a line (R288): its 128 bytes, its poison, and its expiry. -/
structure L1Copy where
  bytes  : List Byte
  poison : BitVec 8
  expiry : Nat
  deriving DecidableEq, Repr

/-- A delay-account entry (R436). -/
structure DelayEnt where
  used    : Bool
  ctx     : Nat
  saddr   : Nat
  sslot   : Nat
  count   : Nat
  transit : Nat
  wait    : Nat
  run     : Nat
  maxSum  : Nat
  deriving DecidableEq, Repr

def DelayEnt.free : DelayEnt := ⟨false, 0, 0, 0, 0, 0, 0, 0, 0⟩

/-- A debug comparator (R424). -/
structure Comp where
  addr : Word
  cfg  : Word
  deriving DecidableEq, Repr

def Comp.off : Comp := ⟨0, 0⟩

/-- Paired execution as one core sees it (R379-R388): its mode, the interval, counts, the checkpoint, the thread state at a
close whose fingerprints are not yet compared (`shut`), the claims and leaves of loops that wait for their interval (`out`), whether the partner holds the primary's state (`step`), and a forced
close: under way (`closing`), agreed (`agreed`) at the instruction `mark`. -/
inductive PairMode where
  | off | run | rerun | tiebreak | diverged
  deriving DecidableEq, Repr

structure PairSt where
  mode     : PairMode
  partner  : Bool
  byInstr  : Bool
  interval : Nat
  tiebrk   : Nat
  rollb    : Nat
  step     : Bool
  agreed   : Bool
  closing  : Bool
  mark     : Nat
  ckpt     : Option Bind
  shut     : Option Bind
  spare    : Option Nat
  out      : List (Nat × Packet)
  deriving DecidableEq, Repr

def PairSt.none : PairSt := ⟨.off, false, false, 0, 0, 0, false, false, false, 0, Option.none, Option.none, Option.none, []⟩

/-- One logical core's own hardware (R12, R87, R132, R134, R142-R146, R208, R281, R287, R293, R369, R382, R424, R436).
`bankOwner` lists the owner of each scratch bank (R282). `hx` and `he` are the handler bank, `trapLen` the recorded
length (R133), `trapIdle` whether no activation ran when the trap was taken (R140). `icache` lists the 128-byte lines that the L1
instruction cache holds, oldest first (R12); `hcode` is what has been stored into the handler region as the core's fetches see it
(R69). `tmsg` holds the trap messages that the
handler sends at its end, each with whether its cause was asynchronous (R136). -/
structure Core where
  ctx      : Option Nat
  tvec     : Word
  tcause   : Word
  tval     : Word
  tepc     : Word
  savebase : Word
  ctxid    : Word
  hpol     : Word
  fpint    : Word
  lease    : Word
  kclass   : Word
  parkto   : Word
  gmem     : Word
  hmode    : Bool
  eact     : BitVec 2
  sbusy    : Bool
  saving   : Bool
  serr     : Bool
  trapLen  : Nat
  trapIdle : Bool
  tmsg     : List (TrapInfo × Bool)
  hpc      : Word
  hx       : SMap Word
  he       : SMap Word
  hcode    : SMap Byte
  icache   : List Nat
  bankcfg  : Word
  bankOwner : SMap Nat
  psje     : BitVec 9
  tlb      : List TlbEnt
  l1       : SMap L1Copy
  delay    : SMap DelayEnt
  comps    : SMap Comp
  pair     : PairSt
  quar     : Bool
  lastCycle : Nat
  trCnt    : SMap Nat
  deriving DecidableEq, Repr

/-- A core after device reset: BANKCFG 0x2200_0000_0000_0000 (R281), LEASE 256 (R287), FPINT 512 (R382), every other
register 0 (R142-R146, R208, R369); TVEC is set by boot firmware at boot (R445). -/
def Core.reset : Core :=
  { ctx := none, tvec := 0, tcause := 0, tval := 0, tepc := 0, savebase := 0, ctxid := 0, hpol := 0, fpint := 512,
    lease := 256, kclass := 0, parkto := 0, gmem := 0, hmode := false, eact := 0, sbusy := false,
    saving := false, serr := false, trapLen := 0, trapIdle := false, tmsg := [], hpc := 0, hx := [], he := [], hcode := [], icache := [],
    bankcfg := 0x2200_0000_0000_0000, bankOwner := [], psje := 0, tlb := [], l1 := [], delay := [],
    comps := [], pair := PairSt.none, quar := false, lastCycle := 0, trCnt := [] }

/-! ## Contexts, groups and worlds -/

/-- The states of a context (R115, offset 0x08 of R117). -/
inductive CtxSt where
  | free | live | faulted | destroying
  deriving DecidableEq, Repr

/-- A group (R203-R207): its members' addresses in ascending order, its root, and its torus. -/
structure Group where
  members : List Nat
  root    : Nat
  torus   : Bool
  tw      : Nat
  th      : Nat
  tox     : Nat
  toy     : Nat
  deriving DecidableEq, Repr

/-- A gate-table entry (R397). -/
structure GateEnt where
  base  : Word
  len   : Nat
  kinds : Nat
  other : Nat
  deriving DecidableEq, Repr

/-- A tombstoned range of a space map (R324). -/
structure Tomb where
  va  : Nat
  len : Nat
  deriving DecidableEq, Repr

/-- A context: its record (R117), its groups, its cores and partners (R205, R379), its compartment, gates and code
extent (R397), and the tombstones of its space map (R324). -/
structure Ctx where
  st       : CtxSt
  prio     : Nat
  flags    : BitVec 16
  factor   : BitVec 32
  hpol     : Word
  kclass   : Word
  lease    : Word
  parkto   : Word
  fpint    : Word
  ebud     : Word
  gtable   : Word
  account  : Nat
  savetab  : Word
  bufslots : Nat
  fcause   : Nat
  freason  : Nat
  groups   : SMap Group
  cores    : List Nat
  partners : List Nat
  comp     : Nat
  gates    : List GateEnt
  codeBase : Nat
  codeLen  : Nat
  tombs    : List Tomb
  reclaim  : Option Nat
  forced   : Bool
  freed    : Nat
  deriving DecidableEq, Repr

def Ctx.free : Ctx :=
  ⟨.free, 0, 0, 0, 0, 0, 0, 0, 0, 0, 0, 0, 0, 0, 0, 0, [], [], [], 0, [], 0, 0, [], none, false, 0⟩

/-- The states of a tenant world (R390). -/
inductive WorldSt where
  | isOpen | configured | keyed | retiring
  deriving DecidableEq, Repr

/-- A tenant world (R389-R391, R404-R406): its state, key slots (0xFF none), which keys are installed, the refused flag,
the TDI state last known (0 UNLOCKED, 1 CONFIG_LOCKED, 2 RUN, 3 ERROR), the running digest, and the IDE stream: the key
set in use for new requests and whether the stream is stopped. -/
structure World where
  st      : WorldSt
  moslot  : Nat
  doslot  : Nat
  mokey   : Bool
  dokey   : Bool
  refused : Bool
  tdi     : Nat
  digest  : List Byte
  keyset  : Nat
  oldset  : Bool
  stopped : Bool
  deriving DecidableEq, Repr

/-- A world at reset (R391), its digest 32 zero bytes (R404). -/
def World.reset : World := ⟨.isOpen, 0xFF, 0xFF, false, false, false, 0, [], 0, false, false⟩

/-- A memory key slot (R389, R405): its key pair (64 bytes, none when empty), whether it is retired, and the world it
is assigned to. -/
structure KeySlot where
  owner   : Option Nat
  key     : List Byte
  retired : Bool
  deriving DecidableEq, Repr

def KeySlot.free : KeySlot := ⟨none, [], false⟩

/-! ## Mapping tree and Locus engines -/

/-- The states of a node (R323). -/
inductive NodeSt where
  | free | valid | revoking | released
  deriving DecidableEq, Repr

/-- A mapping-tree node (R320). First child and next sibling are those of ascending node number among the nodes that
name this one as parent. `notice` is the revocation-notice destination word with the CTXID of the receiving context in
its low half (R330). `tombed` is set once its holder's translations have become tombstones (R332 phase 2). -/
structure Node where
  st     : NodeSt
  holder : Nat
  vbase  : Nat
  lbase  : Nat
  len    : Nat
  rights : BitVec 6
  attr   : Nat
  home   : Nat
  parent : Option Nat
  depth  : Nat
  gen    : Nat
  notice : Word
  conf   : Bool
  tombed : Bool
  deriving DecidableEq, Repr

def Node.free : Node := ⟨.free, 0, 0, 0, 0, 0, 0, 0, none, 0, 0, 0, false, false⟩

/-- A revocation notice waiting in a withdrawal (R456). -/
structure Notice where
  holder : Nat
  dest   : Word
  nodes  : Nat
  base   : Nat
  top    : Nat
  rights : BitVec 6
  deriving DecidableEq, Repr

/-- A withdrawal in progress at a Locus (R332): its request, the subtree roots, every node of the subtrees, the phase,
the targets that have still to take the cut, the cores that the shoot-down has still to reach and that have still to
acknowledge it, PTIME at its start, at the first shoot-down and at the last acknowledgement (R456), and whether the scrub of
a RELEASE has been sent (R338). -/
structure Withdraw where
  req    : Nat
  roots  : List Nat
  nodes  : List Nat
  phase  : Nat
  cuts   : List Nat
  shoots : List Nat
  acks   : List Nat
  since  : Nat
  shot   : Option Nat
  acked  : Nat
  scrub  : Bool
  deriving DecidableEq, Repr

/-- A request held at a Locus (R326, R327): the part of request `req` that this Locus keeps, its order of issue, and
whether it is a re-layout (R377). -/
structure LPart where
  req   : Nat
  stamp : Nat
  saddr : Nat
  order : Nat
  relay : Bool
  deriving DecidableEq, Repr

/-- A request known to one or more Loci (R326): its Loci, the one that keeps its first byte first; the parts not yet
completed; the statuses answered (unlisted OK); the nodes counted; the parts that have not yet reached the point at which
notices are sent (R456); the notices; and whether its reply destination has failed its check (R328). -/
structure ReqRec where
  req      : MapReq
  loci     : List Nat
  left     : List Nat
  statuses : SMap Nat
  nodes    : Nat
  undrained : List Nat
  notices  : List Notice
  dead     : Bool
  deriving DecidableEq, Repr

/-- A Locus engine (R327, R332, R376): its held parts, its withdrawal, PTIME at which it took up the re-layout that it runs, the
slot that it has taken for the frame that moves, and its sequence counter. -/
structure Locus where
  held : List LPart
  work : Option Withdraw
  relay : Option Nat
  slot  : Nat × Nat
  seq  : Nat
  deriving DecidableEq, Repr

def Locus.idle : Locus := ⟨[], none, none, (0, 0), 0⟩

/-! ## Frames, MXUs and host translation -/

/-- The states of a frame (R340), with the move of a re-layout (R377). -/
inductive FrameSt where
  | nonres | resident | evicting | moving
  deriving DecidableEq, Repr

/-- A logical memory frame's entry (R340, R341), its home attribute once fixed (R325), its key compartment and world
(R392: 0 none), its class, account, hold count and last access. `ckey` is the key pair under which memory holds the
frame's ciphertext while its plain bytes stand in `mem` and `dram` (R394). -/
structure Frame where
  st    : FrameSt
  cell  : Nat
  slot  : Nat
  cls   : Nat
  acct  : Nat
  pinned : Bool
  hold  : Nat
  last  : Nat
  first : Bool
  home  : Option Nat
  comp  : Nat
  vf    : Nat
  ckey  : List Byte := []
  deriving DecidableEq, Repr

/-- A frame after device reset: NONRES with backing FIRST (R341), class P (R361). -/
def Frame.reset : Frame := ⟨.nonres, 0, 0, 0, 0, false, 0, 0, true, none, 0, 0, []⟩

/-- A frame that holds reserved class-P memory: RESIDENT and pinned from boot, charged to account 128 (R341). -/
def Frame.reserved : Frame := ⟨.resident, 0, 0, 0, 128, true, 0, 0, false, none, 0, 0, []⟩

/-- A park (R342, R345): its MXU, its number, its access, the frame, the fields of its record, whether it is a page request's (PRI),
and the time that a freeze has taken from its PARKTO timer (R426). -/
structure Park where
  mxu   : Nat
  seq   : Nat
  acc   : Nat
  frame : Nat
  ctx   : Nat
  saddr : Nat
  kind  : Nat
  flags : Nat
  since : Nat
  pri   : Bool
  lost  : Nat := 0
  deriving DecidableEq, Repr

/-- A wake entry of a binding that was pre-empted by PARKTO (R141); one of a store lasts no longer than its park. -/
structure Wake where
  mxu  : Nat
  seq  : Nat
  ctx  : Nat
  core : Nat
  acc  : Nat
  page : Nat
  store : Bool
  deriving DecidableEq, Repr

/-- An MXU's own state (R342, R346, R347, R359): its next park number, the full and PRIFAIL flags, its running eviction
(the frame), and the fault records that wait for room in the ring, oldest first. -/
structure Mxu where
  nextSeq : Nat
  full    : Bool
  prifail : Bool
  evict   : Option Nat
  recs    : List Park
  deriving DecidableEq, Repr

def Mxu.reset : Mxu := ⟨0, false, false, none, []⟩

/-- An ATC entry (R358): requester ID, PASID, the page range, the physical address and the permissions. -/
structure AtcEnt where
  rid   : Nat
  pasid : Nat
  page  : Nat
  len   : Nat
  pa    : Nat
  rd    : Bool
  wr    : Bool
  deriving DecidableEq, Repr

/-- An outstanding Translation Request (R358, R360): `stale` when an overlapping invalidation has arrived since, and the IDE
key set that it was sent under (R406). -/
structure TransReq where
  rid   : Nat
  pasid : Nat
  page  : Nat
  stale : Bool
  key   : Nat
  deriving DecidableEq, Repr

/-- An outstanding Page Request (R359): the page and whether it asked for read and for write. -/
structure PageReq where
  rid   : Nat
  pasid : Nat
  page  : Nat
  rd    : Bool
  wr    : Bool
  answered : Bool
  deriving DecidableEq, Repr

/-- What the host has written into a function's ATS and PRI capabilities (R357, R359): the two enables and the allocation of
outstanding Page Requests. -/
structure Cap where
  ats   : Bool
  pri   : Bool
  alloc : Nat
  deriving DecidableEq, Repr

/-- A function's capabilities before the host has written them (log 109). -/
def Cap.reset : Cap := ⟨false, false, 0⟩

/-- An ATS Invalidation Request in progress (R360): the accesses it waits for. -/
structure Inval where
  rid   : Nat
  pasid : Nat
  base  : Nat
  len   : Nat
  waits : List Nat
  deriving DecidableEq, Repr

/-! ## Accesses in flight -/

/-- What an access does (R289): the kinds of R345 with their operands, the flushing read of R307, a line asked for by PREFETCH
(R300), and a read (no data) or
write of the matrix or copy engine, whose accesses belong to thread 17 or 18 and name their command in `off`, and a write of the host
over CXL.mem (R408). -/
inductive AccKind where
  | load
  | fullLoad (clear : Bool)
  | amo (op : Nat) (b c : Word)
  | vload
  | fetch
  | store (entry : Nat)
  | probe (grp : Nat)
  | flush
  | prefetch
  | engine (data : Option (List Byte)) (poison : Bool)
  | cxl (data : List Byte)
  deriving DecidableEq, Repr

/-- Where an access stands: sent and not arrived; parked at an MXU; waiting at its requester for a place in a park table (R342); waiting at its home for leases or at its bank for a
full granule; waiting for a page or a translation of the host; its value or completion on the way back; performed or
refused with the cause or reason and the address; answered FRAME. -/
inductive AccSt where
  | flying
  | parked
  | parkWait
  | leaseWait
  | fullWait
  | hostWait
  | hostOut
  | valued (bytes : List Byte) (poison : Bool) (frameAns : Bool)
  | done
  | refused (code : Nat)
  deriving DecidableEq, Repr

/-- An access that has left its thread (R289, R342). `thr` is 0 for the control thread, 1 + n for mn. `off` is the
place of these bytes in a longer access. `arr` is its arrival order at its target once it has arrived. `key` is the IDE
key set of its host request (R406). `pa` is the host address of a translated request. `rel` is 1 + the number of the park that it was
released from, 0 when it was not (R343). `planes` is how many bytes a part of a plane-major read takes of each 128, 0 when it takes all
(R233, R355). -/
structure Acc where
  id    : Nat
  core  : Nat
  ctx   : Nat
  thr   : Nat
  kind  : AccKind
  st    : AccSt
  va    : Word
  la    : Nat
  size  : Nat
  off   : Nat
  attr  : Nat
  node  : Option Nat
  eff   : Nat
  arr   : Nat
  key   : Nat
  pa    : Nat
  ordinal : Nat
  rel   : Nat := 0
  planes : Nat := 0
  deriving DecidableEq, Repr

/-! ## Launch queues, journal, Apex -/

/-- A command accepted into the command journal (R162), with its entry's fields that the effect reads (R157), the function's
policy block at acceptance (R170), whether it has started, and whether its outcome is known. -/
structure Cmd where
  seq    : Nat
  ptime  : Nat
  stamp  : Nat
  fn     : Nat
  queue  : Nat
  opc    : Nat
  done   : Bool
  entry  : Nat
  tag    : BitVec 32
  status : Nat
  ctxid  : Nat
  ctime  : Nat
  result : Word
  flags  : Nat
  cpladdr : Word
  args   : List Byte
  fpcfg  : Word
  fpacct : Word
  started : Bool
  ready  : Bool
  deriving DecidableEq, Repr

/-- A launch queue's place (R151, R155): its state code of LQSTAT and PTIME at which it went OUT. -/
structure LQueue where
  outSince : Nat
  deriving DecidableEq, Repr

/-- A budget account (R166-R171): what Apex has applied, the balance and the debt, the tokens used in this period, whether
it is exhausted until the next refill, and the account that lends to it now. -/
structure Account where
  refill  : Nat
  debtmax : Nat
  lend    : Bool
  reserve : Nat
  bal     : Nat
  debt    : Nat
  used    : Nat
  dry     : Bool
  lender  : Option Nat
  deriving DecidableEq, Repr

def Account.zero : Account := ⟨0, 0, false, 0, 0, 0, 0, false, none⟩

/-- A function's activity spent in this period at each unit (R169): memory-link slots by link, Locus cycles by Locus,
copy bytes, fabric flits by port, and the limits Apex has applied. -/
structure Activity where
  mem   : SMap Nat
  loc   : SMap Nat
  cpy   : Nat
  fab   : SMap Nat
  limMem : Nat
  limLoc : Nat
  limCpy : Nat
  limFab : Nat
  deriving DecidableEq, Repr

def Activity.zero : Activity := ⟨[], [], 0, [], 0, 0, 0, 0⟩

/-! ## Links, debug and management -/

/-- The states of a Skonov port (R412, R413). -/
inductive PortSt where
  | disabled | training | up | retrain | quiesced | failed
  deriving DecidableEq, Repr

/-- A Skonov port (R410-R414): its registers' fields, the replay buffer (flits as bytes, oldest first), the next SEQ to
send, the next SEQ expected, whether a NAK has been sent since the last flit taken in order, the next end-to-end tag, its count of
arrivals, and the good lanes at its last training. -/
structure Port where
  st      : PortSt
  en      : Bool
  width   : Nat
  spared  : Nat
  replays : Nat
  buf     : List (List Byte)
  nextSeq : Nat
  expect  : Nat
  nakSent : Bool
  nextTag : Nat
  arrivals : Nat
  lanes   : Nat
  deriving DecidableEq, Repr

/-- A port after device reset (R412). -/
def Port.reset : Port := ⟨.disabled, false, 0, 0xFF, 0, [], 0, 0, false, 0, 0, 0⟩

/-- A flit that waits for a Skonov port (R169, R410, R414): the function that it is charged to, none for the device's own traffic, its
TYPE, its destination module, and its payload. -/
structure FabOut where
  fn      : Option Nat
  type    : Nat
  dst     : Nat
  payload : List Byte
  deriving DecidableEq, Repr

/-- A line of another module held by this module's proxy slice (R416, R417), or a pending miss on it. -/
structure Proxy where
  st      : Nat
  missing : Bool
  inval   : Option Nat
  invWait : Bool
  orphan  : Bool
  deriving DecidableEq, Repr

/-- What DBGSTAT, DBGADDR, DBGVT and DBGENT show beside STATE (R423): they are written on entry to STOPPED (R425). -/
structure DbgSeen where
  cause   : Nat
  hitcore : Nat
  hitthr  : Nat
  comp    : Nat
  tag     : Nat
  slot    : Nat
  addr    : Word
  vtime   : Nat
  entry   : Word
  deriving DecidableEq, Repr

def DbgSeen.zero : DbgSeen := ⟨0, 0, 0, 0, 0, 0, 0, 0, 0⟩

/-- The debug session (R423-R429). `mode` is DBGSTAT.STATE; `cause`, `hit*` and `comp` are its fields; `core` is the core
that is stopped or stepped alone, `frozeAt` PTIME at which the stop took hold; `stepped` lists the threads that have
executed their instruction of a STEP (R429); `skip` is DBGCTL.SKIP; `thermal` tells of a freeze by heat (R451), and `hotAt` when it began; `seen` is what the registers
show of the last stop. -/
structure Debug where
  mode    : Nat
  cause   : Nat
  hitcore : Nat
  hitthr  : Nat
  comp    : Nat
  tag     : Nat
  slot    : Nat
  isOpen  : Bool
  isLocal : Bool
  ctxid   : Nat
  addr    : Word
  vtime   : Nat
  entry   : Word
  vstop   : Bool
  stepped : List Nat
  thermal : Bool
  since   : Nat
  core    : Nat
  frozeAt : Nat
  skip    : Bool
  seen    : DbgSeen
  hotAt   : Nat
  deriving DecidableEq, Repr

def Debug.off : Debug := ⟨0, 0, 0, 0, 0, 0, 0, false, false, 0, 0, 0, 0, false, [], false, 0, 0, 0, false, DbgSeen.zero, 0⟩

/-- Power measurement of the window in progress (R450): the sum and number of its samples, the last sample, whether the cap
was lowered in it, the two demands on GATE, and whether a write has asked for a new window; `capNow` and `winNow` are the
cap and the length that the window in progress goes by. -/
structure Power where
  sum    : Nat
  count  : Nat
  last   : Nat
  lowered : Bool
  gateCap : Nat
  gateHot : Nat
  restart : Bool
  capNow : Nat
  winNow : Nat
  deriving DecidableEq, Repr

/-- The host port (R407-R409): its state, and whether a host shares a line (HOSTHELD), and the invalidations sent that
await their BIRsp. -/
structure HostPort where
  up       : Bool
  width    : Nat
  hostHeld : List Nat
  snooped  : List Nat
  deriving DecidableEq, Repr

/-- A context error record written to the host (R138, R328, R354, R422): PTIME, CTXID, core, a code. -/
structure CtxErr where
  ptime : Nat
  ctx   : Nat
  core  : Nat
  code  : Nat
  deriving DecidableEq, Repr

/-- A record on its way to a function's replay log (R440, R441): the function, the stamp it is ordered by, the sender
address and sequence number that break ties, and its slots' bytes. -/
structure LogRec where
  fn    : Nat
  stamp : Nat
  saddr : Nat
  seq   : Nat
  bytes : List Byte
  deriving DecidableEq, Repr

/-! ## The schedule -/

/-- Which thread the next fetched instruction belongs to: a core and 0 for its control thread, 1 + n for mn. -/
structure Focus where
  core : Nat
  thr  : Nat
  deriving DecidableEq, Repr

/-- What reaches the module from outside and is no row of the opcode table (log 130). -/
inductive Outside where
  /-- The host writes the ATS and PRI capabilities of a function (R357, R359). -/
  | capability (fn : Nat) (k : Cap)
  /-- The TDISP interface of a virtual function changes its state (R390, R401, R406). -/
  | tdi (vf st : Nat)
  /-- A measurement of a function is asked for over SPDM, with a nonce (R404). -/
  | spdm (fn index : Nat) (nonce : List Byte)
  /-- An AtomicOp that targets a BAR (R407). -/
  | barAtomic (fn addr : Nat)
  /-- Another module asks this home for a line, to share it or alone (R416). -/
  | remoteGrant (module line : Nat) (alone : Bool)
  /-- Another module answers an invalidation or a recall of this home, with the line where it had changed it (R307, R416). -/
  | remoteAck (line : Nat) (data : Option (List Byte))
  /-- A module that had failed is back (R418, R419). -/
  | moduleReturned (module : Nat)
  /-- The package's power is taken and given again (R451). -/
  | powerCycle
  deriving DecidableEq, Repr

/-- One entry of the schedule (the model's own, see the assumption log): a device step, an instruction fetched and run
by a thread, time that passes, the host's own write of host memory, or another outside input. -/
inductive Action where
  | event (i : Instr)
  | turn (core thr : Nat)
  | elapse (ns : Nat)
  | host (addr : Nat) (bytes : List Byte)
  | outside (x : Outside)
  deriving DecidableEq, Repr

/-! ## The machine -/

/-- One D90 module. Memory (`mem`, the coherent view of the home slices and of the scratch banks, by logical address;
`dram`, the contents of main memory; `host`, host memory as the device has seen it, by host address; `hmem`, the
resident handler region where something has been stored into it) lists bytes that do not read as 0x00.
`poison` and `dpoison` list poisoned 16-byte granules of `mem` and of main memory, `full` the full granules of scratch
and FIFO banks, `dirty` the lines whose home slice holds newer data than main memory, `l2` the lines that a home slice holds, `lease` the latest lease granted
on each line, all by granule or line number. `remote` lists the module's own lines that other modules hold, as their directory has it: 1 shared, 2 by
one module alone, 3 being recalled from it; `remoteInv` those whose invalidation is not acknowledged (R307, R416). `fabTags` lists the flits
accepted so far by source module and tag, `fabOut` the flits that wait for a port, and `fabIn` the payloads of message flits accepted whose
message has not arrived yet (R410, R411, R414, R422). `resv` is the run of reserved class-P frames that boot has allocated (R341, R445): the first and how
many; `frames` lists the others that have left their reset state. `regs` holds the memory-mapped registers of R152, R162, R170, R171, R344,
R351, R356, R376, R391, R412, R415, R419, R422, R423, R435, R438, R440, R448, R449, R451, R452 by function, BAR and
offset; an unlisted register reads its reset value. `digests` holds the measurements of the images that boot has loaded (R447), and `rpAhead`
how many slots beyond RPHEAD the injection of each function's replay log has gone (R442). -/
structure State where
  focus    : Focus
  agenda   : List Action
  nextFree : Nat
  ptime    : Nat
  floor    : Nat
  cores    : SMap Core
  binds    : SMap Bind
  ctxs     : SMap Ctx
  mem      : SMap Byte
  dram     : SMap Byte
  host     : SMap Byte
  hmem     : SMap Byte
  poison   : SMap Bool
  dpoison  : SMap Bool
  full     : SMap Bool
  dirty    : SMap Bool
  l2       : SMap Bool
  leases   : SMap Nat
  frames   : SMap Frame
  resv     : Nat × Nat
  cells    : SMap (Nat × List Nat)
  used     : SMap Nat
  pinnedCnt : SMap Nat
  accs     : List Acc
  nextAcc  : Nat
  arrivals : Nat
  parks    : List Park
  wakes    : List Wake
  mxus     : SMap Mxu
  atc      : List AtcEnt
  treqs    : List TransReq
  preqs    : List PageReq
  invals   : List Inval
  caps     : SMap Cap
  net      : List Packet
  nodes    : SMap Node
  loci     : SMap Locus
  reqs     : SMap ReqRec
  nextReq  : Nat
  regs     : SMap Word
  lqs      : SMap LQueue
  journal  : SMap Cmd
  jnext    : Nat
  slotTab  : SMap (BitVec 128)
  areas    : SMap Bind
  accounts : SMap Account
  period   : Nat
  activity : SMap Activity
  worlds   : SMap World
  keys     : SMap KeySlot
  hostPort : HostPort
  ports    : SMap Port
  proxies  : SMap Proxy
  remote   : SMap Nat
  remoteInv : List Nat
  failedMods : List Nat
  msi      : List (Nat × Nat)
  ctxErrs  : List CtxErr
  errWait  : List (List Byte)
  sent     : List (List Byte)
  dbg    : Debug
  scan     : Option (List Byte)
  power    : Power
  freeze   : Bool
  powered  : Bool
  tripped  : Bool
  coreMap  : SMap Nat
  spares   : SMap Nat
  quarSites : List Nat
  cxlOut   : List Byte
  traceLost : SMap Nat
  logWait  : List LogRec
  fabTags  : List (Nat × Nat)
  fabOut   : List FabOut
  fabIn    : List (List Byte)
  digests  : SMap (List Byte)
  rpAhead  : SMap Nat
  deriving DecidableEq, Repr

/-- The machine right after device reset, before the boot steps of R445 have run. Registers without a listed entry read
their reset values; every core is `Core.reset`; no context exists; every frame is NONRES (R341); FLOOR, PTIME and the
journal start at 0 (R180, R162; PTIME: log 2). -/
def State.reset : State :=
  { focus := ⟨0, 0⟩, agenda := [], nextFree := 0, ptime := 0, floor := 0, cores := [], binds := [], ctxs := [], mem := [],
    dram := [], host := [], hmem := [], poison := [], dpoison := [], full := [], dirty := [], l2 := [], leases := [],
    frames := [], resv := (0, 0), cells := [], used := [], pinnedCnt := [], accs := [], nextAcc := 0, arrivals := 0, parks := [],
    wakes := [], mxus := [], atc := [], treqs := [], preqs := [], invals := [], caps := [], net := [], nodes := [], loci := [],
    reqs := [], nextReq := 0, regs := [], lqs := [], journal := [], jnext := 0, slotTab := [], areas := [], accounts := [], period := 0,
    activity := [], worlds := [], keys := [], hostPort := ⟨false, 0, [], []⟩, ports := [],
    proxies := [], remote := [], remoteInv := [], failedMods := [], msi := [], ctxErrs := [], errWait := [], sent := [], dbg := Debug.off,
    scan := none, power := ⟨0, 0, 0, false, 0, 0, false, 1800, 10⟩, freeze := false, powered := true, tripped := false, coreMap := [],
    spares := [], quarSites := [], cxlOut := [], traceLost := [], logWait := [],
    fabTags := [], fabOut := [], fabIn := [], digests := [], rpAhead := [] }

end Sys2Proof.Machine
end

