-- ==== Sys2Proof/Machine/Bits.lean ====
section
/-! DEFINITION. Bit-field access, sign extension and byte order: the helpers every other file uses (R3, R37, R71). -/
namespace Sys2Proof.Machine

/-- Bits lo..lo+len-1 of a word, as a number (R3). -/
def fld {n : Nat} (w : BitVec n) (lo len : Nat) : Nat := w.toNat / 2 ^ lo % 2 ^ len

/-- The word with bits lo..lo+len-1 replaced by `v`. -/
def setFld {n : Nat} (w : BitVec n) (lo len v : Nat) : BitVec n :=
  BitVec.ofNat n (w.toNat - w.toNat / 2 ^ lo % 2 ^ len * 2 ^ lo + v % 2 ^ len * 2 ^ lo)

/-- Bit `i` of a word. -/
def bit {n : Nat} (w : BitVec n) (i : Nat) : Bool := w.getLsbD i

/-- 1 for true. -/
def b2n (b : Bool) : Nat := if b then 1 else 0

/-- 1 or 0 as a register value. -/
def boolW (b : Bool) : Word := if b then 1 else 0

/-- Sign extension to 64 bits (R37). -/
def sext {n : Nat} (v : BitVec n) : Word := v.signExtend 64

/-- Zero extension to 64 bits (R37). -/
def zext {n : Nat} (v : BitVec n) : Word := v.setWidth 64

/-- A register value extended from its low `8·n` bits (R295). -/
def extendLoad (signed : Bool) (n : Nat) (v : Nat) : Word :=
  if signed then wInt (if v % 2 ^ (8 * n) < 2 ^ (8 * n - 1) then (v % 2 ^ (8 * n) : Nat)
    else (v % 2 ^ (8 * n) : Nat) - (2 ^ (8 * n) : Nat))
  else w64 (v % 2 ^ (8 * n))

/-- Bit `i` of a natural number. -/
def nbit (n i : Nat) : Bool := n / 2 ^ i % 2 = 1

/-- A word with bit `i` set. -/
def setBit {n : Nat} (w : BitVec n) (i : Nat) : BitVec n := w ||| BitVec.ofNat n (2 ^ i)

/-- A word with bit `i` clear. -/
def clrBit {n : Nat} (w : BitVec n) (i : Nat) : BitVec n := w &&& ~~~ BitVec.ofNat n (2 ^ i)

/-- Rounding up a division. -/
def ceilDiv (a b : Nat) : Nat := (a + b - 1) / b

/-- The pieces of `n` bytes at `a` that lie each within one aligned block of `g` bytes: (address, size), ascending. -/
def piecesFrom (g : Nat) : Nat → Nat → Nat → List (Nat × Nat)
  | 0, _, _ => []
  | k + 1, a, n =>
    if n = 0 then []
    else
      let m := min n (g - a % g)
      (a, m) :: piecesFrom g k (a + m) (n - m)

/-- The pieces of `n` bytes at `a` by blocks of `g` bytes (R232, R302, R309). -/
def pieces (g a n : Nat) : List (Nat × Nat) := piecesFrom g (n / g + 2) a n

/-- The mask of 16 micro-threads as a list of numbers. -/
def mtList (sel : Nat) : List Nat := (List.range 16).filter (nbit sel)

end Sys2Proof.Machine
end

