-- ==== Sys2Proof/Machine/Mmio.lean ====
section
/-! DEFINITION. The memory-mapped registers: where each stands, what an unlisted one reads, and plain access. -/
namespace Sys2Proof.Machine

/-- The key of a register: function (128 is the physical function), BAR and offset. -/
def regKey (fn bar off : Nat) : Nat := (fn * 8 + bar) * 2 ^ 24 + off

/-- A register of the physical function's BAR 0. -/
def pfReg (off : Nat) : Nat := regKey 128 0 off

/-- What a register reads after device reset, where that is not zero (R170, R438, R449). -/
def resetReg (k : Nat) : Word :=
  if k = pfReg (0xD_0000 + 0x40 * 128) then 0xF007
  else if k = pfReg (0xD_0000 + 0x40 * 128 + 8) then w64 (1023 * 2 ^ 32)
  else if k = pfReg (0xD_0000 + 0x40 * 128 + 0x10) then 0xFFFF_FFFF
  else if k = pfReg (0xD_0000 + 0x40 * 128 + 0x18) then 0xFFFF_FFFF
  else if k = pfReg (0xD_0000 + 0x40 * 128 + 0x20) then 0xFFFF_FFFF_FFFF_FFFF
  else if k = pfReg (0xD_0000 + 0x40 * 128 + 0x28) then 0xFFFF_FFFF
  else if k = pfReg 0x900 then 1800
  else if k = pfReg 0x908 then 10
  else if k < pfReg 0 && k % (8 * 2 ^ 24) = 2 * 2 ^ 24 + 0x20A0 then 0x40
  else if pfReg 0xD_0000 ≤ k && k < pfReg (0xD_0000 + 0x40 * 128) && (k - pfReg 0xD_0000) % 0x40 = 8 then 1
  else 0

/-- The stored value of a register. -/
def State.reg (s : State) (k : Nat) : Word := (SMap.find? s.regs k).getD (resetReg k)

/-- Store a register. A value equal to its reset value is not listed. -/
def State.setReg (s : State) (k : Nat) (v : Word) : State :=
  { s with regs := if v = resetReg k then SMap.del s.regs k else SMap.put s.regs k v }

/-- Store one field of a register. -/
def State.setRegFld (s : State) (k lo len v : Nat) : State := s.setReg k (setFld (s.reg k) lo len v)

/-- Register `o` of MXU n (R344). -/
def mxuReg (n o : Nat) : Nat := pfReg (0x1_0000 + 0x100 * n + o)

/-- HWBASE (o = 0) and HWCFG (o = 8) of host window n (R356). -/
def hwReg (n o : Nat) : Nat := pfReg (0x1_2000 + 0x10 * n + o)

/-- FGB (o = 0) of account a (R351). -/
def fgbReg (a : Nat) : Nat := pfReg (0x1_3000 + 0x10 * a)

/-- Register `o` of function f's policy block (R170). -/
def fpReg (f o : Nat) : Nat := pfReg (0xD_0000 + 0x40 * f + o)

end Sys2Proof.Machine
end

