-- ==== Sys2Proof/Machine/Base.lean ====
section
/-! DEFINITION. The parts of the state by name, logical regions, translation by the space map, and memory's bytes with
their poison and full bits. -/
namespace Sys2Proof.Machine

/-- Bytes of the host cut or padded to a length. -/
def fitBytes (n : Nat) (bs : List Byte) : List Byte := (bs ++ List.replicate n 0).take n

/-! ## Access to the parts of the state -/

def State.core (s : State) (c : Nat) : Core := SMap.get Core.reset s.cores c

def State.setCore (s : State) (c : Nat) (k : Core) : State := { s with cores := SMap.set Core.reset s.cores c k }

def State.modCore (s : State) (c : Nat) (f : Core → Core) : State := s.setCore c (f (s.core c))

/-- The key of a context's state on a core. -/
def bindKey (ctx c : Nat) : Nat := ctx * 2048 + c

def State.bind (s : State) (ctx c : Nat) : Bind := SMap.get Bind.zero s.binds (bindKey ctx c)

def State.setBind (s : State) (ctx c : Nat) (b : Bind) : State :=
  { s with binds := SMap.set Bind.zero s.binds (bindKey ctx c) b }

def State.modBind (s : State) (ctx c : Nat) (f : Bind → Bind) : State := s.setBind ctx c (f (s.bind ctx c))

/-- The number that stands for no context: no CTXID has it. -/
def noCtx : Nat := 2 ^ 32

/-- The context bound to a core (R114). -/
def State.ctxOf (s : State) (c : Nat) : Nat := (s.core c).ctx.getD noCtx

/-- The state of the context bound to a core. -/
def State.cur (s : State) (c : Nat) : Bind := s.bind (s.ctxOf c) c

def State.modCur (s : State) (c : Nat) (f : Bind → Bind) : State := s.modBind (s.ctxOf c) c f

def State.ctx (s : State) (n : Nat) : Ctx := SMap.get Ctx.free s.ctxs n

def State.modCtx (s : State) (n : Nat) (f : Ctx → Ctx) : State :=
  { s with ctxs := SMap.set Ctx.free s.ctxs n (f (s.ctx n)) }

def Bind.mt (b : Bind) (n : Nat) : Mt := SMap.get Mt.reset b.mts n

def Bind.modMt (b : Bind) (n : Nat) (f : Mt → Mt) : Bind := { b with mts := SMap.set Mt.reset b.mts n (f (b.mt n)) }

def State.modMt (s : State) (c n : Nat) (f : Mt → Mt) : State := s.modCur c (fun b => b.modMt n f)

def Bind.slot (b : Bind) (n : Nat) : Slot := SMap.get Slot.empty b.slots n

def Bind.modSlot (b : Bind) (n : Nat) (f : Slot → Slot) : Bind :=
  { b with slots := SMap.set Slot.empty b.slots n (f (b.slot n)) }

/-- Whether a debug stop or a freeze by heat holds a core (R425-R427, R429, R451); a save that has begun completes first
(R426). -/
def State.stopped (s : State) (c : Nat) : Bool :=
  let d := s.dbg
  (d.thermal || (d.mode = 2 && (!d.isLocal || c = d.core)) || (d.mode = 3 && !d.isLocal && c ≠ d.core)) &&
    !((s.cur c).st = .saving)

/-- Whether it holds the whole device: its Locus engines, its launch queues, Apex, and what its ports accept (R426). -/
def State.halted (s : State) : Bool := s.dbg.thermal || ((s.dbg.mode = 2 || s.dbg.mode = 3) && !s.dbg.isLocal)

/-- The function that owns a context: 128 for the physical function, else its VF (R144). -/
def ctxFn (ctx : Nat) : Nat := if nbit ctx 31 then 128 else ctx / 2 ^ 24 % 128

/-- The host-root contexts (R319). -/
def isRoot (ctx : Nat) : Bool := nbit ctx 31

/-- The sender address of core (x, y) (R183). -/
def coreAddr (x y : Nat) : Nat := x + 64 * y

/-- A core address on the grid (R10, R285): x at most 63 and y at most 30. -/
def onGrid (x y : Nat) : Bool := x ≤ 63 && y ≤ 30

/-! ## Logical regions (R279, R280) -/

/-- What a logical address names (R279). -/
inductive Region where
  | memory
  | host
  | scratch (core bank off : Nat)
  | reserved
  deriving DecidableEq, Repr

/-- The base of the global scratch window (R280). -/
def scratchBase : Nat := 0xC000_0000_0000

def region (la : Nat) : Region :=
  if la < 0x8000_0000_0000 then .memory
  else if la < scratchBase then .host
  else if la < 0xC000_F800_0000 then
    .scratch ((la - scratchBase) / 2 ^ 21) ((la - scratchBase) / 2 ^ 17 % 16) ((la - scratchBase) % 2 ^ 17)
  else .reserved

/-- The logical address of a byte of a bank (R280). -/
def scratchLa (c b off : Nat) : Nat := scratchBase + c * 2 ^ 21 + b * 2 ^ 17 + off

def isMemory (la : Nat) : Bool := la < 0x8000_0000_0000

def isHost (la : Nat) : Bool := 0x8000_0000_0000 ≤ la && la < scratchBase

def isScratch (la : Nat) : Bool := scratchBase ≤ la && la < 0xC000_F800_0000

/-- A scratch bank of core `c` itself. -/
def isOwnBank (c la : Nat) : Bool := isScratch la && (la - scratchBase) / 2 ^ 21 = c

/-- A frame of another module's memory (R415). -/
def isAperture (la : Nat) : Bool := isMemory la && la / 2 ^ 42 % 32 ≠ 0

/-- The mode of a bank of a core (R281): 0 cache, 1 scratch, 2 FIFO. -/
def State.bankMode (s : State) (c b : Nat) : Nat := fld (s.core c).bankcfg (4 * b) 2

/-- The class of a bank (R281). -/
def State.bankClass (s : State) (c b : Nat) : Nat := fld (s.core c).bankcfg (4 * b + 2) 2

/-- Whether a bank answers `n` bytes at an offset (R280). -/
def State.bankAnswers (s : State) (c b off n : Nat) : Bool :=
  s.bankMode c b = 1 && off + n ≤ (if s.bankClass c b = 2 then 0x1_2000 else 0x1_0000)

/-- The reserved class-P frames (R341). -/
def State.isResv (s : State) (n : Nat) : Bool := s.resv.1 ≤ n && n < s.resv.1 + s.resv.2

/-- A frame that `frames` does not list. -/
def State.frameBase (s : State) (n : Nat) : Frame := if s.isResv n then Frame.reserved else Frame.reset

def State.frame (s : State) (n : Nat) : Frame := SMap.get (s.frameBase n) s.frames n

def State.modFrame (s : State) (n : Nat) (f : Frame → Frame) : State :=
  { s with frames := SMap.set (s.frameBase n) s.frames n (f (s.frame n)) }

/-- The class of the memory at a logical address (R281, R340): host frames and reserved addresses count as class P. -/
def State.classAt (s : State) (la : Nat) : Nat :=
  match region la with
  | .memory => (s.frame (la / 4096)).cls
  | .scratch c b _ => s.bankClass c b
  | _ => 0

/-- The home core that a home attribute gives a line (R285, R286). -/
def homeOf (attr la : Nat) : Nat :=
  if nbit attr 31 then
    let xlo := attr / 2 ^ 24 % 64
    let xhi := attr / 2 ^ 16 % 64
    let ylo := attr / 2 ^ 8 % 32
    let yhi := attr % 32
    let w := xhi - xlo + 1
    let n := w * (yhi - ylo + 1)
    let r := la / 128 % n
    coreAddr (xlo + r % w) (ylo + r / w)
  else attr % 2 ^ 11

/-- The home core of a line; core 0 where no home has been fixed (log 18). -/
def State.homeCore (s : State) (la : Nat) : Nat := homeOf ((s.frame (la / 4096)).home.getD 0) la

/-! ## Translation (R319-R324) -/

/-- A translation: the logical address, rights, ordering attribute, the node it is made through, and whether its node is
a stripe. -/
structure Xlat where
  la     : Nat
  rights : BitVec 6
  attr   : Nat
  node   : Option Nat
  big    : Bool
  deriving DecidableEq, Repr

/-- What a virtual address names in a context. -/
inductive Look where
  | unmapped
  | tomb
  | hit (x : Xlat)
  deriving DecidableEq, Repr

def State.node (s : State) (n : Nat) : Node := SMap.get Node.free s.nodes n

def State.modNode (s : State) (n : Nat) (f : Node → Node) : State :=
  { s with nodes := SMap.set Node.free s.nodes n (f (s.node n)) }

/-- The length that marks a stripe: 32 frames of one Locus in 2 MiB (R322). -/
def stripeLen : Nat := 2 ^ 21

/-- The virtual address of the start of the 2 MiB range that a stripe lies in. -/
def Node.stripeBase (n : Node) : Nat := n.vbase - n.lbase % stripeLen

/-- The frames of a stripe, as offsets from its first frame: one in every sixteen of 2 MiB (R322). -/
def stripeOffs : List Nat := (List.range 32).map (fun k => 65536 * k)

/-- The virtual pieces of a node: address and bytes. -/
def Node.vaParts (n : Node) : List (Nat × Nat) :=
  if n.len = stripeLen then stripeOffs.map (fun k => (n.vbase + k, 4096)) else [(n.vbase, n.len)]

/-- Two half-open ranges meet. -/
def meets (a n b m : Nat) : Bool := a < b + m && b < a + n

/-- The logical address of a virtual address that a node covers (R322). -/
def Node.toLa (n : Node) (va : Nat) : Option Nat :=
  if n.len = stripeLen then
    let v0 := n.stripeBase
    if v0 ≤ va && va < v0 + stripeLen && (va - v0) / 4096 % 16 = n.lbase / 4096 % 16 then
      some (n.lbase - n.lbase % stripeLen + (va - v0))
    else none
  else if n.vbase ≤ va && va < n.vbase + n.len then some (n.lbase + (va - n.vbase)) else none

/-- The attribute of a host-root context's own mapping (R319; log 18): RC. -/
def rootAttr : Nat := 1

/-- A node through which its holder still translates: VALID, or REVOKING before its tombstones (R323, R332). -/
def Node.maps (n : Node) : Bool := n.st = .valid || (n.st = .revoking && !n.tombed)

/-- The walk of a context's space map (R319, R324). -/
def State.walk (s : State) (ctx va : Nat) : Look :=
  if isRoot ctx then
    if va < 2 ^ 48 && region va ≠ .reserved then .hit ⟨va, 0x3F, rootAttr, none, false⟩ else .unmapped
  else if (s.ctx ctx).tombs.any (fun t => t.va ≤ va && va < t.va + t.len) then .tomb
  else
    match List.find? (fun (p : Nat × Node) => p.2.maps && p.2.holder = ctx && (p.2.toLa va).isSome) s.nodes with
    | some (k, n) => .hit ⟨(n.toLa va).getD 0, n.rights, n.attr, some k, n.len = stripeLen⟩
    | none => .unmapped

/-- The bytes that a TLB entry stands for. -/
def TlbEnt.size (e : TlbEnt) : Nat := if e.big then stripeLen else 4096

/-- Whether an entry translates an address: it lies in its range, and of a 4 KiB entry its granule's bit is set. -/
def TlbEnt.covers (e : TlbEnt) (va : Nat) : Bool :=
  e.page ≤ va && va < e.page + e.size && (e.big || bit e.mask ((va - e.page) / 32))

/-- A TLB entry of a core for an address (R324). -/
def State.tlbHit (s : State) (c ctx va : Nat) : Option Xlat :=
  ((s.core c).tlb.find? (fun e => e.ctx = ctx && e.covers va)).map
    (fun e => ⟨e.la + (va - e.page), e.rights, e.attr, SMap.find? e.nodes ((va - e.page) / (if e.big then 4096 else 32)), false⟩)

/-- What a core's TLB and the space map make of an address (R324): where a granule's bit is clear, the space map tells a
tombstone from an address that is not mapped. -/
def State.look (s : State) (c ctx va : Nat) : Look :=
  match s.tlbHit c ctx va with
  | some x => .hit x
  | none => s.walk ctx va

/-- How many entries a TLB holds (log 13). -/
def tlbSize : Nat := 128

/-- Whether every byte of a context's page is mapped, and how: the frame, the rights and the attribute. -/
def State.wholePage (s : State) (ctx va : Nat) : Option (Nat × BitVec 6 × Nat) :=
  let ns := s.nodes.filter (fun p => p.2.maps && p.2.holder = ctx && p.2.vaParts.any (fun w => meets w.1 w.2 va 4096))
  let n := (ns.flatMap (fun p => p.2.vaParts.filter (fun w => meets w.1 w.2 va 4096))).foldl (fun n w => n + w.2) 0
  match ns, s.walk ctx va with
  | (_, q) :: _, .hit x =>
    if n = 4096 && !(s.ctx ctx).tombs.any (fun t => meets t.va t.len va 4096) then some (x.la, q.rights, q.attr) else none
  | _, _ => none

/-- A 2 MiB translation (R324): every page of the aligned range maps the matching frame of one aligned logical range. -/
def State.bigPage (s : State) (ctx va : Nat) : Bool :=
  let v := va / stripeLen * stripeLen
  if isRoot ctx then region v ≠ .reserved
  else
    match s.wholePage ctx v with
    | some (la, r, a) => la % stripeLen = 0 && (List.range 512).all (fun k => s.wholePage ctx (v + 4096 * k) = some (la + 4096 * k, r, a))
    | none => false

/-- The nodes that `n` steps of `g` bytes from a virtual address are mapped through. -/
def State.nodesFrom (s : State) (ctx va g n : Nat) : SMap Nat :=
  (List.range n).filterMap (fun j =>
    match s.walk ctx (va + g * j) with
    | .hit x => x.node.map (fun k => (j, k))
    | _ => none)

/-- The TLB entry for a mapped address: a 2 MiB one where it can be made (R324). -/
def State.tlbEntry (s : State) (ctx va : Nat) (x : Xlat) : TlbEnt :=
  if s.bigPage ctx va then ⟨ctx, va / stripeLen * stripeLen, x.la - va % stripeLen, true, -1, x.rights, x.attr, s.nodesFrom ctx (va / stripeLen * stripeLen) 4096 512⟩
  else
    let ns := s.nodesFrom ctx (va / 4096 * 4096) 32 128
    ⟨ctx, va / 4096 * 4096, x.la - va % 4096, false, ns.foldl (fun m p => setBit m p.1) 0, x.rights, x.attr, ns⟩

/-- Keep a translation that a walk found (R324), oldest entry out (log 13). The root space's own translations are fixed (R319) and
none of them is kept. -/
def State.fillTlb (s : State) (c ctx va : Nat) : State :=
  match s.tlbHit c ctx va, s.walk ctx va with
  | none, .hit x =>
    if x.node.isNone then s
    else s.modCore c (fun q => { q with tlb := (if q.tlb.length < tlbSize then q.tlb else q.tlb.drop 1) ++ [s.tlbEntry ctx va x] })
  | _, _ => s

/-- The entries of a context that meet a virtual range leave every TLB. -/
def State.dropVa (s : State) (ctx va n : Nat) : State :=
  { s with cores := s.cores.map (fun p => (p.1, { p.2 with
      tlb := p.2.tlb.filter (fun e => !(e.ctx = ctx && meets e.page e.size va n)) })) }

/-! ## Bytes -/

/-- The host address of a host-frame address (R356). -/
def State.hostAddr (s : State) (la : Nat) : Nat :=
  (s.reg (hwReg ((la - 0x8000_0000_0000) / 2 ^ 40) 0)).toNat + (la - 0x8000_0000_0000) % 2 ^ 40

/-- One byte as the machine holds it. -/
def State.byteAt (s : State) (la : Nat) : Byte :=
  if isHost la then SMap.get 0 s.host (s.hostAddr la) else SMap.get 0 s.mem la

def State.bytesAt (s : State) (la n : Nat) : List Byte := (List.range n).map (fun k => s.byteAt (la + k))

/-- The canonical form of a table of bytes: addresses strictly rising, and no entry 0x00, which an unlisted address reads as
(log 3). -/
def Memory.wf (m : SMap Byte) : Bool := SMap.wf 0 m

/-- Store bytes into a table of bytes. -/
def putBytes (m : SMap Byte) (a : Nat) : List Byte → SMap Byte
  | [] => m
  | b :: t => putBytes (SMap.set 0 m a b) (a + 1) t

/-- The granules of poison that a place at `la` carries with it: its own, or the 32 of a class-D block (R365). -/
def State.poisonSpan (s : State) (la : Nat) : List Nat :=
  if isMemory la && s.classAt la = 1 then (List.range 32).map (fun k => la / 512 * 32 + k) else [la / 16]

/-- Poison the granule at `la`; class U cannot hold poison (R365, R366). -/
def State.setPoison (s : State) (la : Nat) : State :=
  if s.classAt la = 2 then s
  else { s with poison := (s.poisonSpan la).foldl (fun m g => SMap.set false m g true) s.poison }

/-- Whether any granule of a range is poisoned. -/
def State.poisoned (s : State) (la n : Nat) : Bool :=
  (pieces 16 la n).any (fun p => SMap.get false s.poison (p.1 / 16))

/-- A write of a whole granule, in memory of class D of a whole 512-byte block, writes it clean; a smaller write leaves the poison
(R365). -/
def State.cleanPoison (s : State) (la n : Nat) : State :=
  let unit := if isMemory la && s.classAt la = 1 then 512 else 16
  { s with poison := (pieces unit la n).foldl (fun m p =>
      if p.2 = unit then (List.range (unit / 16)).foldl (fun m k => SMap.set false m (p.1 / 16 + k) false) m else m) s.poison }

/-- Set the full bit of every granule of a range of a bank (R284). -/
def State.setFull (s : State) (la n : Nat) (v : Bool) : State :=
  { s with full := (pieces 16 la n).foldl (fun m p => SMap.set false m (p.1 / 16) v) s.full }

/-- Mark granules in a table of poison. -/
def markAll (m : SMap Bool) (l : List Nat) : SMap Bool := l.foldl (fun m g => SMap.set false m g true) m

/-- What the poison of a line that is written back leaves in main memory (R365, R366), and in the rest of the module's view of it: in a
block of class D the whole block is poisoned, in class U nothing is. -/
def State.poisonBack (s : State) (line : Nat) : State :=
  let here := (List.range 8).filter (fun k => SMap.get false s.poison (line * 8 + k))
  let block := (List.range 32).map (fun k => line / 4 * 32 + k)
  match s.classAt (line * 128) with
  | 1 =>
    if here.isEmpty then s
    else { s with dpoison := markAll s.dpoison block, poison := markAll s.poison (block.filter (fun g => !SMap.get false s.l2 (g / 8))) }
  | 2 => s
  | _ => { s with dpoison := (List.range 8).foldl (fun m k => SMap.set false m (line * 8 + k) (here.contains k)) s.dpoison }

/-- Write the dirty line at its home back to main memory (R300). -/
def State.writeBack (s : State) (line : Nat) : State :=
  if SMap.get false s.dirty line then
    { s.poisonBack line with
      dram := putBytes s.dram (line * 128) (s.bytesAt (line * 128) 128)
      dirty := SMap.set false s.dirty line false }
  else s

/-- Zero a bank and make every granule of it empty (R282); loads that waited there are judged again (R283). -/
def State.clearBank (s : State) (c n : Nat) : State :=
  let inBank := fun (la : Nat) => scratchLa c n 0 ≤ la && la < scratchLa c n 0 + 2 ^ 17
  let inGran := fun (g : Nat) => inBank (g * 16)
  { s with
    mem := s.mem.filter (fun p => !inBank p.1)
    poison := s.poison.filter (fun p => !inGran p.1)
    full := s.full.filter (fun p => !inGran p.1)
    accs := s.accs.map (fun a => if inBank a.la && a.st = .fullWait then { a with st := .flying } else a) }

/-- The scratch banks that a context owns become cache-mode banks, zeroed and empty (R282). -/
def State.freeBanks (s : State) (ctx : Nat) : State :=
  (s.cores.flatMap (fun p => (p.2.bankOwner.filter (fun q => q.2 = ctx)).map (fun q => (p.1, q.1)))).foldl (fun (t : State) e =>
    (t.clearBank e.1 e.2).modCore e.1 (fun k =>
      { k with bankcfg := setFld k.bankcfg (4 * e.2) 4 0, bankOwner := SMap.del k.bankOwner e.2 })) s

/-- Whether a core's slice has no cache-mode bank: it then answers from main memory and performs writes there (R283). -/
def State.noSlice (s : State) (c : Nat) : Bool := (List.range 16).all (fun n => s.bankMode c n ≠ 0)

/-- Perform a write at its target: bytes, clean poison, and the line is dirty in its home slice (R286). -/
def State.writeAt (s : State) (la : Nat) (bs : List Byte) : State :=
  if isHost la then { s with host := putBytes s.host (s.hostAddr la) bs }
  else
    let s1 := ({ s with mem := putBytes s.mem la bs }).cleanPoison la bs.length
    if isMemory la then
      let s2 := { s1 with dirty := SMap.set false s1.dirty (la / 128) true }
      if s.noSlice (s.homeCore la) then s2.writeBack (la / 128) else s2
    else s1

/-- Drop a line from its home: later reads fetch main memory (R300, R301). -/
def State.dropLine (s : State) (line : Nat) : State :=
  { s with
    mem := putBytes s.mem (line * 128) ((List.range 128).map (fun k => SMap.get 0 s.dram (line * 128 + k)))
    poison := (List.range 8).foldl (fun m k => SMap.set false m (line * 8 + k) (SMap.get false s.dpoison (line * 8 + k))) s.poison
    dirty := SMap.set false s.dirty line false }

end Sys2Proof.Machine
end

