-- ==== Sys2Proof/Machine/Rings.lean ====
section
/-! DEFINITION. Rings in host memory and in a function's root space: the device's reads and writes through a context's
map, trace records, the replay log, and the error-record ring (R434, R435, R440-R442, R452). -/
namespace Sys2Proof.Machine

/-! ## Reads and writes through a space map -/

/-- The root space of a function (R319). -/
def rootCtx (fn : Nat) : Nat := if fn = 128 then 2 ^ 31 else fn * 2 ^ 24 + 0xFF_FFFF

/-- The logical address of a virtual address of a context, where its space map gives one. -/
def State.laOf (s : State) (ctx va : Nat) : Option Nat :=
  match s.walk ctx va with
  | .hit x => some x.la
  | _ => none

/-- Bytes read through a context's map; a byte that is not mapped reads 0. -/
def State.readVa (s : State) (ctx va n : Nat) : List Byte :=
  (pieces 32 va n).flatMap (fun p =>
    match s.laOf ctx p.1 with
    | some la => s.bytesAt la p.2
    | none => List.replicate p.2 0)

/-- Whether every byte of a range is mapped. -/
def State.mappedVa (s : State) (ctx va n : Nat) : Bool := (pieces 32 va n).all (fun p => (s.laOf ctx p.1).isSome)

/-- Bytes written through a context's map as an engine writes them: full bits of scratch granules are set (R284); a byte
that is not mapped is not written. -/
def State.writeVa (s : State) (ctx va : Nat) (bs : List Byte) : State :=
  (pieces 32 va bs.length).foldl (fun (t : State) p =>
    match t.laOf ctx p.1 with
    | some la =>
      let u := t.writeAt la ((bs.drop (p.1 - va)).take p.2)
      if isScratch la then u.setFull la p.2 true else u
    | none => t) s

/-! ## Rings (R344, R346, R435, R452) -/

/-- A ring's EN, size, tail and head: its registers stand at `k`, `k + 8`, `k + 16` and `k + 24`. -/
def State.ringOn (s : State) (k : Nat) : Bool := bit (s.reg (k + 8)) 0
def State.ringSize (s : State) (k : Nat) : Nat := 2 ^ fld (s.reg (k + 8)) 16 4
def State.ringTail (s : State) (k : Nat) : Nat := fld (s.reg (k + 16)) 0 32
def State.ringHead (s : State) (k : Nat) : Nat := fld (s.reg (k + 24)) 0 32
def State.ringBase (s : State) (k : Nat) : Nat := (s.reg k).toNat / 4096 * 4096
def State.ringUsed (s : State) (k : Nat) : Nat := (s.ringTail k + 2 ^ 32 - s.ringHead k) % 2 ^ 32
def State.ringRoom (s : State) (k : Nat) : Bool := s.ringUsed k < s.ringSize k

/-- Advance a ring's tail by one. -/
def State.ringAdvance (s : State) (k : Nat) : State := s.setReg (k + 16) (w64 ((s.ringTail k + 1) % 2 ^ 32))

/-- Write a record to a ring in the physical function's host address space and raise the ring's vector when it was empty
(R346, R452). -/
def State.hostRingPut (s : State) (k : Nat) (r : List Byte) : State :=
  let a := s.ringBase k + r.length * (s.ringTail k % s.ringSize k)
  let s1 := ({ s with host := putBytes s.host a r }).ringAdvance k
  if s.ringUsed k = 0 then { s1 with msi := s1.msi ++ [(128, fld (s.reg (k + 8)) 24 8)] } else s1

/-! ## Trace records (R433-R435) -/

/-- The trace ring of a function. -/
def trRing (fn : Nat) : Nat := regKey fn 2 0x2000

/-- The bit of TRCTL that enables a record type (R433). -/
def traceBit : Nat → Nat
  | 1 => 1 | 2 => 2 | 3 => 3 | 4 => 4 | 5 => 7 | 6 => 6 | 7 => 5 | _ => 0

/-- The 64 bytes of a record of a core's context (R434). -/
def traceBytes (ptime : Nat) (b : Bind) (c ctx type thr count : Nat) (v v2 : Word) : List Byte :=
  let d := match b.act with | some a => (b.slot a.slot).desc.entry | none => 0
  let run := b.act.isSome
  let tag := match b.act with | some a => a.tag | none => 0
  let slot := match b.act with | some a => a.slot | none => 0xFF
  leBytes 8 ptime ++ leBytes 8 (if run then b.vtime else 0) ++ leBytes 8 d.toNat ++ leBytes 8 b.retired ++
  leBytes 1 (c % 64) ++ leBytes 1 (c / 64) ++ leBytes 1 slot ++ leBytes 1 type ++ leBytes 2 tag ++ leBytes 1 thr ++
  leBytes 1 0 ++ leBytes 8 v.toNat ++ leBytes 8 v2.toNat ++ leBytes 4 ctx ++ leBytes 4 count

/-- Write one record into the function's ring, which has room. -/
def State.tracePut (s : State) (ctx c type thr : Nat) (v v2 : Word) : State :=
  let fn := ctxFn ctx
  let k := trRing fn
  let n := SMap.get 0 (s.core c).trCnt fn
  let r := traceBytes s.ptime (s.bind ctx c) c ctx type thr n v v2
  let s1 := (s.writeVa (rootCtx fn) (s.ringBase k + 64 * (s.ringTail k % s.ringSize k)) r).ringAdvance k
  s1.modCore c (fun q => { q with trCnt := SMap.set 0 q.trCnt fn ((n + 1) % 2 ^ 32) })

/-- A record is dropped and counted (R435). -/
def State.traceDrop (s : State) (fn : Nat) : State :=
  let k := trRing fn + 0x20
  { s.setReg k (w64 (min ((s.reg k).toNat + 1) (2 ^ 64 - 1))) with
    traceLost := SMap.set 0 s.traceLost fn (SMap.get 0 s.traceLost fn + 1) }

/-- Take a record of a context on a core (R433-R435): when TRCTL asks for it, it enters the ring, after a record of type 9
where records have been lost, or is dropped. -/
def State.trace (s : State) (ctx c type thr : Nat) (v v2 : Word) : State :=
  let w := (s.bind ctx c).trctl
  let fn := ctxFn ctx
  let k := trRing fn
  if !(bit w 0 && bit w (traceBit type)) then s
  else if !(s.ringOn k && s.ringRoom k) then s.traceDrop fn
  else
    let lost := SMap.get 0 s.traceLost fn
    if lost = 0 then s.tracePut ctx c type thr v v2
    else
      let s1 := { s.tracePut ctx c 9 0 (w64 lost) 0 with traceLost := SMap.del s.traceLost fn }
      if s1.ringRoom k then s1.tracePut ctx c type thr v v2 else s1.traceDrop fn

/-! ## The replay log (R440-R442) -/

/-- The replay log of a function: RPCFG follows RPBASE at + 8, RPTAIL at + 16, RPHEAD at + 24, RPSTAT at + 32. -/
def rpRing (fn : Nat) : Nat := regKey fn 2 0x2040

def State.recording (s : State) (fn : Nat) : Bool := s.ringOn (rpRing fn) && !bit (s.reg (rpRing fn + 8)) 1
def State.replaying (s : State) (fn : Nat) : Bool := s.ringOn (rpRing fn) && bit (s.reg (rpRing fn + 8)) 1

/-- Slots of a function's log that records still to be written will take. -/
def State.logDue (s : State) (fn : Nat) : Nat := ((s.logWait.filter (fun r => r.fn = fn)).map (fun r => r.bytes.length / 64)).sum

/-- Whether an outside input or a host read of `n` data bytes may be taken: it is held back while the log has no room for
it (R441). -/
def State.logRoom (s : State) (fn n : Nat) : Bool :=
  !s.recording fn || s.ringUsed (rpRing fn) + s.logDue fn + 1 + ceilDiv n 64 ≤ s.ringSize (rpRing fn)

/-- The order of log records: stamp, then sender address, then sequence number (R186, R441). -/
def LogRec.before (a b : LogRec) : Bool :=
  a.stamp < b.stamp || (a.stamp = b.stamp && (a.saddr < b.saddr || (a.saddr = b.saddr && a.seq < b.seq)))

def insertLog (r : LogRec) : List LogRec → List LogRec
  | [] => [r]
  | q :: t => if r.before q then r :: q :: t else q :: insertLog r t

/-- Data padded with zeros to whole slots of 64 bytes. -/
def padSlots (bs : List Byte) : List Byte := bs ++ List.replicate (64 * ceilDiv bs.length 64 - bs.length) 0

/-- The 64-byte header of a message (R182). -/
def Msg.header (m : Msg) : List Byte :=
  leBytes 8 m.stamp ++ leBytes 8 m.sptime ++ leBytes 8 m.seq ++ leBytes 2 m.saddr ++ leBytes 1 m.sslot ++
  leBytes 1 m.flags ++ leBytes 1 m.dslot ++ leBytes 1 m.dchan ++ leBytes 2 m.payload.length ++ leBytes 2 m.tag ++
  leBytes 6 0 ++ leBytes 8 m.ostamp ++ leBytes 16 0

/-- The log record of a message (R441): its header with the kind at 0x22 and the CTXID at 0x24, and its payload. The
destination core stands in the header's zero bytes at 0x30 (log 21). -/
def logMsg (ctx dst : Nat) (m : Msg) : List Byte :=
  (m.header.take 0x22 ++ leBytes 2 1 ++ leBytes 4 ctx ++ (m.header.drop 0x28).take 8 ++ leBytes 2 dst ++ m.header.drop 0x32) ++
    padSlots m.payload

/-- Log a message to a core while the function records. -/
def State.logInput (s : State) (ctx dst : Nat) (m : Msg) : State :=
  if s.recording (ctxFn ctx) then
    { s with logWait := insertLog ⟨ctxFn ctx, m.stamp, m.saddr, m.seq, logMsg ctx dst m⟩ s.logWait }
  else s

/-- A live outside input is discarded and counted during replay (R442). -/
def State.extra (s : State) (fn : Nat) : State :=
  let k := rpRing fn + 32
  s.setRegFld k 32 32 (min (fld (s.reg k) 32 32 + 1) (2 ^ 32 - 1))

/-- The log record of a host read (R441). -/
def logRead (ptime vtime c thr ord ctx : Nat) (va : Word) (bs : List Byte) : List Byte :=
  leBytes 8 vtime ++ leBytes 8 ptime ++ leBytes 8 ord ++ leBytes 2 c ++ leBytes 1 thr ++ leBytes 3 0 ++
  leBytes 2 bs.length ++ leBytes 2 0 ++ leBytes 1 2 ++ leBytes 1 0 ++ leBytes 4 ctx ++ leBytes 8 0 ++
  leBytes 8 va.toNat ++ leBytes 8 0 ++ padSlots bs

/-- Log a host read while the function records. -/
def State.logHostRead (s : State) (ctx c thr ord : Nat) (va : Word) (bs : List Byte) : State :=
  if s.recording (ctxFn ctx) then
    let v := (s.bind ctx c).vtime
    { s with logWait := insertLog ⟨ctxFn ctx, v, c, ord, logRead s.ptime v c thr ord ctx va bs⟩ s.logWait }
  else s

/-- Write a log record's slots into the ring (R441). -/
def State.logPut (s : State) (r : LogRec) : State :=
  let k := rpRing r.fn
  (List.range (r.bytes.length / 64)).foldl (fun (t : State) j =>
    (t.writeVa (rootCtx r.fn) (t.ringBase k + 64 * (t.ringTail k % t.ringSize k)) ((r.bytes.drop (64 * j)).take 64)).ringAdvance k) s

/-- Write the records that no later record can precede: those with a stamp below `bound` (R441). -/
def State.flushLog (s : State) (bound : Nat) : State :=
  (s.logWait.filter (fun r => r.stamp < bound)).foldl (fun (t : State) r => t.logPut r)
    { s with logWait := s.logWait.filter (fun r => !(r.stamp < bound)) }

/-- A slot of a function's log. -/
def State.logSlot (s : State) (fn n : Nat) : List Byte :=
  s.readVa (rootCtx fn) (s.ringBase (rpRing fn) + 64 * (n % s.ringSize (rpRing fn))) 64

/-- The records from slot `n` on, `fuel` slots at most: the slot, its header and its data. -/
def State.logFrom (s : State) (fn : Nat) : Nat → Nat → List (Nat × List Byte × List Byte)
  | 0, _ => []
  | fuel + 1, n =>
    if (s.ringTail (rpRing fn) + 2 ^ 32 - n) % 2 ^ 32 = 0 then []
    else
      let h := s.logSlot fn n
      let len := ofLe ((h.drop 0x1E).take 2)
      let data := ((List.range (ceilDiv len 64)).flatMap (fun j => s.logSlot fn (n + 1 + j))).take len
      (n, h, data) :: s.logFrom fn fuel ((n + 1 + ceilDiv len 64) % 2 ^ 32)

/-- The records of a log that the device has not consumed. -/
def State.logRecords (s : State) (fn : Nat) : List (Nat × List Byte × List Byte) :=
  s.logFrom fn (s.ringUsed (rpRing fn)) (s.ringHead (rpRing fn))

/-- Whether a log record is a message, not a host read (R441). -/
def isMsgRec (r : Nat × List Byte × List Byte) : Bool := ofLe ((r.2.1.drop 0x22).take 1) = 1

/-- The slots of a record. -/
def recSlots (r : Nat × List Byte × List Byte) : Nat := 1 + ceilDiv r.2.2.length 64

/-- The records of a log that the injection has not come to (R442): it runs ahead of RPHEAD, which the records of host reads hold back until
their activations have ended. -/
def State.logAhead (s : State) (fn : Nat) : List (Nat × List Byte × List Byte) :=
  (s.logRecords fn).filter (fun r => SMap.get 0 s.rpAhead fn ≤ (r.1 + 2 ^ 32 - s.ringHead (rpRing fn)) % 2 ^ 32)

/-- The record that is injected next (R442). -/
def State.nextInject (s : State) (fn : Nat) : Option (Nat × List Byte × List Byte) := (s.logAhead fn).find? isMsgRec

/-- RPHEAD passes the records that the device has done with: messages that it has injected, and host reads whose activations FLOOR has
passed (R442). -/
def State.logConsume (s : State) (fn : Nat) : State :=
  (s.logRecords fn).foldl (fun (t : State) r =>
    let k := rpRing fn
    let ahead := SMap.get 0 t.rpAhead fn
    if r.1 = t.ringHead k && (if isMsgRec r then decide (0 < ahead) else decide (ofLe (r.2.1.take 8) < t.floor)) then
      { t.setReg (k + 24) (w64 ((r.1 + recSlots r) % 2 ^ 32)) with rpAhead := SMap.set 0 t.rpAhead fn (ahead - recSlots r) }
    else t) s

/-- The logged bytes of a host read in replay mode: by VTIME, core, thread and ordinal (R442). -/
def State.loggedRead (s : State) (ctx c thr ord : Nat) : Option (List Byte) :=
  ((s.logRecords (ctxFn ctx)).find? (fun r =>
    ofLe ((r.2.1.drop 0x22).take 1) = 2 && ofLe (r.2.1.take 8) = (s.bind ctx c).vtime &&
    ofLe ((r.2.1.drop 0x10).take 8) = ord && ofLe ((r.2.1.drop 0x18).take 2) = c &&
    ofLe ((r.2.1.drop 0x1A).take 1) = thr && ofLe ((r.2.1.drop 0x24).take 4) = ctx)).map (fun r => r.2.2)

/-- A host read found no matching record (R442). -/
def State.logMiss (s : State) (fn : Nat) : State := s.setReg (rpRing fn + 32) (setBit (s.reg (rpRing fn + 32)) 0)

/-! ## The error-record ring (R375, R452) -/

/-- ERBASE. -/
def erRing : Nat := pfReg 0xA00

/-- A reliability record of R375. -/
def relRecord (ptime vtime ctx type slot saddr a b : Nat) : List Byte :=
  leBytes 8 ptime ++ leBytes 8 vtime ++ leBytes 4 ctx ++ leBytes 1 type ++ leBytes 1 slot ++ leBytes 2 saddr ++
  leBytes 4 a ++ leBytes 4 b

/-- A record goes to the ring's 64 waiting places; where they are full, the oldest enters the ring first when it has room, else the record
is dropped and counted (R452). -/
def State.relRec (s : State) (r : List Byte) : State :=
  match s.errWait with
  | o :: t =>
    if s.errWait.length < 64 then { s with errWait := s.errWait ++ [r] }
    else if s.ringOn erRing && s.ringRoom erRing then ({ s with errWait := t ++ [r] } : State).hostRingPut erRing o
    else s.setReg (erRing + 0x20) (w64 (min ((s.reg (erRing + 0x20)).toNat + 1) (2 ^ 64 - 1)))
  | [] => { s with errWait := [r] }

end Sys2Proof.Machine
end

