-- ==== Sys2Proof/Machine/Tokens.lean ====
section
/-! DEFINITION. Budget accounts (R163, R166-R168): what a bind record charges, borrowing, and the charge itself. -/
namespace Sys2Proof.Machine

/-- The bind record of a core (R163). -/
def State.slotRec (s : State) (c : Nat) : BitVec 128 := SMap.get 0 s.slotTab c

/-- The fields of a bind record (R163). -/
def recCtx (r : BitVec 128) : Nat := fld r 0 32
def recValid (r : BitVec 128) : Bool := bit r 32
def recAccount (r : BitVec 128) : Nat := fld r 60 10

def State.account (s : State) (a : Nat) : Account := SMap.get Account.zero s.accounts a

def State.setAccount (s : State) (a : Nat) (k : Account) : State := { s with accounts := SMap.set Account.zero s.accounts a k }

/-- The account that may lend (R168): LEND is 1 and BAL stands above RESERVE; the largest BAL, ties to the lowest number. DEDUCED (log 126):
'the largest BAL above its RESERVE' compares the BALs, not what each has above its RESERVE. -/
def State.chooseLender (s : State) (a : Nat) : Option Nat :=
  (leastBy (fun (x y : Nat × Account) => y.2.bal < x.2.bal || (x.2.bal = y.2.bal && x.1 < y.1))
    (s.accounts.filter (fun p => p.1 ≠ a && p.2.lend && p.2.reserve < p.2.bal))).map (·.1)

/-- The lender that an account keeps until its BAL falls to its RESERVE (R168). -/
def State.lenderOf (s : State) (a : Nat) : Option Nat :=
  match (s.account a).lender with
  | some l => if (s.account l).lend && (s.account l).reserve < (s.account l).bal then some l else s.chooseLender a
  | none => s.chooseLender a

/-- Whether an account can pay for a cycle: with a token of its own, or a borrowed one (R168). -/
def State.canPay (s : State) (a : Nat) : Bool :=
  let k := s.account a
  !k.dry && (0 < k.bal || (k.debt < k.debtmax && (s.lenderOf a).isSome))

/-- Borrow up to `n` tokens; `fuel` bounds the number of lenders. -/
def State.borrow (s : State) (a : Nat) : Nat → Nat → State
  | 0, _ => s
  | fuel + 1, n =>
    let k := s.account a
    match s.lenderOf a with
    | none => s
    | some l =>
      let r := s.account l
      let x := min n (min (k.debtmax - k.debt) (r.bal - r.reserve))
      if x = 0 then s
      else
        ((s.setAccount l { r with bal := r.bal - x }).setAccount a
          { k with debt := k.debt + x, used := k.used + x, lender := some l }).borrow a fuel (n - x)

/-- Charge `n` tokens to an account (R166, R168): its own first, then borrowed ones. -/
def State.charge (s : State) (a n : Nat) : State :=
  let k := s.account a
  let x := min n k.bal
  (s.setAccount a { k with bal := k.bal - x, used := k.used + x }).borrow a 1024 (n - x)

/-- The account that a bound core is charged to (R163, R166). While its record names another context, the context that is still
there is charged to its own record's account (log 99). -/
def State.chargedAccount (s : State) (c : Nat) : Nat :=
  let r := s.slotRec c
  match (s.core c).ctx with
  | some n => if recCtx r = n then recAccount r else (s.ctx n).account
  | none => 0

/-- Whether a core runs an activation: its own, or as a partner that of its primary (R379). -/
def State.runsAct (s : State) (c : Nat) : Bool :=
  let p := (s.core c).pair
  (s.cur c).act.isSome || (p.partner && p.mode ≠ .off && (s.cur (c - 1)).act.isSome)

/-- Whether a core is charged (R166, R426): RESTORING, SAVING, or running an activation, and not frozen. -/
def State.charged (s : State) (c : Nat) : Bool :=
  (s.core c).ctx.isSome && !(s.stopped c) &&
    ((s.cur c).st = .restoring || (s.cur c).st = .saving || ((s.cur c).st = .bound && s.runsAct c))

/-- The core cycles in an interval of physical time: three every 2 ns (R14, R166). -/
def cyclesIn (t0 t1 : Nat) : Nat := t1 * 3 / 2 - t0 * 3 / 2

/-- Charge every core for `n` cycles (R166, R437). -/
def State.chargeAll (s : State) (n : Nat) : State :=
  (s.cores.map (·.1)).foldl (fun (t : State) c =>
    if t.charged c then
      (t.modCur c (fun b => { b with cnt := { b.cnt with tokens := b.cnt.tokens + n } })).charge (t.chargedAccount c) n
    else t) s

/-- A period boundary is due (R167): PTIME stands at a multiple of 100 000 ns that no boundary has marked. -/
def State.boundaryDue (s : State) : Bool := s.ptime % 100000 = 0 && s.period < s.ptime / 100000

/-- Time passes for a module whose clocks run (R14, R444), no further than to the next period boundary, which comes first
where it is due (R167); the cores are charged for it (R166). -/
def State.elapse (s : State) (ns : Nat) : State :=
  if !s.powered || s.freeze || s.boundaryDue then s
  else
    let t := min (s.ptime + ns) ((s.ptime / 100000 + 1) * 100000)
    ({ s with ptime := t } : State).chargeAll (cyclesIn s.ptime t)

end Sys2Proof.Machine
end

