-- ==== Sys2Proof/Machine/Ops.lean ====
section
/-! DEFINITION. The named operations over a core, a context and a thread: reading and writing registers, events, stamps
and messages, retiring an instruction, taking an exception, and returning from one. -/
namespace Sys2Proof.Machine

/-! ## Registers (R74, R91) -/

/-- The general registers of a thread: the handler bank in handler mode (R134). -/
def State.xs (s : State) (f : Focus) : SMap Word :=
  if f.thr = 0 then (if (s.core f.core).hmode then (s.core f.core).hx else (s.cur f.core).x)
  else ((s.cur f.core).mt (f.thr - 1)).w

/-- Read a general register; register 0 reads zero. -/
def State.rd (s : State) (f : Focus) (r : Nat) : Word := if r = 0 then 0 else SMap.get 0 (s.xs f) r

/-- A later write of a register that an unfinished load also writes: the register keeps the later value (R93). -/
def cancelDst (r : Nat) (p : List PendLoad) : List PendLoad :=
  p.map (fun q => if q.dst = r then { q with dst := 0 } else q)

/-- The pairing modes in which a thread folds what it does into its CRC (R383). -/
def PairSt.folds (p : PairSt) : Bool := p.mode = .run || p.mode = .rerun || p.mode = .tiebreak

/-- Fold bytes into the fingerprint register of a thread of a paired core (R383); the handler is none of its threads. -/
def State.fold (s : State) (f : Focus) (bs : List Byte) : State :=
  if (s.core f.core).pair.folds && !(f.thr = 0 && (s.core f.core).hmode) then
    if f.thr = 0 then s.modCur f.core (fun b => { b with crc := crcFold b.crc bs })
    else s.modMt f.core (f.thr - 1) (fun m => { m with crc := crcFold m.crc bs })
  else s

/-- Write a general register without a fold: a write to register 0 is discarded (R91). -/
def State.wrRaw (s : State) (f : Focus) (r : Nat) (v : Word) : State :=
  if r = 0 then s
  else if f.thr = 0 then
    if (s.core f.core).hmode then s.modCore f.core (fun k => { k with hx := SMap.set 0 k.hx r v })
    else s.modCur f.core (fun b => { b with x := SMap.set 0 b.x r v, pend := cancelDst r b.pend })
  else s.modMt f.core (f.thr - 1) (fun m => { m with w := SMap.set 0 m.w r v, pend := cancelDst r m.pend })

/-- Write a general register (R91, R383). -/
def State.wr (s : State) (f : Focus) (r : Nat) (v : Word) : State :=
  if r = 0 then s else (s.wrRaw f r v).fold f (leBytes 1 r ++ leBytes 8 v.toNat)

/-- The e-registers of a thread (R73, R104). -/
def State.es (s : State) (f : Focus) : SMap Word :=
  if f.thr = 0 then (if (s.core f.core).hmode then (s.core f.core).he else (s.cur f.core).e)
  else ((s.cur f.core).mt (f.thr - 1)).e

def State.rdE (s : State) (f : Focus) (r : Nat) : Word := SMap.get 0 (s.es f) r

/-- Write an e-register without a fold. -/
def State.wrERaw (s : State) (f : Focus) (r : Nat) (v : Word) : State :=
  if f.thr = 0 then
    if (s.core f.core).hmode then s.modCore f.core (fun k => { k with he := SMap.set 0 k.he r v })
    else s.modCur f.core (fun b => { b with e := SMap.set 0 b.e r v })
  else s.modMt f.core (f.thr - 1) (fun m => { m with e := SMap.set 0 m.e r v })

/-- Write an e-register (R104); its fold numbers it 32 + r (R383). -/
def State.wrE (s : State) (f : Focus) (r : Nat) (v : Word) : State :=
  (s.wrERaw f r v).fold f (leBytes 1 (32 + r) ++ leBytes 8 v.toNat)

/-- The address of a thread's current instruction (R37). -/
def State.pcOf (s : State) (f : Focus) : Word :=
  if f.thr = 0 then (if (s.core f.core).hmode then (s.core f.core).hpc else (s.cur f.core).pc)
  else ((s.cur f.core).mt (f.thr - 1)).pc

/-- The loads of a thread that have not returned. -/
def State.pendOf (s : State) (f : Focus) : List PendLoad :=
  if f.thr = 0 then (s.cur f.core).pend else ((s.cur f.core).mt (f.thr - 1)).pend

/-- Whether a blocking access of the thread is outstanding. -/
def State.waitsOf (s : State) (f : Focus) : Bool :=
  if f.thr = 0 then (s.cur f.core).waits else ((s.cur f.core).mt (f.thr - 1)).waits

def State.setWaits (s : State) (f : Focus) (v : Bool) : State :=
  if f.thr = 0 then s.modCur f.core (fun b => { b with waits := v })
  else s.modMt f.core (f.thr - 1) (fun m => { m with waits := v })

/-- Whether the instruction belongs to the handler of a core. -/
def State.inHandler (s : State) (f : Focus) : Bool := f.thr = 0 && (s.core f.core).hmode

/-! ## Events, CHKI and asynchronous causes -/

/-- Set the WFE latch of a core's context (R150). -/
def State.latch (s : State) (c : Nat) : State := s.modCur c (fun b => { b with wfe := true })

/-- The bits of CHKI (R372). -/
def chkCtload : Nat := 0
def chkMtload : Nat := 1
def chkVext : Nat := 2
def chkAmo : Nat := 3
def chkFrame : Nat := 4
def chkLost : Nat := 5
def chkMsg : Nat := 6
def chkReg : Nat := 7

/-- Set a bit of CHKI (R372). -/
def State.setChki (s : State) (c i : Nat) : State := s.modCur c (fun b => { b with chki := setBit b.chki i })

/-- Set a bit of CHKI when a condition holds. -/
def State.chkiIf (s : State) (c i : Nat) (p : Bool) : State := if p then s.setChki c i else s

/-- CHKI of a thread that has read poisoned data into a register other than by a load of memory (R364, R372, log 129). -/
def State.badRead (s : State) (f : Focus) (bad : Bool) : State :=
  s.chkiIf f.core (if f.thr = 0 then chkCtload else chkMtload) bad

/-- The pending bits of TSTAT.PEND (R143). -/
def pPstr : Nat := 0
def pEbx : Nat := 1
def pMtf : Nat := 2
def pDiverge : Nat := 3
def pPreempt : Nat := 4
def pFrame : Nat := 5
def pHomelost : Nat := 6

/-- The key of a pending cause's TVAL: `idx` is the journal entry's index, or 64 + the thread for a cause that no entry
raised. -/
def causeKey (p idx : Nat) : Nat := p * 256 + idx

/-- An asynchronous cause becomes pending in a binding: its bit, and its TVAL; the latch is set (R140, R150). -/
def State.pendCause (s : State) (ctx c p idx : Nat) (v : Word) : State :=
  s.modBind ctx c (fun b =>
    { b with pendBits := setBit b.pendBits p, asyncVal := SMap.put b.asyncVal (causeKey p idx) v, wfe := true })

/-- PREEMPT becomes pending with a reason, and the binding is SAVING (R116). -/
def State.preempt1 (s : State) (c reason : Nat) : State :=
  match (s.core c).ctx with
  | some n =>
    if (s.bind n c).st = .bound then
      (s.modBind n c (fun b => { b with st := .saving, prsn := reason })).pendCause n c pPreempt 64 0
    else s
  | none => s

/-- Pre-empt a core; of a pair, both cores (R387). -/
def State.preempt (s : State) (c reason : Nat) : State :=
  let p := (s.core c).pair
  if p.mode = .off then s.preempt1 c reason
  else (s.preempt1 c reason).preempt1 (if p.partner then c - 1 else c + 1) reason

/-- The host is notified through the function's interrupt (R115). -/
def State.notify (s : State) (fn vec : Nat) : State := { s with msi := s.msi ++ [(fn, vec)] }

/-- Clear VALID in every bind record that names a context, and pre-empt those bindings (R115). -/
def State.unbindAll (s : State) (ctx : Nat) (reason : Nat) : State :=
  let cs := s.slotTab.filterMap (fun p => if fld p.2 0 32 = ctx && bit p.2 32 then some p.1 else none)
  let s1 := cs.foldl (fun (t : State) c => { t with slotTab := SMap.set 0 t.slotTab c (clrBit (t.slotRec c) 32) }) s
  let bound := s1.cores.filterMap (fun p => if p.2.ctx = some ctx then some p.1 else none)
  bound.foldl (fun (t : State) c => t.preempt c reason) s1

/-! ## Where a save area lies (R117, R118) -/

/-- The bytes of one save area (R118). -/
def areaSize (slots : Nat) : Nat := ceilDiv (0x9_0000 + 320 * slots) 4096 * 4096

/-- The address of the save area of a context on a core, from the context's save-area table (R117). -/
def areaBase (ctx c : Nat) : Nat := (Config.saveBase ctx c &&& ~~~0xFFF).toNat

/-- Whether an address lies in the save area, of `slots` buffer slots, of a context on a core. -/
def inAreaOf (slots ctx c a : Nat) : Bool := areaBase ctx c ≤ a && a < areaBase ctx c + areaSize slots

/-! ## The end of a debug session (R423, R425) -/

/-- The timer of a park has stood still from `a` to `b` (R426, R451). -/
def Park.idle (q : Park) (a b : Nat) : Park := { q with lost := q.lost + (b - max a q.since) }

/-- Every stopped party resumes (R425) without SKIP: held threads run again, the one that was hit passing its comparators
once; a BRK handler returns to the instruction; the time of the freeze does not count against PARKTO (R426). The bindings that the
stop has pre-empted become SAVING (R116, log 82). -/
def State.resumeAll (s : State) : State :=
  let d := s.dbg
  let hit := fun (c n thr : Nat) => n = d.ctxid && c = d.hitcore && thr = d.hitthr && (d.cause = 1 || d.cause = 2)
  { s with
    dbg := { d with mode := 0, stepped := [], vstop := false, frozeAt := s.ptime }
    binds := s.binds.map (fun p =>
      let n := p.1 / 2048
      let c := p.1 % 2048
      (p.1, { p.2 with
        st := if p.2.st = .bound && p.2.prsn = 4 && bit p.2.pendBits pPreempt then .saving else p.2.st
        held := false, skip := p.2.skip || (d.mode ≠ 0 && hit c n 0)
        mts := p.2.mts.map (fun q => (q.1, { q.2 with held := false, skip := q.2.skip || (d.mode ≠ 0 && q.2.held && hit c n (q.1 + 1)) })) }))
    cores := s.cores.map (fun p => (p.1, if p.2.hmode && p.2.tcause = 0x0A#64 then { p.2 with eact := 0 } else p.2))
    parks := s.parks.map (fun q =>
      if (d.mode = 2 || d.mode = 3) && (!d.isLocal || q.saddr = d.core) then
        q.idle d.frozeAt (if d.thermal then min s.ptime d.hotAt else s.ptime)
      else q) }

/-- A session ends: as a resume, with every comparator disabled (R423). -/
def State.closeSession (s : State) : State :=
  let t := if s.dbg.mode = 0 then s else s.resumeAll
  { t with
    dbg := { t.dbg with isOpen := false }
    cores := t.cores.map (fun p => (p.1, { p.2 with comps := p.2.comps.map (fun q => (q.1, { q.2 with cfg := q.2.cfg &&& ~~~1 })) })) }

/-- The session ends when its context leaves LIVE, or its context's world leaves OPEN (R423). -/
def State.endSessionOf (s : State) (ctx : Nat) : State := if s.dbg.isOpen && s.dbg.ctxid = ctx then s.closeSession else s

/-- A LIVE context becomes FAULTED with a cause and a reason (R115, R117). The host is notified by vector 0 of the function
(log 94). -/
def State.faultCtx (s : State) (ctx cause reason : Nat) : State :=
  if (s.ctx ctx).st ≠ .live then s
  else (((s.endSessionOf ctx).modCtx ctx (fun k => { k with st := .faulted, fcause := cause, freason := reason })).unbindAll ctx 0).notify
    (ctxFn ctx) 0

/-- What stays of a binding whose context enters DESTROYING (R116, R174, R290): its inbox, its actors and its REFUSED entries go; one
that is OUT becomes UNBOUND, its save area scrubbed, with the SENT entries of its journal and what R437 has counted. -/
def Bind.doomed (b : Bind) : Bind :=
  if b.st = .out then { Bind.zero with journal := b.journal.filter (fun e => e.2.st = .sent), recs := b.recs, jseq := b.jseq, cnt := b.cnt }
  else { b with inbox := [], slots := [], journal := b.journal.filter (fun e => e.2.st ≠ .refused) }

/-- A context enters DESTROYING (R115, R116, R174, R282, R290, R423): every binding is switched out, its inboxes, actors and REFUSED
journal entries go, the save areas of those that are OUT are scrubbed, and its scratch banks become cache-mode banks. -/
def State.destroy (s : State) (ctx : Nat) (f : Ctx → Ctx) : State :=
  let s1 := ((s.endSessionOf ctx).freeBanks ctx).modCtx ctx (fun k => f { k with st := .destroying })
  let gone := fun (p : Nat) => p / 2048 = ctx && (SMap.get Bind.zero s1.binds p).st = .out
  ({ s1 with
    areas := s1.areas.filter (fun p => !gone p.1)
    hmem := s1.hmem.filter (fun q => !(s1.binds.any (fun p => gone p.1 && inAreaOf (s1.ctx ctx).bufslots ctx (p.1 % 2048) q.1)))
    binds := s1.binds.map (fun p => (p.1, if p.1 / 2048 = ctx then p.2.doomed else p.2)) } : State).unbindAll
    ctx 3

/-- A context error record to the host (R138, R328, R354): PTIME, the CTXID, the core and a code (log 94). -/
def State.ctxErr (s : State) (ctx c code : Nat) : State :=
  { s with ctxErrs := s.ctxErrs ++ [⟨s.ptime, ctx, c, code⟩] }

/-! ## Stamps, sequence numbers and messages (R182-R184, R137) -/

/-- VTIME + RETIRED of a core's control thread. -/
def State.vnow (s : State) (c : Nat) : Nat := (s.cur c).vtime + (s.cur c).retired

/-- The descriptor of the running activation's slot. -/
def Bind.actDesc (b : Bind) : Desc :=
  match b.act with
  | some a => (b.slot a.slot).desc
  | none => Slot.empty.desc

/-- The slot of the running activation, and its routing tag; 0 when none runs (R181). -/
def Bind.actSlot (b : Bind) : Nat :=
  match b.act with
  | some a => a.slot
  | none => 0

def Bind.actTag (b : Bind) : Nat :=
  match b.act with
  | some a => a.tag
  | none => 0

/-- VTIME + RETIRED + LOOKAHEAD of the running activation (R184). -/
def State.sendStamp (s : State) (c : Nat) : Nat := s.vnow c + (s.cur c).actDesc.lookahead

/-- A message with OSTAMP equal to STAMP (R182). -/
def mkMsg (stamp sptime seq saddr sslot flags dslot dchan tag : Nat) (payload : List Byte) : Msg :=
  ⟨stamp, sptime, seq, saddr, sslot, flags, dslot, dchan, tag, stamp, payload, false⟩

/-- SEQ of a message that has not left its core: no message counter reaches it (R183). -/
def unnumbered : Nat := 2 ^ 62

/-- Send a packet on the Lattice. -/
def State.post (s : State) (p : Packet) : State := { s with net := s.net ++ [p] }

/-- A live outside input to a context (R137, R441, R442): logged and sent, or discarded while the function replays. -/
def State.postOutside (s : State) (src dst ctx : Nat) (m : Msg) : State :=
  if s.replaying (ctxFn ctx) then s.extra (ctxFn ctx) else (s.logInput ctx dst m).post ⟨src, dst, ctx, .msg m⟩

/-- The 64 bytes of a trap message (R136), with the EACT that its handler takes. -/
def TrapInfo.payload (t : TrapInfo) (eact c ctx : Nat) : List Byte :=
  leBytes 1 t.code ++ leBytes 1 eact ++ leBytes 1 (c % 64) ++ leBytes 1 (c / 64) ++ leBytes 1 t.slot ++
  leBytes 1 t.thr ++ leBytes 2 t.tag ++ leBytes 8 t.tval.toNat ++ leBytes 8 t.tepc.toNat ++ leBytes 8 t.entry.toNat ++
  leBytes 8 t.vtime ++ leBytes 8 t.retired ++ leBytes 8 t.ptime ++ leBytes 4 ctx ++ leBytes 4 0

/-- The fault actor's core, slot and channel (R117). -/
def faultCore (w : BitVec 32) : Nat := coreAddr (fld w 0 8) (fld w 8 8)

/-- A trap of a core is to be forwarded (R136, R138): its handler will send the message to the fault actor. A trap of the
fault actor itself is written to the host; without a fault actor the context becomes FAULTED, with the TCAUSE of the trap, `why`
(R117). -/
def State.forwardAs (s : State) (c why : Nat) (t : TrapInfo) (async : Bool) : State :=
  let ctx := s.ctxOf c
  let fa := (s.ctx ctx).factor
  if fa = 0xFFFF_FFFF#32 then s.faultCtx ctx why 1
  else if faultCore fa = c && fld fa 16 4 = t.slot then s.ctxErr ctx c t.code
  else s.modCore c (fun k => { k with tmsg := k.tmsg ++ [(t, async)] })

/-- A trap of a core is to be forwarded under its own cause. -/
def State.forward (s : State) (c : Nat) (t : TrapInfo) (async : Bool) : State := s.forwardAs c t.code t async

/-- The handler of a core sends one trap message (R136, R137). FLAGS and the routing tag of its header are 0 (log 94). -/
def State.sendTrap (s : State) (c eact : Nat) (t : TrapInfo) (async : Bool) : State :=
  let ctx := s.ctxOf c
  let b := s.cur c
  let fa := (s.ctx ctx).factor
  let stamp := if async then s.floor + 64 else s.sendStamp c
  let seq := if async then 2 ^ 63 + 2 ^ 62 + b.seqAsync else 2 ^ 63 + b.seqExact
  let m := mkMsg stamp s.ptime seq c t.slot 0 (fld fa 16 4) (fld fa 20 2) 0 (t.payload eact c ctx)
  if async then (s.modCur c (fun b => { b with seqAsync := b.seqAsync + 1 })).postOutside c (faultCore fa) ctx m
  else (s.modCur c (fun b => { b with seqExact := b.seqExact + 1 })).post ⟨c, faultCore fa, ctx, .msg m⟩

/-- The handler of a core sends what it has to, with the EACT it leaves with (R136). -/
def State.sendTraps (s : State) (c : Nat) : State :=
  ((s.core c).tmsg.foldl (fun (t : State) p => t.sendTrap c (s.core c).eact.toNat p.1 p.2) s).modCore c (fun k => { k with tmsg := [] })

/-- The running activation's part of a trap message (R136); the fields of R140 when none runs. -/
def Bind.trapInfo (b : Bind) (code thr : Nat) (tval tepc : Word) (ptime : Nat) : TrapInfo :=
  match b.act with
  | some a => ⟨code, a.slot, thr, a.tag, tval, tepc, (b.slot a.slot).desc.entry, b.vtime, b.retired, ptime⟩
  | none => ⟨code, 0xFF, 0, 0, tval, 0, 0, 0, 0, ptime⟩

/-! ## Loops (R200, R201) -/

/-- The root core of a group of a context (R195). -/
def State.groupRoot (s : State) (ctx g : Nat) : Nat := ((SMap.find? (s.ctx ctx).groups g).map (·.root)).getD 0

/-- The view of a loop's group, where it still shows the generation that the loop runs (R200, R202). -/
def Bind.showLoop (b : Bind) (l : Loop) (f : NestView → NestView) : SMap NestView :=
  let v := SMap.get NestView.none b.views l.group
  if v.gen = l.gen then SMap.set NestView.none b.views l.group (f v) else b.views

/-- A loop's claim or leave goes to the root of its group; of a core in paired execution it leaves when its interval has agreed,
and it forces the close (R383, R384). -/
def State.postLoop (s : State) (c : Nat) (b : Body) (g : Nat) : State :=
  let p := (s.core c).pair
  let k : Packet := ⟨c, s.groupRoot (s.ctxOf c) g, s.ctxOf c, b⟩
  if p.mode = .off || p.mode = .diverged then s.post k
  else s.modCore c (fun q => { q with pair := { p with closing := true, out := p.out ++ [(p.interval, k)] } })

/-- Abandon the active loop of a core: a leave to the root, and the view shows what was abandoned (R201). -/
def State.abandonLoop (s : State) (c : Nat) : State :=
  match (s.cur c).loop with
  | none => s
  | some l =>
    (s.modCur c (fun b =>
      { b with loop := none, views := b.showLoop l (fun v => { v with st := 4, left := l.left, out := true }) })).postLoop c
      (.leave l.group l.gen) l.group

/-- i0..i3 of a flat index (R198). -/
def indexOf (f : Nat) (bs : List Nat) : List Nat :=
  let b0 := bs.getD 0 1
  let b1 := bs.getD 1 1
  let b2 := bs.getD 2 1
  [f % b0, if bs.length < 2 then 0 else f / b0 % b1, if bs.length < 3 then 0 else f / (b0 * b1) % b2,
    if bs.length < 4 then 0 else f / (b0 * b1 * b2)]

/-- Write i0..i3 (R198). -/
def Bind.setIndex (b : Bind) (f : Nat) (bs : List Nat) : Bind :=
  { b with i := SMap.ofFn 0 (fun k => w64 ((indexOf f bs).getD k 0)) 0 4 }

/-- Enter the body for the next index of the chunk (R200). -/
def Bind.enterBody (b : Bind) (l : Loop) : Bind :=
  let b1 := b.setIndex l.next l.bounds
  { b1 with
    loop := some { l with next := l.next + 1, left := l.left - 1, claim := false }
    pc := l.body
    views := b1.showLoop l (fun v => { v with st := 2, left := l.left - 1 }) }

/-- A core enters the body of its loop; i0..i3 are folded as registers 48 to 51 (R200, R383). -/
def State.enterBody (s : State) (c : Nat) (l : Loop) : State :=
  (s.modCur c (fun b => b.enterBody l)).fold ⟨c, 0⟩
    ((List.range 4).flatMap (fun k => leBytes 1 (48 + k) ++ leBytes 8 ((indexOf l.next l.bounds).getD k 0)))

/-- Claim the next chunk (R197, R200): the claim carries VTIME + RETIRED, and the program counter names the instruction
at target. -/
def State.claimChunk (s : State) (c : Nat) (l : Loop) (stamp : Nat) : State :=
  (s.modCur c (fun b => { b with loop := some { l with claim := true, left := 0 }, pc := l.target })).postLoop c
    (.claim l.group ⟨c, l.gen, stamp⟩) l.group

/-- The control thread's next program counter, through the iteration fetcher (R200, R201). `jump` for a taken branch. -/
def State.goto (s : State) (c : Nat) (target : Word) (jump : Bool) : State :=
  match (s.cur c).loop with
  | none => s.modCur c (fun b => { b with pc := target })
  | some l =>
    if target = l.target then
      if l.left = 0 then s.claimChunk c l (s.vnow c) else s.enterBody c l
    else if jump && (target < l.body || l.target ≤ target) then
      (s.abandonLoop c).modCur c (fun b => { b with pc := target })
    else s.modCur c (fun b => { b with pc := target })

/-! ## Retiring (R92) -/

/-- STOPPED or FAULT. -/
def Mt.still (m : Mt) : Bool := m.run = .stopped || m.run = .fault

/-- A micro-thread stops (R245, R252): its block is discarded, and the latch is set. -/
def State.stopMt (s : State) (c n : Nat) : State := (s.modMt c n (fun m => { m with run := .stopped, block := [], halt := false })).latch c

/-- A thread has executed its instruction of a debug STEP (R429). -/
def State.stepMark (s : State) (f : Focus) : State :=
  if s.dbg.mode = 3 then { s with dbg := { s.dbg with stepped := f.thr :: s.dbg.stepped } } else s

/-- An instruction of a micro-thread retires and its next address is `target`; the thread stops there at the end of its block, or
when it was to stop at its next boundary (R135, R245). -/
def State.retireMt (s : State) (c n : Nat) (target : Word) : State :=
  let s1 := (s.stepMark ⟨c, n + 1⟩).modMt c n (fun m =>
    { m with pc := target, block := m.block.drop 1, retired := m.retired + 1, skip := false })
  let s2 := s1.modCur c (fun b => { b with cnt := { b.cnt with mtRet := b.cnt.mtRet + 1 } })
  let m := (s2.cur c).mt n
  if (m.halt && m.pend.isEmpty) || (m.run = .broadcast && m.block.isEmpty) then s2.stopMt c n else s2

/-- An instruction of the control thread counts in RETIRED (R92); a handler's does not (R134). -/
def State.countCt (s : State) (c : Nat) : State :=
  (s.stepMark ⟨c, 0⟩).modCur c (fun b =>
    { b with retired := b.retired + 1, skip := false, cnt := { b.cnt with ctRet := b.cnt.ctRet + 1 } })

/-- An instruction of a thread retires; control goes to `target`, by a taken branch when `jump`. -/
def State.retireTo (s : State) (f : Focus) (target : Word) (jump : Bool) : State :=
  if f.thr = 0 then
    if (s.core f.core).hmode then s.modCore f.core (fun k => { k with hpc := target })
    else (s.countCt f.core).goto f.core target jump
  else s.retireMt f.core (f.thr - 1) target

/-- An instruction of `len` bytes retires and the next one follows it (R67). -/
def State.retire (s : State) (f : Focus) (len : Nat) : State := s.retireTo f (s.pcOf f + w64 len) false

/-- An instruction's result goes to a register and the instruction retires. -/
def State.finish (s : State) (f : Focus) (len d : Nat) (v : Word) : State := (s.wr f d v).retire f len

/-! ## Trap entry (R133) -/

/-- Cause codes (R89). -/
def cIllegal : Nat := 0x01
def cFormat : Nat := 0x02
def cMisalign : Nat := 0x03
def cAccess : Nat := 0x04
def cPstr : Nat := 0x05
def cEbx : Nat := 0x06
def cChk : Nat := 0x07
def cMtf : Nat := 0x08
def cDiverge : Nat := 0x09
def cBrk : Nat := 0x0A
def cSwtrap : Nat := 0x0B
def cPreempt : Nat := 0x0C
def cGate : Nat := 0x0D
def cScope : Nat := 0x0E
def cFrame : Nat := 0x0F
def cRate : Nat := 0x10
def cGroup : Nat := 0x11
def cHomelost : Nat := 0x12
def cAtomic : Nat := 0x13

/-- The default EACT of a cause (R135). -/
def defaultEact (code : Nat) : Nat :=
  if code = cSwtrap then 1 else if code = cBrk || code = cMtf || code = cPreempt then 0 else 2

/-- The control thread enters the handler (R133): the cause registers, HMODE, the default EACT, the handler bank, and
the address in TVEC; a trace record of type 6 (R434). `idle` when no activation runs (R140). -/
def State.enterTrap (s : State) (c code : Nat) (tval tepc : Word) (len : Nat) (idle : Bool) : State :=
  ((s.stepMark ⟨c, 0⟩).trace (s.ctxOf c) c 6 0 (w64 (code + 256 * defaultEact code)) tval).modCore c (fun k =>
    { k with
      tcause := w64 code
      tval := tval
      tepc := tepc &&& ~~~1
      trapLen := len
      trapIdle := idle
      hmode := true
      eact := BitVec.ofNat 2 (defaultEact code)
      hpc := k.tvec })

/-- A micro-thread faults (R256, R257): it records cause, TVAL and PC, its MTFLT bit is set, and an MTF event goes to
the control thread. -/
def State.mtFault (s : State) (c n code : Nat) (tval : Word) : State :=
  let s1 := (s.stepMark ⟨c, n + 1⟩).modMt c n (fun m => { m with run := .fault, block := [], cause := code, tval := tval, mtf := true, waits := false, got := [], prog := 0, grp := 0, halt := false })
  let s2 := (s1.modCur c (fun b => { b with mtflt := setBit b.mtflt n })).latch c
  if (s2.cur c).mtfe then s2.pendCause (s2.ctxOf c) c pMtf 64 (s2.cur c).mtflt else s2

/-- A pair that no longer runs: what PAIRSTAT still counts of it (R386, R388). -/
def PairSt.ended (p : PairSt) : PairSt := { PairSt.none with interval := p.interval, tiebrk := p.tiebrk, rollb := p.rollb }

/-- A spare that was to decide a tie-break of a core is free again (R11). -/
def State.freeSpare (s : State) (c : Nat) : State :=
  match (s.core c).pair.spare with
  | some die => { s with spares := SMap.set 0 s.spares die (SMap.get 0 s.spares die + 1) }
  | none => s

/-- Paired execution of a core ends (R385, R386, R388): PAIRSTAT keeps its counts; what the pair still held back leaves its
intervals, and a spare that was to decide is free again (R11). -/
def State.unpair (s : State) (c : Nat) : State :=
  if (s.core c).pair.mode = .off then s
  else
    let s2 := (s.core c).pair.out.foldl (fun (t : State) q => t.post q.2) (s.freeSpare c)
    ((s2.modCore c (fun k => { k with pair := (s.core c).pair.ended })).modCore (c + 1) (fun k => { k with pair := (s.core c).pair.ended })).modCur c (fun b =>
      { b with journal := b.journal.map (fun e => (e.1, { e.2 with ival := 0 })) })

/-- The primary core of the pair that a core belongs to. -/
def State.primaryOf (s : State) (c : Nat) : Nat := if (s.core c).pair.partner then c - 1 else c

/-- Whether an access is a posted store, or a probe for one (R290, R355). -/
def Acc.posted (a : Acc) : Bool :=
  match a.kind with
  | .store _ => true
  | .probe _ => true
  | _ => false

/-- The actor slots of a binding whose activation is no more and whose inbox has moved to the message buffer (R174): IDLE, with the
descriptors that waited. -/
def Bind.idleSlots (b : Bind) : SMap Slot :=
  b.slots.map (fun p => (p.1, if p.2.st = .empty then p.2 else { p.2 with st := .idle, desc := p.2.next.getD p.2.desc, next := none }))

/-- A binding leaves its core without a save: its inbox moves to the message buffer, and nothing of it runs (R139, R174, R385). -/
def Bind.thrownOut (b : Bind) : Bind :=
  { b with
    st := .out, act := none, endWait := false, waits := false, pend := [], got := [], outbox := []
    msgBuf := b.msgBuf ++ b.inbox.map (fun h => { h with delivered := false }), inbox := [], slots := b.idleSlots }

/-- A binding is abandoned without a save (R115, R139): its accesses are forgotten, posted stores apart, and paired execution
ends. -/
def State.abandon (s : State) (c : Nat) : State :=
  match (s.core c).ctx with
  | none => s
  | some n =>
    let gone := (s.accs.filter (fun a => a.core = c && a.ctx = n && !a.posted)).map (·.id)
    let s0 := s.unpair (s.primaryOf c)
    let s1 := s0.modBind n c (fun b => { b.thrownOut with savedAt := s.ptime })
    let s2 := s1.modCore c (fun k => { k with ctx := none, hmode := false, sbusy := false, saving := false, tmsg := [] })
    { s2 with accs := s2.accs.filter (fun a => !gone.contains a.id), parks := s2.parks.filter (fun p => !gone.contains p.acc) }

/-- An exact cause in handler mode (R139): every thread stops, the binding is abandoned without a save, a machine-check
record goes to the management path, and the context becomes FAULTED. The record holds the cause, the core, the CTXID and PTIME
(log 94). -/
def State.doubleTrap (s : State) (c code : Nat) : State :=
  match (s.core c).ctx with
  | none => s
  | some n =>
    let s1 := s.abandon c
    ({ s1 with sent := s1.sent ++ [leBytes 1 code ++ leBytes 2 c ++ leBytes 4 n ++ leBytes 8 s.ptime] }).faultCtx n code 2

/-- The control thread takes an exact trap on the instruction at its PC, of the recorded length (R133-R139, R201): the
handler is entered, and the trap message of R136 is sent unless the cause is BRK; a CHK taken counts (R437). -/
def State.ctTrap (s : State) (c len code : Nat) (tval : Word) : State :=
  let b := s.cur c
  let s0 := if code = cChk then s.modCur c (fun b => { b with cnt := { b.cnt with chk := b.cnt.chk + 1 } }) else s
  let s1 := if code = cBrk then s0 else s0.abandonLoop c
  let s2 := if code = cBrk then s1 else s1.forward c (b.trapInfo code 0 tval b.pc s.ptime) false
  s2.enterTrap c code tval b.pc len false

/-- An exact trap of a thread (R38, R133, R139, R256). -/
def State.exact (s : State) (f : Focus) (len code : Nat) (tval : Word) : State :=
  if f.thr = 0 then
    if (s.core f.core).hmode then s.doubleTrap f.core code else s.ctTrap f.core len code tval
  else s.mtFault f.core (f.thr - 1) code tval

/-- An exact trap once every earlier load of the thread has returned, so that the causes come in program order (R38). -/
def State.raise (s : State) (f : Focus) (len code : Nat) (tval : Word) : State :=
  if s.inHandler f || (s.pendOf f).isEmpty then s.exact f len code tval else s

/-! ## Input sets and the end of an activation -/

/-- INCNT of a channel. -/
def Desc.inc (d : Desc) (ch : Nat) : Nat := fld d.incnt (8 * ch) 8

/-- OUTCNT of a channel. -/
def Desc.out (d : Desc) (ch : Nat) : Nat := fld d.outcnt (8 * ch) 8

/-- REPL of a descriptor (R175). -/
def Desc.repl (d : Desc) : Bool := bit d.flags 0

/-- An eager actor (R175). -/
def Desc.eager (d : Desc) : Bool := bit d.flags 1

/-- CLASS of a descriptor (R175). -/
def Desc.cls (d : Desc) : Nat := fld d.flags 2 2

/-- PRIO of a descriptor (R175). -/
def Desc.prio (d : Desc) : Nat := fld d.flags 4 4

/-- Whether any input channel is declared (R176). -/
def Desc.declares (d : Desc) : Bool := d.incnt ≠ 0

/-- Split an inbox into the input set of a slot and the rest: the first `n ch` delivered messages of each channel. -/
def splitSet (k : Nat) (n : Nat → Nat) : List Held → List Held × List Held
  | [] => ([], [])
  | h :: t =>
    if h.delivered && h.msg.dslot = k && 0 < n h.msg.dchan then
      let r := splitSet k (fun c => if c = h.msg.dchan then n c - 1 else n c) t
      (h :: r.1, r.2)
    else
      let r := splitSet k n t
      (r.1, h :: r.2)

/-- What a slot's input set takes from the inbox, and from the message buffer, to which a bank that left FIFO mode may have moved delivered
messages (R282; log 85). -/
def Bind.setParts (b : Bind) (k : Nat) : (List Held × List Held) × (List Held × List Held) :=
  let inc := (b.slot k).desc.inc
  let r := splitSet k inc b.inbox
  (r, splitSet k (fun ch => inc ch - (r.1.filter (fun h => h.msg.dchan = ch)).length) b.msgBuf)

/-- The input set of a slot, in delivery order (R177). -/
def Bind.inputSet (b : Bind) (k : Nat) : List Held := (b.setParts k).1.1 ++ (b.setParts k).2.1

/-- The input count of a channel of a slot (R174). -/
def Bind.delivered (b : Bind) (k ch : Nat) : Nat :=
  ((b.inbox ++ b.msgBuf).filter (fun h => h.delivered && h.msg.dslot = k && h.msg.dchan = ch)).length

/-- Whether every declared input count has been reached (R174). -/
def Bind.slotMet (b : Bind) (k : Nat) : Bool :=
  let d := (b.slot k).desc
  d.declares && (List.range 4).all (fun ch => d.inc ch ≤ b.delivered k ch)

/-- A slot that has left RUNNING: a descriptor that waited is loaded, and readiness is computed again (R174). -/
def Bind.settleSlot (b : Bind) (k : Nat) : Bind :=
  let b1 := b.modSlot k (fun q => match q.next with | some d => { q with desc := d, next := none } | none => q)
  b1.modSlot k (fun q => { q with st := if b1.slotMet k then .ready else .idle })

/-- Consume the input set of a slot (R193). -/
def Bind.consume (b : Bind) (k : Nat) : Bind :=
  let b1 := { b with inbox := (b.setParts k).1.2, msgBuf := (b.setParts k).2.2 }
  (b1.modSlot k (fun q => { q with redlv := 0 })).settleSlot k

/-- Return the input set of a slot to its channels, unchanged (R194). -/
def Bind.giveBack (b : Bind) (k : Nat) : Bind :=
  (b.modSlot k (fun q => { q with redlv := q.redlv + 1 })).settleSlot k

/-- The activation no longer runs (R180, R193), and every gate window closes (R398). -/
def Bind.idle (b : Bind) : Bind :=
  { b with act := none, endWait := false, vtime := 0, produced := [], waits := false, pend := [], windows := [] }

/-- An access that has not performed and may be abandoned (R141). -/
def AccSt.droppable : AccSt → Bool
  | .flying => true
  | .parked => true
  | .parkWait => true
  | .leaseWait => true
  | .fullWait => true
  | .hostWait => true
  | _ => false

/-- Whether an access has taken an effect that its thread cannot abandon (R122; log 5): an atomic or a clearing load that has
performed, or that the host may have performed. -/
def Acc.committed (a : Acc) : Bool :=
  !a.st.droppable && (match a.st with | .refused _ => false | _ => true) &&
    (match a.kind with | .amo _ _ _ => true | .fullLoad clear => clear | _ => false)

/-- The accesses of a thread, its posted stores and their probes apart. -/
def State.ofThread (s : State) (f : Focus) (a : Acc) : Bool :=
  a.core = f.core && a.ctx = s.ctxOf f.core && a.thr = f.thr && !a.posted

/-- Whether a thread waits for an access that has taken effect, so that its instruction can no longer be abandoned
(log 5). -/
def State.committedBy (s : State) (f : Focus) : Bool := s.accs.any (fun a => s.ofThread f a && a.committed)

/-- Whether an access reads host memory for a thread, where it goes there (R441). -/
def AccKind.reads : AccKind → Bool
  | .load => true
  | .amo _ _ _ => true
  | .vload => true
  | _ => false

/-- Whether an access is a host read of a thread (R441): a load, an AMO or a vector load; the payload of a SEND is none. -/
def Acc.hostRead (a : Acc) : Bool := isHost a.la && a.kind.reads && !(a.kind = .vload && a.thr = 0)

/-- The parts of a read that have returned to a thread. -/
def State.gotOf (s : State) (f : Focus) : List GotPart :=
  if f.thr = 0 then (s.cur f.core).got else ((s.cur f.core).mt (f.thr - 1)).got

/-- The accesses that a thread has issued and nobody waits for any more are dropped, posted stores and effects already taken
excepted; their parks go with them (R141, R343), and they count as host reads no more (R441). A request that the host has still to
answer stays as a read whose value goes nowhere. -/
def State.dropAccs (s : State) (f : Focus) : State :=
  let gone := fun (a : Acc) => s.ofThread f a && !a.committed && a.st ≠ .hostOut
  let ids := (s.accs.filter gone).map (·.id)
  let reads := (s.accs.filter (fun a => s.ofThread f a && !a.committed && a.hostRead)).length + ((s.gotOf f).filter (·.host)).length
  let s1 := { s.modCur f.core (fun b => { b with hostReads := SMap.set 0 b.hostReads f.thr (SMap.get 0 b.hostReads f.thr - reads) }) with
    accs := (s.accs.filter (fun a => !gone a)).map (fun a => if s.ofThread f a && !a.committed then { a with kind := .prefetch } else a)
    parks := s.parks.filter (fun p => !ids.contains p.acc) }
  if f.thr = 0 then s1.modCur f.core (fun b => { b with got := [] }) else s1.modMt f.core (f.thr - 1) (fun m => { m with got := [] })

/-- The probes of a group of granule stores (R355). -/
def State.probesOf (s : State) (ctx c grp : Nat) : List Acc :=
  s.accs.filter (fun a => a.core = c && a.ctx = ctx && a.kind = .probe grp)

/-- The probes of a group are forgotten, and the holds of those that were answered end (R355). -/
def State.dropProbes (s : State) (ctx c grp : Nat) : State :=
  let ps := s.probesOf ctx c grp
  let ids := ps.map (·.id)
  let s1 := ps.foldl (fun (t : State) a =>
    if a.st = .done && isMemory a.la then t.modFrame (a.la / 4096) (fun r => { r with hold := r.hold - 1 }) else t) s
  { s1 with accs := s1.accs.filter (fun a => !ids.contains a.id), parks := s1.parks.filter (fun p => !ids.contains p.acc) }

/-- Whether a thread's vector store has moved nothing yet: a probe of it has not been answered (R232, R244). -/
def State.storeParked (s : State) (c n : Nat) : Bool :=
  let g := ((s.cur c).mt n).grp
  g ≠ 0 && (s.probesOf (s.ctxOf c) c g).any (fun a => !(a.st = .done))

/-- Whether a thread is in a vector store that has begun to move data and finishes before its boundary (R244). Behind a load that has
not returned it has moved nothing: its entries stay on the core (R38). -/
def State.storeBegun (s : State) (c n : Nat) : Bool :=
  ((s.cur c).mt n).prog ≠ 0 && ((s.cur c).mt n).pend.isEmpty && !s.storeParked c n

/-- A vector store that has moved nothing is abandoned (R244): its entries, which no target has seen, and its probes go. -/
def State.dropVst (s : State) (c n : Nat) : State :=
  let g := ((s.cur c).mt n).grp
  if g = 0 then s
  else
    (s.dropProbes (s.ctxOf c) c g).modCur c (fun b =>
      { b.modMt n (fun m => { m with prog := 0, grp := 0 }) with
        journal := b.journal.filter (fun p => !(p.2.grp = g && p.2.st = .held)) })

/-! ## Taking a thread back to a load (R38, R93, R141) -/

/-- The loads of a thread that have not returned. -/
def Bind.pendOf (b : Bind) (thr : Nat) : List PendLoad := if thr = 0 then b.pend else (b.mt (thr - 1)).pend

/-- Whether an entry was posted behind a load of its thread that has not returned: an exact fault of that load would take it
back, so it stays on the core meanwhile (R38, R93). -/
def Bind.unsure (b : Bind) (e : JEntry) : Bool := e.st = .held && (b.pendOf e.thr).any (fun p => p.snap.jseq ≤ e.seq)

/-- The entries of a thread posted since a load issued are taken back. -/
def Bind.unpost (b : Bind) (thr jseq : Nat) : Bind :=
  let mine := fun (e : JEntry) => e.st = .held && e.thr = thr && jseq ≤ e.seq
  { b with
    journal := b.journal.filter (fun p => !mine p.2)
    cnt := { b.cnt with stores := b.cnt.stores - (b.journal.filter (fun p => mine p.2)).length } }

/-- A micro-thread as it stood when a load of it issued. -/
def Mt.undo (m : Mt) (k : Snap) : Mt :=
  { m with
    w := k.regs, e := k.es, v := k.v, shape := k.shape, pc := k.pc, retired := k.retired, block := k.block, crc := k.crc
    pend := [], waits := false, got := [], prog := 0, grp := 0 }

/-- The control thread as it stood when a load of it issued. -/
def Bind.undoCt (b : Bind) (k : Snap) : Bind :=
  { b.unpost 0 k.jseq with
    x := k.regs, e := k.es, i := k.ix, pc := k.pc, retired := k.retired, loop := k.loop, views := k.views, crc := k.crc
    pend := [], waits := false, got := []
    cnt := { (b.unpost 0 k.jseq).cnt with ctRet := b.cnt.ctRet - (b.retired - k.retired) } }

/-- Micro-thread n of a binding as it stood when a load of it issued. -/
def Bind.undoMt (b : Bind) (n : Nat) (k : Snap) : Bind :=
  let b1 := b.unpost (n + 1) k.jseq
  { b1.modMt n (fun m => m.undo k) with cnt := { b1.cnt with mtRet := b.cnt.mtRet - ((b.mt n).retired - k.retired) } }

/-- A thread of a core goes back to a load of its own that has not returned: whatever it has issued since goes. Copies in the L1
that its taken-back stores have changed are dropped. -/
def State.takeBack (s : State) (f : Focus) (k : Snap) : State :=
  let b := s.cur f.core
  let back := b.journal.filter (fun p => p.2.st = .held && p.2.thr = f.thr && k.jseq ≤ p.2.seq)
  let lines := back.map (fun p => p.2.la / 128)
  let grps := ((if f.thr = 0 then 0 else (b.mt (f.thr - 1)).grp) :: back.map (fun p => p.2.grp)).eraseDups.filter (· ≠ 0)
  let s2 := grps.foldl (fun (t : State) g => t.dropProbes (s.ctxOf f.core) f.core g) (s.dropAccs f)
  let s3 := s2.modCore f.core (fun q => { q with l1 := q.l1.filter (fun p => !lines.contains p.1) })
  s3.modCur f.core (fun b =>
    let b1 := if f.thr = 0 then b.undoCt k else b.undoMt (f.thr - 1) k
    { b1 with hostReads := SMap.set 0 b1.hostReads f.thr k.hostReads })

/-- What a thread is blocked in is abandoned and issues again (R122, R141, R244): it goes back to its oldest load that has not
returned, or stays at the instruction that waits. -/
def State.toBoundary (s : State) (f : Focus) : State :=
  match s.pendOf f with
  | p :: _ => s.takeBack f p.snap
  | [] =>
    let s1 := (s.dropAccs f).setWaits f false
    if f.thr ≠ 0 && !s1.storeBegun f.core (f.thr - 1) then s1.dropVst f.core (f.thr - 1) else s1

/-- Whether a micro-thread is inside an instruction that has begun to take effect (R244). -/
def State.inPath (s : State) (c n : Nat) : Bool := s.committedBy ⟨c, n + 1⟩ || s.storeBegun c n

/-- Whether that instruction must finish before the micro-thread's boundary (R122, R244): a vector store behind a load that has not
returned has sent nothing yet, and goes back with it. -/
def State.midway (s : State) (c n : Nat) : Bool :=
  s.committedBy ⟨c, n + 1⟩ || (s.storeBegun c n && (s.pendOf ⟨c, n + 1⟩).isEmpty)

/-- A micro-thread stops at its next boundary (R135, R245). -/
def State.haltMt (s : State) (c n : Nat) : State :=
  if s.midway c n then s.modMt c n (fun m => { m with halt := true }) else (s.toBoundary ⟨c, n + 1⟩).stopMt c n

/-- Every micro-thread stops when the activation ends failed (R135, R245). -/
def State.stopArray (s : State) (c : Nat) : State :=
  (List.range 16).foldl
    (fun (t : State) n =>
      match ((t.cur c).mt n).run with
      | .broadcast => t.haltMt c n
      | .fetched => t.haltMt c n
      | _ => t) s

/-- The delay-account entry that a message charges: its own, the lowest free one of 0..30, or entry 31 (R436). -/
def Core.delayFor (k : Core) (ctx saddr sslot : Nat) : Nat :=
  let e := fun n => SMap.get DelayEnt.free k.delay n
  match (List.range 31).find? (fun n => (e n).used && (e n).ctx = ctx && (e n).saddr = saddr && (e n).sslot = sslot) with
  | some n => n
  | none => ((List.range 31).find? (fun n => !(e n).used)).getD 31

/-- Charge one message of an input set to the delay accounts (R436). -/
def Core.chargeDelay (k : Core) (ctx fired now : Nat) (h : Held) : Core :=
  let n := k.delayFor ctx h.msg.saddr h.msg.sslot
  let e := SMap.get DelayEnt.free k.delay n
  let tr := h.arrival - h.msg.sptime
  let wt := fired - h.arrival
  let rn := now - fired
  let e1 : DelayEnt := { used := true, ctx := ctx, saddr := if n = 31 then 0xFFFF else h.msg.saddr, sslot := h.msg.sslot,
                         count := e.count + 1, transit := e.transit + tr, wait := e.wait + wt, run := e.run + rn,
                         maxSum := max e.maxSum (tr + wt + rn) }
  { k with delay := SMap.set DelayEnt.free k.delay n e1 }

/-- Charge the input set of a core's activation to its delay accounts, at its end (R436). -/
def State.chargeInputs (s : State) (c : Nat) : State :=
  match (s.cur c).act with
  | none => s
  | some a => s.modCore c (fun k =>
      ((s.cur c).inputSet a.slot).foldl (fun q h => q.chargeDelay (s.ctxOf c) a.fired s.ptime h) k)

/-- Every thread of a binding taken back to its oldest load that has not returned (R384). -/
def Bind.rolled (b : Bind) : Bind :=
  let b1 := (List.range 16).foldl (fun (q : Bind) n =>
    match (q.mt n).pend with
    | p :: _ => q.undoMt n p.snap
    | [] => q.modMt n (fun m => { m with waits := false, got := [] })) b
  match b.pend with
  | p :: _ => b1.undoCt p.snap
  | [] => { b1 with waits := false, got := [] }

/-- The activation of a core ends failed (R135, R194): the outbox is dropped, every micro-thread stops, and the input set
is consumed, or returned when `redeliver` and the actor is replayable with fewer than three redeliveries. `why` is the
VALUE of the trace record of type 2 unless the input set is redelivered (R434). -/
def State.endFailed (s : State) (c : Nat) (redeliver : Bool) (why : Word) : State :=
  match (s.cur c).act with
  | none => s
  | some a =>
    let q := (s.cur c).slot a.slot
    let again := redeliver && q.desc.repl && q.redlv < 3
    let s0 := ((s.unpair c).trace (s.ctxOf c) c 2 0 (if again then 3 else why) 0).chargeInputs c
    let s1 := ((s0.abandonLoop c).stopArray c).dropAccs ⟨c, 0⟩
    let s2 := s1.modCur c (fun b =>
      let b1 := { b with outbox := [], cnt := { b.cnt with failed := b.cnt.failed + 1, redeliv := b.cnt.redeliv + b2n again } }
      (if again then b1.giveBack a.slot else b1.consume a.slot).idle)
    if redeliver && q.desc.repl && !again then
      s2.relRec (relRecord s.ptime (s.cur c).vtime (s.ctxOf c) 3 a.slot c 3 0)
    else s2

/-! ## Asynchronous traps (R140) and ERET (R149) -/

/-- The causes of the pending bits, in the order they are taken (R90). -/
def asyncOrder : List (Nat × Nat) :=
  [(pPstr, cPstr), (pEbx, cEbx), (pMtf, cMtf), (pDiverge, cDiverge), (pFrame, cFrame), (pHomelost, cHomelost),
    (pPreempt, cPreempt)]

/-- The pending causes that may be taken: MTF only while TSTAT.MTFE is 1 (R135, R257), and the PREEMPT of a debug stop once the stop
has ended (log 82). -/
def Bind.takable (b : Bind) : BitVec 7 :=
  let w := if b.st = .bound then clrBit b.pendBits pPreempt else b.pendBits
  if b.mtfe then w else clrBit w pMtf

/-- The first pending asynchronous cause: its bit, its code, the key of its TVAL and the TVAL (R90); of MTF it is MTFLT as it
stands now (R89). -/
def Bind.firstAsync (b : Bind) : Option (Nat × Nat × Nat × Word) :=
  (asyncOrder.find? (fun p => bit b.takable p.1)).map (fun p =>
    match List.find? (fun e => e.1 / 256 = p.1) b.asyncVal with
    | some e => (p.1, p.2, e.1, if p.1 = pMtf then b.mtflt else e.2)
    | none => (p.1, p.2, causeKey p.1 64, 0))

/-- Take one reported value of a pending cause away; the bit falls with the last one. -/
def Bind.takeAsync (b : Bind) (p key : Nat) : Bind :=
  let vals := SMap.del b.asyncVal key
  { b with asyncVal := vals, pendBits := if vals.any (fun e => e.1 / 256 = p) then b.pendBits else clrBit b.pendBits p }

def Bind.entry (b : Bind) (n : Nat) : JEntry := SMap.get JEntry.free b.journal n

def Bind.modEntry (b : Bind) (n : Nat) (f : JEntry → JEntry) : Bind :=
  { b with journal := SMap.set JEntry.free b.journal n (f (b.entry n)) }

def Bind.actRec (b : Bind) (n : Nat) : ActRec := SMap.get ActRec.free b.recs n

/-- The trap message of an asynchronous cause (R136): from the journal entry and its activation record for a refused
posted access, from the running activation otherwise. `idx` is the entry, or at least 64 for none. -/
def Bind.asyncInfo (b : Bind) (code idx : Nat) (tval tepc : Word) (ptime : Nat) : TrapInfo :=
  if idx < 64 then
    let e := b.entry idx
    let r := b.actRec e.recNo
    ⟨code, r.slot, e.thr, r.tag, tval, tepc, r.entry, r.vtime, e.retired, ptime⟩
  else b.trapInfo code 0 tval tepc ptime

/-- The trap messages of the micro-threads that have entered FAULT since MTF was last taken (R257); the fields of an activation
are those of R140 when none runs. -/
def State.mtfMessages (s : State) (c : Nat) : State :=
  (List.range 16).foldl
    (fun (t : State) n =>
      let m := (t.cur c).mt n
      if m.mtf then
        (t.forwardAs c cMtf { (t.cur c).trapInfo m.cause (n + 1) m.tval m.pc t.ptime with thr := n + 1, tepc := m.pc } true).modMt c n
          (fun q => { q with mtf := false })
      else t) s

/-- Take the first pending asynchronous cause at a control-thread boundary (R140): the blocked instruction is abandoned
and TEPC names it; with no activation running, TEPC is 0 and the length 2. `len` gives the length of the instruction there. -/
def State.takeAsync (s : State) (c : Nat) (len : State → Nat) : State :=
  let s1 := s.toBoundary ⟨c, 0⟩
  let b := s1.cur c
  match b.firstAsync with
  | none => s
  | some (p, code, key, tval) =>
    let idle := b.act.isNone
    let tepc := if idle then 0 else b.pc
    let s2 := s1.modCur c (fun q => q.takeAsync p key)
    let s3 :=
      if code = cPreempt then s2
      else if code = cMtf then s2.mtfMessages c
      else s2.forward c (b.asyncInfo code (key % 256) tval tepc s.ptime) true
    s3.enterTrap c code tval tepc (if idle then 2 else len s1) idle

/-- The control thread resumes at an address; where the fetcher holds a granted chunk and the address is the loop's
target, the body is entered (R200). -/
def State.resumeAt (s : State) (c : Nat) (pc : Word) : State :=
  let s1 := s.modCur c (fun b => { b with pc := pc })
  match (s1.cur c).loop with
  | some l => if pc = l.target && !l.claim && 0 < l.left then s1.enterBody c l else s1
  | none => s1

/-- Abandon a core's binding without a save and quarantine the core: its inbox moves to the message buffer (R385). -/
def State.quarantine (s : State) (c : Nat) : State :=
  match (s.core c).ctx with
  | none => s.modCore c (fun k => { k with quar := true })
  | some n =>
    (s.modBind n c (fun b => b.thrownOut)).modCore c
      (fun k => { k with ctx := none, hmode := false, quar := true, pair := PairSt.none, tmsg := [] })

/-! ## Binding a context (R116, R141, R164, R165, R168) -/

/-- Whether Apex may name a context in a core's bind record (R115, R141, R168): LIVE, with a save area there, the core in
service, no wake entry of the binding outstanding, and an account that can pay. -/
def State.bindable (s : State) (n c acct : Nat) : Bool :=
  (s.ctx n).st = .live && ((s.ctx n).cores.contains c || (s.ctx n).partners.contains c) && !(s.core c).quar &&
    !(s.wakes.any (fun w => w.ctx = n && w.core = c && (!w.store || s.parks.any (fun p => p.acc = w.acc)))) && s.canPay acct

/-- Whether a restore may begin: the core is free and the binding is not in use (R116). -/
def State.mayBind (s : State) (n c : Nat) : Bool :=
  s.bindable n c (recAccount (s.slotRec c)) && (s.core c).ctx.isNone && ((s.bind n c).st = .unbound || (s.bind n c).st = .out)

/-- The halves of a macro that hold a tile are to be read again (R124). -/
def Cim.reload (k : Cim) : Cim :=
  { k with h0 := { k.h0 with loading := k.h0.loaded && !k.h0.invalid }, h1 := { k.h1 with loading := k.h1.loaded && !k.h1.invalid } }

/-- RESTORING begins where the core's bind record names a context that may be bound (R116, R164); at a first binding MTFE
is taken from the context record (R117). -/
def State.beginRestore (s : State) (c : Nat) : State :=
  let n := recCtx (s.slotRec c)
  if recValid (s.slotRec c) && s.mayBind n c then
    (s.modBind n c (fun b =>
      { b with st := .restoring, cims := b.cims.map (fun p => (p.1, p.2.reload))
               mtfe := if b.st = .unbound then bit (s.ctx n).flags 0 else b.mtfe })).modCore c (fun k =>
      { k with ctx := some n, sbusy := true, saving := false, serr := false })
  else s

/-- What a binding takes from its save area: the context's state at its last save. What the network interface, the journal and Apex
keep up to date stays: messages, sequence numbers, actors (R173, R174), posted stores and pending causes. -/
def Bind.loadArea (b a : Bind) : Bind :=
  { a with
    inbox := b.inbox, msgBuf := b.msgBuf, netBuf := b.netBuf, journal := b.journal, recs := b.recs, jseq := b.jseq
    pendBits := b.pendBits, asyncVal := b.asyncVal, roots := b.roots, cnt := b.cnt, outbox := b.outbox, slots := b.slots
    seqMsg := b.seqMsg, seqAns := b.seqAns, seqExact := b.seqExact, seqAsync := b.seqAsync }

/-- A saved binding as it leaves its core: what its area holds, and the engine commands as they stand, whose forwarded tiles may have
been taken since (R274, R278). -/
def Bind.leave (b a : Bind) : Bind := { b.loadArea a with cmds := b.cmds, cims := b.cims, tiles := b.tiles, st := .out }

/-- ERET's own effect once no save or restore runs (R149): the core leaves a SAVING binding whose PREEMPT has been taken, or that
the handler has saved, and takes up the one its record names; what was not saved is abandoned. With no activation the core
returns to dispatch; otherwise EACT decides. A pending asynchronous cause is taken by the next step of the core. -/
def State.eretBody (s : State) (c : Nat) : State :=
  match (s.core c).ctx with
  | none => s.modCore c (fun k => { k with hmode := false })
  | some n =>
    let k := s.core c
    let b := s.bind n c
    if b.st = .saving && (k.saving || !bit b.pendBits pPreempt) then
      let s1 := s.trace n c 7 0 (w64 (256 * b.prsn)) 0
      if k.saving then
        ((s1.modBind n c (fun b => b.leave ((SMap.find? s.areas (bindKey n c)).getD b))).modCore c (fun k =>
          { k with hmode := false, ctx := none, saving := false })).beginRestore c
      else (s1.abandon c).beginRestore c
    else if b.act.isNone then s.modCore c (fun k => { k with hmode := false, saving := false })
    else
      let s1 := s.modCore c (fun k => { k with hmode := false, saving := false })
      match k.eact.toNat with
      | 0 => s1.resumeAt c k.tepc
      | 1 => (if k.tcause = w64 cBrk && s.dbg.cause = 3 then s1.countCt c else s1).goto c (k.tepc + w64 k.trapLen) false
      | 2 => s1.endFailed c false (2 + (k.tcause <<< 8))
      | _ => s1.endFailed c (k.pair.mode ≠ .diverged) (2 + (k.tcause <<< 8))

/-- ERET (R149): the handler sends its trap messages with the EACT it leaves with (R136); of a diverged pair that has taken DIVERGE
both bindings are then abandoned and both cores quarantined (R385). -/
def State.eretGo (s : State) (c : Nat) : State :=
  let t := s.sendTraps c
  if (t.core c).pair.mode = .diverged && !bit (t.cur c).pendBits pDiverge then ((t.eretBody c).quarantine c).quarantine (c + 1) else t.eretBody c

/-! ## Forced closes of a pair (R383) -/

/-- Which instruction of which thread comes next: the mark of a forced close. -/
def State.closeMark (s : State) (f : Focus) : Nat :=
  (if f.thr = 0 then (s.cur f.core).retired else ((s.cur f.core).mt (f.thr - 1)).retired) * 32 + f.thr

/-- A pair has agreed at the forced close of the instruction that comes next (R383). -/
def State.agreedHere (s : State) (f : Focus) : Bool :=
  let p := (s.core f.core).pair
  p.mode ≠ .off && p.mode ≠ .diverged && !p.closing && p.agreed && s.closeMark f = p.mark

/-- A forced close is due before the instruction: the core is paired and has not agreed at this instruction yet (R383). -/
def State.forceClose (s : State) (f : Focus) : Option State :=
  let p := (s.core f.core).pair
  if p.mode = .off || p.mode = .diverged || s.agreedHere f then none
  else if p.closing then some s
  else some (s.modCore f.core (fun k => { k with pair := { p with closing := true, agreed := true, mark := s.closeMark f } }))

/-- A checkpoint taken past the instruction of one thread that the forced close held (R383, R384): its effect has left the pair
and a rollback does not repeat it. -/
def Bind.passing (b k : Bind) (thr : Nat) : Bind :=
  let r := b.rolled
  if thr = 0 then { r with mts := k.mts }
  else { k.modMt (thr - 1) (fun _ => r.mt (thr - 1)) with chki := b.chki, hostReads := b.hostReads }

/-- `t` follows from `s` by an instruction whose forced close may have agreed: the checkpoint then moves past it. -/
def State.passClose (s : State) (f : Focus) (t : State) : State :=
  if s.agreedHere f then
    t.modCore f.core (fun q => { q with pair := { q.pair with ckpt := q.pair.ckpt.map (fun k => (t.cur f.core).passing k f.thr) } })
  else t

/-- Wait for a forced close of the pair (R383) before an effect; on a partner, for the close of its primary (R387). -/
def State.afterClose (s : State) (f : Focus) (t : State) : State :=
  if (s.core f.core).pair.partner then (s.forceClose ⟨f.core - 1, f.thr⟩).getD t else (s.forceClose f).getD (s.passClose f t)

/-! ## The partner of a pair (R380) -/

/-- A core's view of its pair (R386): a partner's intervals and reruns are its primary's. -/
def State.pairOf (s : State) (c : Nat) : PairSt :=
  let p := (s.core c).pair
  if p.partner && p.mode ≠ .off then { (s.core (c - 1)).pair with partner := true, spare := none, out := [] } else p

/-- What a partner's binding holds of its primary's threads (R380): registers, queues, loop and fingerprints. -/
def Bind.replica (own prim : Bind) : Bind :=
  { own with
    x := prim.x, e := prim.e, i := prim.i, pc := prim.pc, vtime := prim.vtime, retired := prim.retired, mtmask := prim.mtmask
    mtflt := prim.mtflt, q1 := prim.q1, q2 := prim.q2, q3 := prim.q3, mts := prim.mts, loop := prim.loop, crc := prim.crc }

/-- A core's binding as it stands: of a partner in paired execution, with the replica of its primary's threads (R380). -/
def State.shown (s : State) (c : Nat) : Bind :=
  let p := (s.core c).pair
  if p.partner && p.mode ≠ .off then (s.cur c).replica (s.bind (s.ctxOf c) (c - 1)) else s.cur c

/-- The fingerprints of a binding's seventeen threads (R383). -/
def Bind.crcs (b : Bind) : List Word := b.crc :: (List.range 16).map (fun n => (b.mt n).crc)

/-- An access must wait for entries of its core's journal: where a HELD one of an interval that has not agreed is among them, the
close is forced (R383). -/
def State.waitHeld (s : State) (f : Focus) (these : JEntry → Bool) : State :=
  if (s.cur f.core).journal.any (fun p => p.2.st = .held && p.2.ival ≠ 0 && these p.2) then (s.forceClose f).getD s else s

/-- The entries that an SO access of a thread waits for (R308), and those that hold some bytes of a range (R291). -/
def JEntry.soOf (thr : Nat) (e : JEntry) : Bool := e.thr = thr && e.attr = 0
def JEntry.holds (la n : Nat) (e : JEntry) : Bool := e.la < la + n && la < e.la + e.size

end Sys2Proof.Machine
end

