-- ==== Sys2Proof/Machine/Area.lean ====
section
/-! DEFINITION. The save area of a context on a core as bytes (R118-R121, R128, R129, R175, R213, R247, R248, R256, R261, R292): what
each byte of it holds, and what the restore engine takes from the bytes that the resident handler has stored there (log 106). -/
namespace Sys2Proof.Machine

/-! ## What stands in it -/

/-- ACTID (R181). -/
def Bind.actid (b : Bind) : Word :=
  match b.act with
  | some a => w64 (a.slot + 2 ^ 8 * a.chan + 2 ^ 10 * b2n a.outside + 2 ^ 11 * b2n a.redl + 2 ^ 16 * a.tag)
  | none => 0

def Bind.cim (b : Bind) (m : Nat) : Cim := SMap.get Cim.zero b.cims m

def Bind.setCim (b : Bind) (m : Nat) (k : Cim) : Bind := { b with cims := SMap.set Cim.zero b.cims m k }

def Bind.tile (b : Bind) (t : Nat) : Tile := SMap.get Tile.zero b.tiles t

def Bind.setTile (b : Bind) (t : Nat) (k : Tile) : Bind := { b with tiles := SMap.set Tile.zero b.tiles t k }

def Cim.active (k : Cim) : Half := if k.act = 0 then k.h0 else k.h1
def Cim.shadow (k : Cim) : Half := if k.act = 0 then k.h1 else k.h0

def Cim.setShadow (k : Cim) (h : Half) : Cim := if k.act = 0 then { k with h1 := h } else { k with h0 := h }

def Cim.half (k : Cim) (h : Nat) : Half := if h = 0 then k.h0 else k.h1
def Cim.setHalf (k : Cim) (h : Nat) (x : Half) : Cim := if h = 0 then { k with h0 := x } else { k with h1 := x }

def Tile.poison (t : Tile) : Bool := bit t.tag 8

def MtxCmd.isProduct (k : MtxCmd) : Bool := k.op = 1 || k.op = 2

def MtxCmd.isStream (k : MtxCmd) : Bool := k.op ≠ 0

/-- MSTAT (R271). -/
def Bind.mstat (b : Bind) : Word :=
  let cim := fun (p : Cim → Bool) => ((List.range 4).map (fun m => b2n (p (b.cim m)) * 2 ^ m)).sum
  let ex := b.cmds.find? (fun k => k.isStream && k.st = .running)
  w64 (b2n b.movf + 2 * b.cmds.length + 2 ^ 4 * cim (fun k => k.shadow.loading) + 2 ^ 8 * cim (fun k => k.shadow.ready) +
    2 ^ 12 * cim (fun k => k.act = 1) +
    2 ^ 16 * ((List.range 4).map (fun m => b2n (b.cim m).h0.invalid * 2 ^ (2 * m) + b2n (b.cim m).h1.invalid * 2 ^ (2 * m + 1))).sum +
    2 ^ 24 * (match ex with | some k => if k.isProduct then k.rows else 0 | none => 0) +
    2 ^ 32 * (match ex with | some k => k.op | none => 0) + 2 ^ 35 * b2n ex.isSome +
    2 ^ 36 * ((List.range 4).map (fun t => b2n (b.tile t).poison * 2 ^ t)).sum + 2 ^ 40 * b2n b.mErr)

/-- The doubleword of an entry that PSJE names (R292, R293). -/
def JEntry.word (e : JEntry) (k : Nat) : Word :=
  match k with
  | 0 => e.va
  | 1 => w64 (ofLe (e.data.take 8))
  | 2 => w64 (ofLe ((e.data.drop 8).take 8))
  | _ =>
    w64 (e.size + 2 ^ 8 * (b2n e.full + 2 * b2n (e.st = .held) + 4 * b2n (e.st = .sent) + 8 * b2n (e.st = .refused) +
      16 * e.lineOp) + 2 ^ 16 * (e.cls + 16 * e.reason) + 2 ^ 24 * (8 * e.thr + e.recNo) + 2 ^ 32 * e.retired)

def Bind.bar (b : Bind) (id : Nat) : BarEntry := SMap.get BarEntry.zero b.bars id

def Bind.setBar (b : Bind) (id : Nat) (e : BarEntry) : Bind := { b with bars := SMap.set BarEntry.zero b.bars id e }

/-- The state word of an entry (R213). -/
def BarEntry.word (e : BarEntry) : Word :=
  w64 (e.st + 2 ^ 16 * e.last + 2 ^ 18 * e.op + 2 ^ 21 * e.scope + 2 ^ 24 * e.group + 2 ^ 32 * e.gen + 2 ^ 48 * e.count)

def Bind.window (b : Bind) (w : Nat) : Window := SMap.get Window.closed b.windows w

def Bind.setWindow (b : Bind) (w : Nat) (v : Window) : Bind := { b with windows := SMap.set Window.closed b.windows w v }

def Mt.vreg (m : Mt) (n : Nat) : VReg := SMap.get VReg.zero m.v n

/-- One byte of a register's rows. -/
def VReg.byte (v : VReg) (k : Nat) : Byte := SMap.get 0 v.data k

/-- Byte r of the scale column, as stored (R59). -/
def VReg.scaleByte (v : VReg) (r : Nat) : Byte := SMap.get 0 v.scale r

/-- The Locus that keeps a logical address (R321). -/
def locusOf (la : Nat) : Nat :=
  if isMemory la then la / 4096 % 16
  else if isScratch la && 32 ≤ (la - scratchBase) / 2 ^ 21 % 64 then 17 else 16

/-- The stamp of an item of an outbox. -/
def OutItem.stamp : OutItem → Nat
  | .msg _ m _ => m.stamp
  | .req r => r.stamp

/-- The stamp of a packet that a message buffer holds beside its messages (R131, R211). -/
def Packet.stamp? (p : Packet) : Option Nat :=
  match p.body with
  | .msg m => some m.stamp
  | .join _ j => some j.stamp
  | .claim _ q => some q.stamp
  | _ => none

/-- The stamps of the messages that a binding has sent and that no receiver has acknowledged (R185). -/
def State.sentStamps (s : State) (ctx c : Nat) : List Nat :=
  s.net.filterMap (fun p => if p.src = c && p.ctx = ctx then (match p.body with | .msg m => some m.stamp | _ => none) else none)

/-- The stamps that a binding holds (R131, R185): of one that is SAVING or OUT, its suspended activation's, its message
buffer's and those of its outstanding messages; of any other, its activation's and those of its inboxes and outbox. -/
def State.stampsOf (s : State) (ctx c : Nat) : List Nat :=
  let b := s.bind ctx c
  let buf := (b.msgBuf ++ b.inbox).map (·.msg.stamp) ++ b.netBuf.filterMap Packet.stamp?
  (if b.act.isSome then [b.vtime] else []) ++ buf ++
    (if b.st = .saving || b.st = .out then s.sentStamps ctx c else b.outbox.map OutItem.stamp)

/-! ## Fields -/

/-- The field that a byte of a save area belongs to: the byte's place in it, its value, whether R119 names it, and the binding with
another value there. A field that only the device keeps stays as it is. -/
structure AreaFld where
  pos   : Nat
  val   : Nat
  named : Bool
  put   : Nat → Bind

/-- A byte that R119 does not name. -/
def gapFld (b : Bind) : AreaFld := ⟨0, 0, false, fun _ => b⟩

/-- A field that the device keeps to itself. -/
def ownFld (b : Bind) (pos val : Nat) : AreaFld := ⟨pos, val, true, fun _ => b⟩

def wordFld (off : Nat) (w : Word) (put : Word → Bind) : AreaFld := ⟨off % 8, w.toNat, true, fun v => put (w64 v)⟩

/-- A byte of a part whose inner layout the spec does not give: a free function of what the part holds (log 106). -/
def freeFld (b : Bind) (part : Nat) (held : List Nat) (off : Nat) : AreaFld := ownFld b 0 (Config.areaByte part held off).toNat

/-- The magic value and the layout version (R121). -/
def areaMagic : Nat := 0x4358_5453 + 2 ^ 32

/-! ### The header (R121) -/

/-- ACTID written back into a suspended activation. -/
def Bind.setActid (b : Bind) (v : Nat) : Bind :=
  { b with act := b.act.map (fun a => { a with
      slot := v % 16, chan := v / 2 ^ 8 % 4, outside := nbit v 10, redl := nbit v 11, tag := v / 2 ^ 16 % 2 ^ 16 }) }

/-- A gate window's 24 bytes (R398). -/
def Bind.windowFld (b : Bind) (w k : Nat) : AreaFld :=
  let q := b.window w
  match k / 8 with
  | 0 => wordFld k q.base (fun v => b.setWindow w { q with base := v })
  | 1 => wordFld k q.len (fun v => b.setWindow w { q with len := v })
  | _ => wordFld k (w64 (q.gate + 2 ^ 8 * q.kinds + 2 ^ 16 * b2n q.isOpen)) (fun v =>
      b.setWindow w { q with gate := fld v 0 8, kinds := fld v 8 8, isOpen := bit v 16 })

/-- The header's flags (R121, R129). -/
def Bind.areaFlags (b : Bind) : Nat := b2n b.act.isSome + 2 * b2n b.wfe + 4 * b2n (b.savedLen = 2) + 8 * b2n b.endWait

/-- The produced counts of the output channels, one byte each. -/
def Bind.producedBytes (b : Bind) : Nat := ((List.range 4).map (fun k => SMap.get 0 b.produced k % 256 * 2 ^ (8 * k))).sum

/-- The header. A word named after fields of TSTAT holds them where TSTAT does. `ctx` is its context, `least` its held minimum, `cap`
the places of its message buffer, which is filled from its first slot on (log 106). -/
def Bind.headerFld (b : Bind) (ctx least cap off : Nat) : AreaFld :=
  let n := b.msgBuf.length + b.netBuf.length
  match off / 8 with
  | 0 => ownFld b (off % 8) areaMagic
  | 1 => ownFld b (off % 8) ctx
  | 2 => wordFld off (w64 b.areaFlags) (fun v =>
      { b with wfe := bit v 1, savedLen := if bit v 2 then 2 else 4, endWait := bit v 3, act := if bit v 0 then b.act else none })
  | 3 => wordFld off b.tepc (fun v => { b with tepc := v })
  | 4 => wordFld off (w64 (2 ^ 12 * b.prsn + 2 ^ 16 * b.pendBits.toNat)) (fun v =>
      { b with prsn := fld v 12 4, pendBits := BitVec.ofNat 7 (fld v 16 7) })
  | 5 => wordFld off (w64 (2 ^ 26 * b2n b.mtfe)) (fun v => { b with mtfe := bit v 26 })
  | 6 => wordFld off (w64 b.vtime) (fun v => { b with vtime := v.toNat })
  | 7 => wordFld off (w64 b.retired) (fun v => { b with retired := v.toNat })
  | 8 => wordFld off b.actid (fun v => b.setActid v.toNat)
  | 9 => wordFld off b.chki (fun v => { b with chki := v })
  | 10 => wordFld off b.mtmask (fun v => { b with mtmask := v &&& 0xFFFF })
  | 11 => wordFld off b.mtflt (fun v => { b with mtflt := v &&& 0xFFFF })
  | 12 => wordFld off b.savedBank (fun v => { b with savedBank := v })
  | 13 => wordFld off (w64 (b.ebud.toNat + 2 ^ 32 * b.ebcnt.toNat)) (fun v =>
      { b with ebud := BitVec.ofNat 32 (fld v 0 32), ebcnt := BitVec.ofNat 32 (fld v 32 32) })
  | 14 => ownFld b (off % 8) (2 ^ 32 * (if cap = 0 then 0 else n % cap))
  | 15 => wordFld off (w64 (n + 2 ^ 32 * b.producedBytes)) (fun v =>
      { b with produced := SMap.ofFn 0 (fun k => fld v (32 + 8 * k) 8) 0 4 })
  | 16 => ownFld b (off % 8) least
  | 17 => wordFld off (w64 b.savedAt) (fun v => { b with savedAt := v.toNat })
  | 30 => wordFld off b.trctl (fun v => { b with trctl := v })
  | 31 => ownFld b (off % 8) b.outbox.length
  | _ => b.windowFld ((off - 0x90) / 24) ((off - 0x90) % 24)

/-! ### Actors, registers and queues (R119, R175) -/

/-- The actor table: a descriptor's 64 bytes. DLV follows from the inbox. -/
def Bind.actorFld (b : Bind) (k off : Nat) : AreaFld :=
  let d := (b.slot k).desc
  let put := fun (f : Desc) => b.modSlot k (fun q => { q with desc := f })
  match off / 8 with
  | 0 => wordFld off d.entry (fun v => put { d with entry := v })
  | 1 => wordFld off (w64 (d.flags.toNat + 2 ^ 16 * d.lookahead + 2 ^ 32 * d.incnt.toNat)) (fun v =>
      put { d with flags := BitVec.ofNat 8 (fld v 0 8), lookahead := fld v 16 16, incnt := BitVec.ofNat 32 (fld v 32 32) })
  | 2 => wordFld off (w64 d.outcnt.toNat) (fun v => put { d with outcnt := BitVec.ofNat 32 (fld v 0 32) })
  | 6 => wordFld off (w64 (((List.range 4).map (fun ch => b.delivered k ch % 256 * 2 ^ (8 * ch))).sum + 2 ^ 32 * (b.slot k).redlv)) (fun v =>
      b.modSlot k (fun q => { q with redlv := fld v 32 2 }))
  | _ => gapFld b

/-- q1: a value and a sender number. -/
def Bind.q1Fld (b : Bind) (k off : Nat) : AreaFld :=
  let e := b.q1.getD k (0, 0)
  if off < 8 then wordFld off e.1 (fun v => { b with q1 := setAt b.q1 k (v, e.2) })
  else wordFld off (w64 e.2) (fun v => { b with q1 := setAt b.q1 k (e.1, fld v 0 4) })

/-! ### Fetcher, commands and copies -/

def Loop.nums (l : Loop) : List Nat :=
  [l.group, l.gen, l.body.toNat, l.target.toNat, b2n l.claim, l.next, l.left] ++ l.bounds

def Join.nums (j : Join) : List Nat := [j.core, j.gen, j.minch, j.stamp] ++ j.bounds

def NestSt.code : NestSt → Nat
  | .idle => 0 | .joining => 1 | .granting => 2 | .draining => 3

def NestCtr.nums (n : NestCtr) : List Nat :=
  [n.st.code, n.gen, b2n n.bad, n.total, n.remain] ++ n.joins.flatMap Join.nums ++ n.held.flatMap Join.nums ++
    n.claims.flatMap (fun q => [q.core, q.gen, q.stamp]) ++ n.bnd.flatMap (fun p => [p.1, p.2]) ++ n.done ++
    n.gone.flatMap (fun p => [p.1, p.2])

def Bind.fetcherNums (b : Bind) : List Nat :=
  (match b.loop with | some l => l.nums | none => []) ++ b.gens.flatMap (fun p => [p.1, p.2]) ++
    b.views.flatMap (fun p => [p.1, p.2.gen, p.2.st, p.2.left, b2n p.2.out] ++ p.2.bounds) ++
    b.roots.flatMap (fun p => p.1 :: p.2.nums)

def MtxCmd.nums (k : MtxCmd) : List Nat :=
  [k.op, k.tile, k.mac, k.ord, k.scope, k.tag, k.e0.toNat, k.e1.toNat, k.e2.toNat, k.e3.toNat, k.rows, k.status, k.addr.toNat,
    b2n k.fwd, k.accepted]

def CopyRec.nums (k : CopyRec) : List Nat :=
  [k.op, k.ord, k.scope, k.tag, k.e0.toNat, k.e1.toNat, k.e2.toNat, k.e3.toNat, k.moved, k.status, k.addr.toNat, k.lost]

/-! ### The matrix engine (R119, R261) -/

/-- A CIM source descriptor's 32 bytes. -/
def Bind.cimFld (b : Bind) (m h off : Nat) : AreaFld :=
  let q := b.cim m
  let x := q.half h
  let put := fun (y : Half) => b.setCim m (q.setHalf h y)
  match off / 8 with
  | 0 => wordFld off x.va (fun v => put { x with va := v })
  | 1 => wordFld off x.stride (fun v => put { x with stride := v })
  | 2 => wordFld off
      (w64 (x.pb + 2 ^ 8 * (x.kk - 1) + 2 ^ 16 * (b2n x.loaded + 2 * b2n (q.act = h) + 4 * b2n x.ready + 8 * b2n x.invalid + 16 * b2n x.poison) +
        2 ^ 24 * x.slot))
      (fun v => (b.setCim m ({ q with act := if bit v 17 then h else q.act }.setHalf h { x with
        pb := fld v 0 4, kk := fld v 8 8 + 1, loaded := bit v 16, ready := bit v 18, invalid := bit v 19, poison := bit v 20
        slot := fld v 24 8 })))
  | _ => ownFld b 0 0

/-- An activation record's 28 bytes (R292). -/
def Bind.recFld (b : Bind) (k off : Nat) : AreaFld :=
  let r := b.actRec k
  let put := fun (q : ActRec) => { b with recs := SMap.set ActRec.free b.recs k { q with used := true } }
  match off / 8 with
  | 0 => wordFld off (w64 r.vtime) (fun v => put { r with vtime := v.toNat })
  | 1 => wordFld off r.entry (fun v => put { r with entry := v })
  | _ => ⟨off - 16, r.tag + 2 ^ 16 * r.slot, true, fun v => put { r with tag := v % 2 ^ 16, slot := v / 2 ^ 16 % 2 ^ 8 }⟩

/-- The state that the flags of an entry give (R292); SENT is the device's own. -/
def jstOf (v : Word) : JSt := if bit v 9 then .held else if bit v 11 then .refused else .free

/-- An entry's word replaced (R292): its data keep 16 places until the whole area has been read. -/
def JEntry.setWord (e : JEntry) (k : Nat) (v : Word) : JEntry :=
  let d := (e.data ++ List.replicate 16 0).take 16
  match k with
  | 0 => { e with va := v }
  | 1 => { e with data := leBytes 8 v.toNat ++ d.drop 8 }
  | 2 => { e with data := d.take 8 ++ leBytes 8 v.toNat }
  | _ => { e with
      size := fld v 0 8, full := bit v 8, st := jstOf v, lineOp := fld v 12 2, cls := fld v 16 2, reason := fld v 20 4
      thr := fld v 27 5, recNo := fld v 24 3, retired := fld v 32 32 }

/-- A journal entry's 32 bytes (R292). An entry that has been sent stays as it is: its target reports on it. -/
def Bind.jentFld (b : Bind) (n off : Nat) : AreaFld :=
  let e := b.entry n
  if e.st = .sent then ownFld b (off % 8) (e.word (off / 8)).toNat
  else wordFld off (e.word (off / 8)) (fun v =>
    let q := e.setWord (off / 8) v
    if e.st = .free && q.st ≠ .free then { b.modEntry n (fun _ => { q with seq := b.jseq }) with jseq := b.jseq + 1 }
    else b.modEntry n (fun _ => q))

/-- What the restore engine makes of an entry that the handler has stored: its data have its size. -/
def JEntry.settle (e : JEntry) : JEntry :=
  if e.st = .free then JEntry.free else { e with data := e.data.take (if e.lineOp = 0 then e.size else 0) }

/-- A barrier entry's 16 bytes (R213). -/
def Bind.barFld (b : Bind) (k off : Nat) : AreaFld :=
  let e := b.bar k
  if off < 8 then wordFld off e.value (fun v => b.setBar k { e with value := v })
  else wordFld off e.word (fun v => b.setBar k { e with
    st := fld v 0 3, last := fld v 16 2, op := fld v 18 3, scope := fld v 21 3, group := fld v 24 8, gen := fld v 32 16, count := fld v 48 16 })

/-! ### Micro-threads (R120, R256) -/

/-- The run-state word's contents: the run state, the counts of q0 and both chords, the fault cause and the slot position. -/
def Mt.runNums (m : Mt) : List Nat :=
  [match m.run with | .stopped => 0 | .broadcast => 1 | .fetched => 2 | .fault => 3, m.q0.length, m.east.length, m.west.length, m.cause]

/-- A micro-thread's record. What remains of a block stands from the block buffer's first slot on (log 106); of a micro-thread in
FAULT its first two slots hold TVAL (R256). DESIGN CHOICE (log 120): of a FETCHED one, which has no block, the slots hold zeros. -/
def Bind.mtFld (b : Bind) (n off : Nat) : AreaFld :=
  let m := b.mt n
  let put := fun (q : Mt) => b.modMt n (fun _ => q)
  let vput := fun (k : Nat) (q : VReg) => put { m with v := SMap.set VReg.zero m.v k q }
  if off < 0x4000 then
    let v := m.vreg (off / 2048)
    ⟨0, (v.byte (off % 2048)).toNat, true, fun x => vput (off / 2048) { v with data := SMap.set 0 v.data (off % 2048) (BitVec.ofNat 8 x) }⟩
  else if off < 0x4100 then
    let k := (off - 0x4000) / 32
    let v := m.vreg k
    ⟨0, (v.scaleByte (off % 32)).toNat, true, fun x => vput k { v with scale := SMap.set 0 v.scale (off % 32) (BitVec.ofNat 8 x) }⟩
  else if off < 0x4110 then
    let k := (off - 0x4100) / 2
    ⟨off % 2, (m.vreg k).tag.toNat, true, fun x => vput k { m.vreg k with tag := BitVec.ofNat 16 x }⟩
  else if off < 0x4140 then gapFld b
  else if off < 0x41C0 then
    let k := (off - 0x4140) / 8
    wordFld off (if k = 0 then 0 else SMap.get 0 m.w k) (fun v => if k = 0 then b else put { m with w := SMap.set 0 m.w k v })
  else if off < 0x4200 then
    let k := (off - 0x41C0) / 8
    wordFld off (SMap.get 0 m.e k) (fun v => put { m with e := SMap.set 0 m.e k v })
  else if off < 0x4220 then
    let k := (off - 0x4200) / 8
    wordFld off (m.q0.getD k 0) (fun v => put { m with q0 := setAt m.q0 k v })
  else if off < 0x4230 then
    let k := (off - 0x4220) / 8
    wordFld off (m.east.getD k 0) (fun v => put { m with east := setAt m.east k v })
  else if off < 0x4240 then
    let k := (off - 0x4230) / 8
    wordFld off (m.west.getD k 0) (fun v => put { m with west := setAt m.west k v })
  else if off < 0x4248 then wordFld off m.pc (fun v => put { m with pc := v })
  else if off < 0x4250 then freeFld b 4 m.runNums (off % 8)
  else if off < 0x4258 then wordFld off m.shape (fun v => put { m with shape := v })
  else if off < 0x4260 || 0x4280 ≤ off then gapFld b
  else if m.run = .fault then (if off < 0x4268 then wordFld off m.tval (fun v => put { m with tval := v }) else ownFld b 0 0)
  else
    let k := (off - 0x4260) / 4
    let e := m.block.getD k (4, 0)
    ⟨off % 4, e.2.toNat, true, fun x => put { m with block := setAt m.block k (e.1, BitVec.ofNat 32 x) }⟩

/-! ### Outbox and message buffer (R128, R129) -/

/-- A message out of its header and payload (R182, R441). -/
def msgOf (h payload : List Byte) : Msg :=
  let f := fun (off n : Nat) => ofLe ((h.drop off).take n)
  ⟨f 0 8, f 8 8, f 0x10 8, f 0x18 2, f 0x1A 1, f 0x1B 1, f 0x1C 1, f 0x1D 1, f 0x20 2, f 0x28 8, payload, false⟩

/-- A message's 320-byte slot: its header, without a sequence number until it has one, and its payload. -/
def Msg.slotBytes (m : Msg) : List Byte := { m with seq := if m.seq = unnumbered then 0 else m.seq }.header ++ m.payload

/-- A message whose slot's byte at `off` is `x`; LEN gives its payload's length. -/
def Msg.slotPut (m : Msg) (off x : Nat) : Msg :=
  let bs := setAt (m.slotBytes ++ List.replicate (320 - m.slotBytes.length) 0) off (BitVec.ofNat 8 x)
  let q := msgOf (bs.take 64) ((bs.drop 64).take (min 256 (ofLe ((bs.drop 0x1E).take 2))))
  { q with seq := if m.seq = unnumbered && q.seq = 0 then unnumbered else q.seq, poison := m.poison }

/-- A slot's byte of a message, put back by `put`. -/
def Msg.slotFld (m : Msg) (off : Nat) (put : Msg → Bind) : AreaFld :=
  ⟨0, (m.slotBytes.getD off 0).toNat, true, fun x => put (m.slotPut off x)⟩

def MapReq.nums (r : MapReq) : List Nat :=
  [r.op, r.ctx, r.core, r.a.toNat, r.b.toNat, r.rights.toNat, r.e0.toNat, r.e1.toNat, r.e2.toNat, r.e3.toNat, r.node.getD 0, r.gen, r.status,
    r.home, r.keysel]

/-- A slot's byte of the outbox region: a message, whose destination the device keeps, or a held request whose header names its Locus
by its sender address. -/
def State.outFld (s : State) (b : Bind) (k off : Nat) : AreaFld :=
  match b.outbox[k]? with
  | some (.msg ds m w) => m.slotFld off (fun q => { b with outbox := setAt b.outbox k (.msg ds q w) })
  | some (.req r) =>
    let l := match r.node with | some j => locusOf (s.node j).lbase | none => locusOf r.a.toNat
    if off < 8 then wordFld off (w64 r.stamp) (fun v => { b with outbox := setAt b.outbox k (.req { r with stamp := v.toNat }) })
    else if off < 64 then ownFld b 0 ((mkMsg r.stamp 0 0 (0xFF80 + l) 0xFF 0 0 0 0 []).header.getD off 0).toNat
    else freeFld b 5 r.nums (off - 64)
  | none => ownFld b 0 0

def BarMsg.nums (m : BarMsg) : List Nat := [m.id, m.group, m.gen, m.op, m.scope, m.value.toNat, b2n m.abort, m.core]

/-- What a message buffer holds of a packet that is no message. -/
def Packet.nums (p : Packet) : List Nat :=
  [p.src, p.dst, p.ctx] ++ (match p.body with
    | .join g j => 1 :: g :: j.nums
    | .claim g q => [2, g, q.core, q.gen, q.stamp]
    | .leave g n => [3, g, n]
    | .grant g n f q m => [4, g, n, f, q, b2n m]
    | .bar m => 5 :: m.nums
    | .note m => [6, m.id, m.gen, m.st, m.value.toNat]
    | _ => [])

def Bind.bufFld (b : Bind) (k off : Nat) : AreaFld :=
  match b.msgBuf[k]?, b.netBuf[k - b.msgBuf.length]? with
  | some h, _ => h.msg.slotFld off (fun q => { b with msgBuf := setAt b.msgBuf k { h with msg := q } })
  | none, some p => freeFld b 6 p.nums off
  | none, none => ownFld b 0 0

/-! ## The area (R119) -/

/-- The field of a byte of the save area that holds `b`, for context `ctx` on core `c`. -/
def State.areaFld (s : State) (ctx c : Nat) (b : Bind) (off : Nat) : AreaFld :=
  let cap := (s.ctx ctx).bufslots
  if off < 0x100 then b.headerFld ctx ((minStamp (s.stampsOf ctx c)).getD (2 ^ 64 - 1)) cap off
  else if off < 0x500 then b.actorFld ((off - 0x100) / 64) (off % 64)
  else if off < 0x600 then
    let k := (off - 0x500) / 8
    wordFld off (if k = 0 then 0 else SMap.get 0 b.x k) (fun v => if k = 0 then b else { b with x := SMap.set 0 b.x k v })
  else if off < 0x640 then wordFld off (SMap.get 0 b.e ((off - 0x600) / 8)) (fun v => { b with e := SMap.set 0 b.e ((off - 0x600) / 8) v })
  else if off < 0x660 then wordFld off (SMap.get 0 b.i ((off - 0x640) / 8)) (fun v => { b with i := SMap.set 0 b.i ((off - 0x640) / 8) v })
  else if off < 0x700 then freeFld b 0 b.fetcherNums (off - 0x660)
  else if off < 0x800 then b.q1Fld ((off - 0x700) / 16) (off % 16)
  else if off < 0x840 then wordFld off (b.q2.getD ((off - 0x800) / 8) 0) (fun v => { b with q2 := setAt b.q2 ((off - 0x800) / 8) v })
  else if off < 0x880 then wordFld off (b.q3.getD ((off - 0x840) / 8) 0) (fun v => { b with q3 := setAt b.q3 ((off - 0x840) / 8) v })
  else if off < 0x8C0 then freeFld b 1 [b.q1.length, b.q2.length, b.q3.length] (off - 0x880)
  else if off < 0x900 then gapFld b
  else if off < 0xA00 then freeFld b 2 ((b.cmds[(off - 0x900) / 64]?).elim [] MtxCmd.nums) (off % 64)
  else if off < 0xB00 then b.cimFld ((off - 0xA00) / 64) ((off - 0xA00) / 32 % 2) (off % 32)
  else if off < 0xB08 then
    let k := (off - 0xB00) / 2
    ⟨off % 2, (b.tile k).tag.toNat, true, fun v => b.setTile k { b.tile k with tag := BitVec.ofNat 16 v }⟩
  else if off < 0xB10 then wordFld off b.mstat (fun v => { b with movf := bit v 0, mErr := bit v 40 })
  else if off < 0xB20 then gapFld b
  else if off < 0xC00 then b.recFld ((off - 0xB20) / 28) ((off - 0xB20) % 28)
  else if off < 0x1400 then b.jentFld ((off - 0xC00) / 32) (off % 32)
  else if off < 0x2400 then b.barFld ((off - 0x1400) / 16) (off % 16)
  else if off < 0x6400 then freeFld b 3 ((b.copies[(off - 0x2400) / 64]?).elim [] CopyRec.nums) (off % 64)
  else if off < 0x4_A400 then b.mtFld ((off - 0x6400) / 0x4400) ((off - 0x6400) % 0x4400)
  else if off < 0x8_A400 then
    let t := (off - 0x4_A400) / 0x1_0000
    let k := (off - 0x4_A400) % 0x1_0000 / 4
    ⟨off % 4, (SMap.get 0 (b.tile t).acc k).toNat, true,
      fun v => b.setTile t { b.tile t with acc := SMap.set 0 (b.tile t).acc k (BitVec.ofNat 32 v) }⟩
  else if off < 0x8_B000 then gapFld b
  else if off < 0x9_0000 then s.outFld b ((off - 0x8_B000) / 320) ((off - 0x8_B000) % 320)
  else if off < 0x9_0000 + 320 * cap then b.bufFld ((off - 0x9_0000) / 320) ((off - 0x9_0000) % 320)
  else gapFld b

/-- The byte of a field. -/
def AreaFld.byte (f : AreaFld) : Byte := BitVec.ofNat 8 (f.val / 256 ^ f.pos)

/-- A byte of the save area that holds `b`. -/
def State.areaByte (s : State) (ctx c : Nat) (b : Bind) (off : Nat) : Byte := (s.areaFld ctx c b off).byte

/-- The binding with one byte of its save area replaced. -/
def State.areaPut (s : State) (ctx c : Nat) (b : Bind) (off : Nat) (v : Byte) : Bind :=
  let f := s.areaFld ctx c b off
  f.put (f.val - f.val / 256 ^ f.pos % 256 * 256 ^ f.pos + v.toNat * 256 ^ f.pos)

/-! ## Its place in memory (R117, R118) -/

/-- Whether an address lies in the save area of a context on a core. -/
def State.inArea (s : State) (ctx c a : Nat) : Bool := inAreaOf (s.ctx ctx).bufslots ctx c a

/-- What a save area holds, where a save has written one: of a binding that is OUT or RESTORING the network interface keeps it up to
date; under a bound one it stands as it was saved, or restored, but for the actor table with its counts (R175) and the message buffer
(R128), which the device keeps up to date. -/
def State.area (s : State) (ctx c : Nat) : Option Bind :=
  let b := s.bind ctx c
  (SMap.find? s.areas (bindKey ctx c)).map (fun a =>
    if b.st = .out || b.st = .restoring then b
    else { a with slots := b.slots, inbox := b.inbox, msgBuf := b.msgBuf, netBuf := b.netBuf })

/-- The cores for which a context has save areas: its own and their partners (R115, R379). -/
def State.areaCores (s : State) (ctx : Nat) : List Nat :=
  if (s.ctx ctx).st = .free then [] else (s.ctx ctx).cores ++ (s.ctx ctx).partners

/-- The save area that an address lies in: its context and core. -/
def State.areaAt (s : State) (a : Nat) : Option (Nat × Nat) :=
  s.ctxs.findSome? (fun p => ((s.areaCores p.1).find? (fun c => s.inArea p.1 c a)).map (fun c => (p.1, c)))

/-- A byte of a save area that no save has written yet: the actor table that LAUNCH has loaded (R173, R175), and zero. -/
def State.freshByte (s : State) (ctx c off : Nat) : Byte :=
  let b := s.bind ctx c
  if 0x100 ≤ off && off < 0x500 then s.areaByte ctx c { Bind.zero with slots := b.slots, inbox := b.inbox } off else 0

/-- The bytes of a context's save-area table: one SAVEBASE value for each logical core, 0 where there is no area (R117). -/
def State.tabByte (s : State) (a : Nat) : Option Byte :=
  s.ctxs.findSome? (fun p =>
    let base := (s.ctx p.1).savetab.toNat
    if p.2.st ≠ .free && base ≤ a && a < base + 8 * 1984 then
      let c := (a - base) / 8
      some (BitVec.ofNat 8 ((if (s.areaCores p.1).contains c then areaBase p.1 c else 0) / 256 ^ ((a - base) % 8)))
    else none)

/-- What a byte of the resident handler's memory reads as where the handler has stored nothing: a save area, a save-area table, or
boot firmware's image (log 7). -/
def State.handlerBase (s : State) (a : Nat) : Byte :=
  match s.areaAt a with
  | some (n, c) => match s.area n c with
    | some b => s.areaByte n c b (a - areaBase n c)
    | none => s.freshByte n c (a - areaBase n c)
  | none => (s.tabByte a).getD (Config.firmware a)

/-! ## What the handler has stored there (R118, R119, R121) -/

/-- The bytes that the handler has stored into a save area, by their offsets. -/
def State.areaStores (s : State) (ctx c : Nat) : List (Nat × Byte) :=
  (s.hmem.filter (fun p => s.inArea ctx c p.1)).map (fun p => (p.1 - areaBase ctx c, p.2))

/-- Whether the header's magic value, version and CTXID are right (R121). -/
def State.headerOk (s : State) (ctx c : Nat) (b : Bind) : Bool :=
  (s.areaStores ctx c).all (fun p => 16 ≤ p.1 || p.2 = s.areaByte ctx c b p.1)

/-- The number that `n` bytes of a save area hold, the handler's own among them. -/
def State.areaVal (s : State) (ctx c : Nat) (b : Bind) (off n : Nat) : Nat :=
  ofLe ((List.range n).map (fun k => (SMap.find? s.hmem (areaBase ctx c + off + k)).getD (s.areaByte ctx c b (off + k))))

/-- A binding with as many messages in its buffer and items in its outbox as the handler's header says (R121): fewer are kept, and a
buffer that grows has room for the messages that the handler has stored behind those it held. -/
def State.recount (s : State) (ctx c : Nat) (b : Bind) : Bind :=
  let n := s.areaVal ctx c b 0x78 4
  let have_ := b.msgBuf.length + b.netBuf.length
  let new : Held := { msg := msgOf [] [], arrival := s.ptime, delivered := false, place := 0 }
  { b with
    outbox := b.outbox.take (s.areaVal ctx c b 0xF8 4)
    msgBuf := if n < have_ then b.msgBuf.take n else b.msgBuf ++ List.replicate (min n (s.ctx ctx).bufslots - have_) new
    netBuf := if n < have_ then b.netBuf.take (n - b.msgBuf.length) else b.netBuf }

/-- Whether R56 forbids a tag. -/
def badTag (t : Nat) : Bool :=
  10 < t % 16 || (t % 16 ≠ 1 && t / 16 % 8 ≠ 0) || (t % 16 = 1 && t / 16 % 8 = 0) || t / 512 % 128 ≠ 0

/-- A tag as the device may write one (R55, R56): the reserved bits are zero, and a format or plane count that no tag holds gives
format NONE. -/
def fixTag (t : BitVec 16) : BitVec 16 :=
  let v := t &&& 0x1FF
  if badTag v.toNat then v &&& 0x180 else v

/-- An accumulator's tag is I32 or NONE (R55). -/
def fixTileTag (t : BitVec 16) : BitVec 16 :=
  if (fixTag t &&& 0xF) = 4 then fixTag t else fixTag t &&& 0x180

/-- A binding whose tags and journal entries are such as the device writes. -/
def Bind.settled (b : Bind) : Bind :=
  { b with
    mts := b.mts.map (fun p => (p.1, { p.2 with v := p.2.v.map (fun q => (q.1, { q.2 with tag := fixTag q.2.tag })) }))
    tiles := b.tiles.map (fun p => (p.1, { p.2 with tag := fixTileTag p.2.tag }))
    journal := b.journal.map (fun p => (p.1, if p.2.st = .sent then p.2 else p.2.settle)) }

/-- What the restore engine finds in a save area: what it holds, with the handler's bytes in the fields that are not the device's own
(log 106). -/
def State.absorbed (s : State) (ctx c : Nat) (b : Bind) : Bind :=
  if (s.areaStores ctx c).isEmpty then b
  else ((s.areaStores ctx c).foldl (fun (a : Bind) p => s.areaPut ctx c a p.1 p.2) (s.recount ctx c b)).settled

/-- The stored bytes without those of a save area: all, or the named ones. -/
def State.clearArea (s : State) (ctx c : Nat) (all : Bool) : State :=
  { s with hmem := s.hmem.filter (fun p =>
      !(s.inArea ctx c p.1 && (all || (s.areaFld ctx c Bind.zero (p.1 - areaBase ctx c)).named))) }

end Sys2Proof.Machine
end

