-- ==== Sys2Proof/Machine/Memory.lean ====
section
/-! DEFINITION. Memory as threads reach it: rights, classes and passages, the handler's memory, L1 copies, accesses in
flight, and the posted-store journal. -/
namespace Sys2Proof.Machine

/-! ## Rights, classes and passages (R37, R370, R392-R396) -/

def rRead : Nat := 0
def rWrite : Nat := 1
def rExec : Nat := 2
def rMap : Nat := 3
def rGrant : Nat := 4
def rLower : Nat := 5

/-- A class's rank: P and PAIRED above D above U (R369, R370). -/
def classRank (c : Nat) : Nat := if c = 1 then 1 else if c = 2 then 2 else 0

/-- The class check (R370). -/
def classOk (eff cls : Nat) (rights : BitVec 6) : Bool := classRank cls ≤ classRank eff || bit rights rLower

/-- The effective class of what a core runs now (R369). -/
def State.effClass (s : State) (c : Nat) : Nat :=
  match (s.cur c).act with
  | some a => a.eff
  | none => 0

/-- The kinds of passage (R396). -/
def kWload : Nat := 0
def kRead : Nat := 1
def kWrite : Nat := 2

/-- A tenant world (R389, R390). -/
def State.world (s : State) (vf : Nat) : World := SMap.get World.reset s.worlds vf

def State.keySlot (s : State) (n : Nat) : KeySlot := SMap.get KeySlot.free s.keys n

/-- The key slot of a compartment of a world (R389): 1 MO, 2 DO; 0xFF none. -/
def World.slotOf (w : World) (comp : Nat) : Nat := if comp = 1 then w.moslot else if comp = 2 then w.doslot else 0xFF

/-- Whether a slot still takes new uses and holds its key (R390, R405). -/
def State.keyHeld (s : State) (n : Nat) : Bool := n < 255 && !(s.keySlot n).retired && (s.keySlot n).key.length = 64

/-- Whether a keyed frame is shut to a context: one of another world (R395), or a DO frame whose key takes no new use (R394, R405). -/
def State.frameShut (s : State) (ctx la : Nat) : Bool :=
  let fr := s.frame (la / 4096)
  !isHost la && fr.comp ≠ 0 && (isRoot ctx || fr.vf ≠ ctxFn ctx || (fr.comp = 2 && !s.keyHeld ((s.world fr.vf).slotOf 2)))

/-- Whether an access is a passage and no open window allows it (R396). -/
def State.passageRefused (s : State) (c ctx va la kind : Nat) : Bool :=
  let fr := s.frame (la / 4096)
  let k := s.ctx ctx
  !isHost la && fr.comp ≠ 0 && k.comp ≠ 0 && fr.vf = ctxFn ctx && fr.comp ≠ k.comp &&
    !((s.bind ctx c).windows.any (fun p =>
      p.2.isOpen && nbit p.2.kinds kind && p.2.base.toNat ≤ va && va < p.2.base.toNat + p.2.len.toNat))

/-- The parts of an access by 32-byte granules (R322, R324). -/
def granules32 (va n : Nat) : List (Nat × Nat) := pieces 32 va n

/-- Whether any byte of an access is a refused passage (R396). -/
def State.gateRefused (s : State) (c ctx va n kind : Nat) : Bool :=
  (granules32 va n).any (fun p =>
    match s.look c ctx p.1 with
    | .hit x => s.passageRefused c ctx p.1 x.la kind
    | _ => false)

/-- The number of an access's target in a withdrawal (R332): a home slice, a scratch bank, or an MXU. -/
def homeTarget (c : Nat) : Nat := c
def bankTarget (c b : Nat) : Nat := 4096 + c * 16 + b
def mxuTarget (n : Nat) : Nat := 2 ^ 17 + n

/-- The MXU of a logical address (R279): 0..15 by LA[15:12], 16 for the host link. -/
def mxuOf (la : Nat) : Nat := if isHost la then 16 else la / 4096 % 16

/-- The target that an access meets (R289). -/
def State.targetOf (s : State) (la : Nat) : Nat :=
  match region la with
  | .memory => homeTarget (s.homeCore la)
  | .scratch c b _ => bankTarget c b
  | _ => mxuTarget 16

/-- Whether a target has taken the cut of an access's node (R334). -/
def State.cutAt (s : State) (node : Option Nat) (target : Nat) : Bool :=
  match node with
  | none => false
  | some n =>
    !(s.node n).maps ||
      s.loci.any (fun p =>
        match p.2.work with
        | some w => w.nodes.contains n && !w.cuts.contains target
        | none => false)

/-- The lowest address of an access that the rights, the class or the mapping refuse (R37, R324, R370); a tombstone
refuses unless `tombOk`. Own scratch banks that do not answer (R280), or that have taken the cut of the access's node (R334),
refuse here as well, and so does a frame of another world to a fetch, and in an own bank to a load (R395). -/
def State.refusedByte (s : State) (c ctx va n right : Nat) (tombOk : Bool) : Option Nat :=
  ((granules32 va n).find? (fun p =>
    match s.look c ctx p.1 with
    | .hit x =>
      !(bit x.rights right) || !(classOk (s.effClass c) (s.classAt x.la) x.rights) ||
        (s.frameShut ctx x.la && (right = rExec || (right = rRead && isOwnBank c x.la))) ||
        (match region x.la with
         | .scratch o b off => o = c && (!(s.bankAnswers o b off p.2) || s.cutAt x.node (bankTarget o b))
         | .reserved => true
         | _ => false)
    | .tomb => !tombOk
    | .unmapped => true)).map (·.1)

/-- The exact cause that the checks of a data access give, in the order of R90: GATE, MISALIGN, ACCESS; `align` bytes. -/
def State.accessCause (s : State) (c ctx va n align right kind : Nat) (tombOk : Bool) : Option (Nat × Word) :=
  if s.gateRefused c ctx va n kind then some (cGate, 0xFFFF_FFFF_FFFF_FFFF)
  else if va % align ≠ 0 then some (cMisalign, w64 va)
  else (s.refusedByte c ctx va n right tombOk).map (fun a => (cAccess, w64 a))

/-! ## The handler's memory (R134) -/

/-- A byte of the resident handler's memory: what the handler has stored there; else what its save area holds, or boot firmware's image
(R118, R134; log 7). -/
def State.hbyte (s : State) (a : Nat) : Byte := (SMap.find? s.hmem a).getD (s.handlerBase a)

def State.hbytes (s : State) (a n : Nat) : List Byte := (List.range n).map (fun k => s.hbyte (a + k))

/-- Store bytes into the handler's memory over what it reads as where nothing is stored. -/
def putHandler (base : Nat → Byte) (m : SMap Byte) (a : Nat) : List Byte → SMap Byte
  | [] => m
  | b :: t => putHandler base (if b = base a then SMap.del m a else SMap.put m a b) (a + 1) t

/-- The strongest ordering attribute that an access meets (R309): SO is 0, UO is 2. -/
def State.strongest (s : State) (c ctx va n : Nat) : Nat :=
  leastNat2 ((pieces 32 va n).map (fun p => match s.look c ctx p.1 with | .hit x => x.attr | _ => 2))
where
  leastNat2 (l : List Nat) : Nat := l.foldl Nat.min 2

/-! ## L1 (R288) -/

/-- The valid leased copy of a line in a core's L1. -/
def State.l1Copy (s : State) (c line : Nat) : Option L1Copy :=
  match SMap.find? (s.core c).l1 line with
  | some k => if s.ptime < k.expiry then some k else none
  | none => none

def State.dropL1 (s : State) (c line : Nat) : State := s.modCore c (fun k => { k with l1 := SMap.del k.l1 line })

/-- Every L1 data copy of a core is invalidated (R288, R312). -/
def State.clearL1 (s : State) (c : Nat) : State := s.modCore c (fun k => { k with l1 := [] })

/-- Replace bytes of a list from a position. -/
def overlay (old : List Byte) (off : Nat) (new : List Byte) : List Byte :=
  old.take off ++ new ++ old.drop (off + new.length)

/-- The poison of a copy's granules after a store into it: of poisoned data it is set, of a whole granule of clean ones cleared
(R365). -/
def L1Copy.poisonAfter (k : L1Copy) (off n : Nat) (poison : Bool) : BitVec 8 :=
  (pieces 16 off n).foldl (fun p g =>
    if poison then setBit p (g.1 / 16) else if g.2 = 16 then clrBit p (g.1 / 16) else p) k.poison

/-- A store updates its own core's copy, which keeps its expiry (R288). -/
def State.storeL1 (s : State) (c la : Nat) (bs : List Byte) (poison : Bool) : State :=
  match s.l1Copy c (la / 128) with
  | some k =>
    let k1 : L1Copy := { k with bytes := overlay k.bytes (la % 128) bs, poison := k.poisonAfter (la % 128) bs.length poison }
    s.modCore c (fun q => { q with l1 := SMap.put q.l1 (la / 128) k1 })
  | none => s

/-! ## The journal (R290-R292) -/

/-- An entry that has been issued and has not ended. -/
def JEntry.live (e : JEntry) : Bool := e.st = .held || e.st = .sent

/-- The newest live entry of a core that holds a byte (R291). -/
def Bind.newestFor (b : Bind) (la : Nat) : Option JEntry :=
  leastBy (fun x y => y.seq < x.seq)
    ((b.journal.map (·.2)).filter (fun e => e.live && e.size ≠ 0 && e.la ≤ la && la < e.la + e.size))

/-- What a core's journal gives a thread of the bytes of a range (R291): none of them, all of them with their poison (R58), or
some, so that the thread waits for the entries. An entry of another thread that may still be taken back is waited for. -/
inductive FromJournal where
  | none
  | all (bytes : List Byte) (poison full : Bool)
  | some
  deriving DecidableEq, Repr

def Bind.fromJournal (b : Bind) (thr la n : Nat) : FromJournal :=
  let es := (List.range n).map (fun k => b.newestFor (la + k))
  if es.all (·.isNone) then .none
  else if es.all (fun e => e.any (fun e => e.thr = thr || !b.unsure e)) then
    .all ((List.range n).map (fun k => ((es.getD k Option.none).map (fun e => e.data.getD (la + k - e.la) 0)).getD 0))
      (es.any (fun e => e.any (·.poison))) (es.all (fun e => e.any (·.full)))
  else .some

/-- The binding of a core with the journal entries that have not performed at their targets yet: what an entry has stored there is read
there (R291, R310). -/
def State.openJournal (s : State) (c : Nat) : Bind :=
  let b := s.cur c
  let done := s.accs.filterMap (fun a =>
    match a.kind with | .store n => if a.core = c && a.ctx = s.ctxOf c && a.st = .done then some n else none | _ => none)
  { b with journal := b.journal.filter (fun p => !done.contains p.1) }

/-- Whether a live entry of the core belongs to the line of an address (R291, R298). -/
def Bind.lineBusy (b : Bind) (la : Nat) : Bool :=
  b.journal.any (fun p => p.2.live && p.2.la / 128 = la / 128)

/-- The lowest free journal entry of 64 (R290). -/
def Bind.freeEntry (b : Bind) : Option Nat := (List.range 64).find? (fun n => (b.entry n).st = .free)

/-- Whether an activation record still has entries that are not FREE (R292). -/
def Bind.recUsed (b : Bind) (n : Nat) : Bool := b.journal.any (fun p => p.2.st ≠ .free && p.2.recNo = n)

/-- The record of the running activation: the one it holds, or else one with no entries (R292). -/
def Bind.recFor (b : Bind) : Option (Nat × ActRec) :=
  match b.act with
  | none => some (0, b.actRec 0)
  | some a =>
    let r : ActRec := ⟨true, b.vtime, (b.slot a.slot).desc.entry, a.tag, a.slot⟩
    match (List.range 8).find? (fun n => b.recUsed n && b.actRec n = r) with
    | some n => some (n, r)
    | none => ((List.range 8).find? (fun n => !(b.recUsed n))).map (fun n => (n, r))

/-- Take a journal entry for a posted access (R290, R292); `none` when the journal or the records are full. -/
def State.postEntry (s : State) (f : Focus) (e : JEntry) : Option State :=
  let b := s.cur f.core
  match b.freeEntry, b.recFor with
  | some n, some (r, rec) =>
    let k := (s.core f.core).pair
    let e1 := { e with
      thr := f.thr
      recNo := r
      retired := if f.thr = 0 then b.retired % 2 ^ 32 else 0xFFFF_FFFF
      seq := b.jseq
      eff := s.effClass f.core
      ival := if k.mode = .off then 0 else k.interval + 1 }
    some (s.modCur f.core (fun b =>
      { b.modEntry n (fun _ => e1) with
        jseq := b.jseq + 1
        recs := SMap.set ActRec.free b.recs r rec
        cnt := { b.cnt with stores := b.cnt.stores + 1 } }))
  | _, _ => none

/-! ## Accesses in flight (R289) -/

/-- A new access of a thread, on its way to its target. -/
def State.newAcc (s : State) (f : Focus) (kind : AccKind) (va : Word) (x : Xlat) (size off : Nat) : State :=
  { s with
    accs := s.accs ++ [{
      id := s.nextAcc, core := f.core, ctx := s.ctxOf f.core, thr := f.thr, kind := kind, st := .flying, va := va,
      la := x.la, size := size, off := off, attr := x.attr, node := x.node, eff := s.effClass f.core, arr := 0, key := 0,
      pa := 0, ordinal := SMap.get 0 (s.cur f.core).hostReads f.thr }]
    nextAcc := s.nextAcc + 1 }

/-- A host read of a thread has been issued: its ordinal in the activation rises (R441); the payload of a SEND counts none. -/
def State.countHostRead (s : State) (f : Focus) (la : Nat) : State :=
  if isHost la then
    s.modCur f.core (fun b => { b with hostReads := SMap.set 0 b.hostReads f.thr (SMap.get 0 b.hostReads f.thr + 1) })
  else s

/-- The ranges that a read takes, from its first byte: all of it, or of each 128 bytes the first `planes` (R44, R233). -/
def blocksOf (size planes : Nat) : List (Nat × Nat) :=
  if planes = 0 then [(0, size)] else (List.range (ceilDiv size 128)).map (fun k => (128 * k, planes))

def Acc.blocks (a : Acc) : List (Nat × Nat) := blocksOf a.size a.planes

/-- How many bytes a read returns. -/
def Acc.count (a : Acc) : Nat := (a.blocks.map (·.2)).sum

/-- The bytes of some ranges from a logical address, and whether one of them is poisoned. -/
def State.bytesOf (s : State) (la : Nat) (bl : List (Nat × Nat)) : List Byte := bl.flatMap (fun r => s.bytesAt (la + r.1) r.2)

def State.poisonedOf (s : State) (la : Nat) (bl : List (Nat × Nat)) : Bool := bl.any (fun r => s.poisoned (la + r.1) r.2)

/-- The lines of memory that an access touches: one, or as many as the part of a longer read that lies on its page (R309, R355). -/
def Acc.lines (a : Acc) : List Nat :=
  (List.range (ceilDiv (a.la % 128 + max a.size 1) 128)).map (fun k => a.la / 128 + k)

/-- An access that has performed at its target, or has been refused there. -/
def AccSt.settled : AccSt → Bool
  | .valued _ _ _ => true
  | .done => true
  | .refused _ => true
  | _ => false

/-- What a matrix command still claims (R267, R272, R273, R275): the rows of B, the rows of A, or the scale bytes that it has still
to read, as (address, bytes); true beside what it reads in the step that it has come to. -/
def MtxCmd.claims (k : MtxCmd) : List (Bool × Nat × Nat) :=
  let row := fun (n r : Nat) => ((k.e0 + w64 r * k.e1).toNat, 16 * n)
  if k.st = .complete || k.stop then []
  else if k.op = 0 then
    (if k.fwd then [] else (List.range (fld k.e2 8 7 + 1)).map (fun r => (true, row (fld k.e2 0 4) r)))
  else if k.op = 1 || k.op = 2 then
    ((List.range (fld k.e2 0 7 + 1)).drop k.rows).map (fun r => (r = k.rows, row (fld k.e2 16 4) r))
  else if k.op = 3 then
    ((List.range (fld k.e1 40 7 + 1)).drop k.rows).flatMap (fun r =>
      (if k.e2 = 0 then [] else [(decide (r = k.rows), (k.e2 + w64 (fld k.e1 32 7 + r)).toNat, 1)]) ++
      (if k.e3 = 0 then [] else [(decide (r = k.rows), (k.e3 + w64 (fld k.e1 48 7)).toNat, fld k.e1 56 7 + 1)]))
  else []

/-- Whether a store meets a granule that a matrix command of its core claims (R267): one it will read in a later step, or one
of this step that it has not read yet. A save releases every claim (R125). -/
def State.claimed (s : State) (c la n : Nat) : Bool :=
  (s.cur c).st = .bound && (s.cur c).cmds.any (fun k => k.claims.any (fun r => (pieces 16 r.2.1 r.2.2).any (fun p =>
    (match s.look c (s.ctxOf c) p.1 with
     | .hit x => la / 16 ≤ x.la / 16 && x.la / 16 ≤ (la + n - 1) / 16
     | _ => false) &&
    !(r.1 && s.accs.any (fun a => a.core = c && a.ctx = s.ctxOf c && a.off = k.seq && a.va = w64 p.1 && a.size = p.2 &&
      a.st.settled && (match a.kind with | .engine none _ => true | _ => false))))))

def State.acc? (s : State) (id : Nat) : Option Acc := s.accs.find? (fun a => a.id = id)

def State.modAcc (s : State) (id : Nat) (f : Acc → Acc) : State :=
  { s with accs := s.accs.map (fun a => if a.id = id then f a else a) }

def State.dropAcc (s : State) (id : Nat) : State :=
  { s with accs := s.accs.filter (fun a => a.id ≠ id), parks := s.parks.filter (fun p => p.acc ≠ id) }

/-- Whether an earlier SO access of the thread has not performed at its target (R308). -/
def State.soBusy (s : State) (f : Focus) : Bool :=
  s.accs.any (fun a => a.core = f.core && a.ctx = s.ctxOf f.core && a.thr = f.thr && a.attr = 0 && a.kind ≠ .prefetch && !a.st.settled) ||
  (s.cur f.core).journal.any (fun p => p.2.live && p.2.thr = f.thr && p.2.attr = 0)

/-- Whether an earlier read of the thread that meets some of these bytes has not performed: a later one of the same location may
not pass it (R310). -/
def State.readBehind (s : State) (f : Focus) (la n : Nat) : Bool :=
  s.accs.any (fun a => s.ofThread f a && !a.st.settled && a.la < la + n && la < a.la + a.size &&
    (match a.kind with | .load => true | .vload => true | .fullLoad _ => true | .amo _ _ _ => true | _ => false))

/-- What the thread held when a load issues, for an exact fault of it (R38). -/
def State.snap (s : State) (f : Focus) : Snap :=
  let b := s.cur f.core
  let m := b.mt (f.thr - 1)
  { regs := s.xs f, es := s.es f, ix := if f.thr = 0 then b.i else [], v := if f.thr = 0 then [] else m.v
    shape := if f.thr = 0 then 0 else m.shape, loop := if f.thr = 0 then b.loop else none, views := if f.thr = 0 then b.views else []
    crc := if f.thr = 0 then b.crc else m.crc, jseq := b.jseq, pc := s.pcOf f,
    pend := (s.pendOf f).map (fun p => (p.acc, p.dst)),
    retired := if f.thr = 0 then b.retired else m.retired
    block := if f.thr = 0 then [] else m.block
    hostReads := SMap.get 0 b.hostReads f.thr }

/-- Record an outstanding load of a thread; an earlier one with the same destination loses it (R93). -/
def State.addPend (s : State) (f : Focus) (p : PendLoad) : State :=
  if f.thr = 0 then s.modCur f.core (fun b => { b with pend := cancelDst p.dst b.pend ++ [p] })
  else s.modMt f.core (f.thr - 1) (fun m => { m with pend := cancelDst p.dst m.pend ++ [p] })

def State.delPend (s : State) (f : Focus) (acc : Nat) : State :=
  if f.thr = 0 then s.modCur f.core (fun b => { b with pend := b.pend.filter (fun p => p.acc ≠ acc) })
  else s.modMt f.core (f.thr - 1) (fun m => { m with pend := m.pend.filter (fun p => p.acc ≠ acc) })

/-- An access waits at its target, in arrival order. -/
def State.waitThere (s : State) (a : Acc) (st : AccSt) : State :=
  { s.modAcc a.id (fun q => { q with st := st, arr := s.arrivals }) with arrivals := s.arrivals + 1 }

/-! ## Performing at a target -/

/-- The result of an atomic operation (R298): OP, bytes, old value, operand, compare value. -/
def amoResult (op n old b c : Nat) : Nat :=
  let w := 8 * n
  match op with
  | 0 => (old + b) % 2 ^ w
  | 1 => b
  | 2 => Nat.land old b
  | 3 => Nat.lor old b
  | 4 => Nat.xor old b
  | 5 => if toSigned w old ≤ toSigned w b then old else b
  | 6 => if toSigned w b ≤ toSigned w old then old else b
  | 7 => min old b
  | 8 => max old b
  | _ => if old = c then b else old

/-- The requester ID and PASID of a window's requests (R356). -/
def State.windowRid (s : State) (la : Nat) : Nat × Nat :=
  let g := s.reg (hwReg ((la - 0x8000_0000_0000) / 2 ^ 40) 8)
  (if bit g 23 then 128 else fld g 16 7, fld g 24 20)

/-- What the host has written into a function's ATS and PRI capabilities (R357, R359). -/
def State.cap (s : State) (fn : Nat) : Cap := SMap.get Cap.reset s.caps fn

/-- The mode that a window works in (R357): 3 without ATS and PRI of its owner is 0. -/
def State.windowMode (s : State) (la : Nat) : Nat :=
  let m := fld (s.reg (hwReg ((la - 0x8000_0000_0000) / 2 ^ 40) 8)) 0 2
  let k := s.cap (s.windowRid la).1
  if m = 3 && !(k.ats && k.pri) then 0 else m

/-- An old IDE key set of a world is retired once nothing recorded against it is outstanding (R406): a non-posted request, a flushing read
of one of its contexts, or a translation request. -/
def State.retireSet (s : State) (vf : Nat) : State :=
  let w := s.world vf
  if w.oldset && !(s.accs.any (fun a => a.st = .hostOut && a.key ≠ w.keyset &&
      (if a.kind = .flush then ctxFn a.ctx = vf else isHost a.la && (s.windowRid a.la).1 = vf))) &&
      !(s.treqs.any (fun t => t.rid = vf && t.key ≠ w.keyset)) then
    { s with worlds := SMap.set World.reset s.worlds vf { w with oldset := false } }
  else s

/-- Whether a host window serves a context (R356, R357, R402). -/
def State.windowServes (s : State) (ctx la : Nat) : Bool :=
  let n := (la - 0x8000_0000_0000) / 2 ^ 40
  let g := s.reg (hwReg n 8)
  let mode := s.windowMode la
  let pf := bit g 23
  let vf := fld g 16 7
  mode ≠ 0 &&
    (if isRoot ctx then pf || (s.world vf).st = .isOpen else !pf && vf = ctxFn ctx) &&
    (isRoot ctx || (s.world (ctxFn ctx)).st = .isOpen || mode = 3)

/-- The aperture register that an aperture frame belongs to (R415). -/
def State.apertureReg (s : State) (la : Nat) : Word := s.reg (pfReg (0x2_0000 + 8 * (la / 2 ^ 36 % 2048 - 64)))

/-- Whether an aperture frame reaches no module (R415). -/
def State.apertureOff (s : State) (la : Nat) : Bool := isAperture la && !(bit (s.apertureReg la) 63)

/-- Whether a line is orphaned, or its memory has been lost with its module (R418). -/
def State.lineLost (s : State) (la : Nat) : Bool :=
  isMemory la &&
    ((SMap.find? s.proxies (la / 128)).any (·.orphan) ||
     (isAperture la && !s.apertureOff la && s.failedMods.contains (fld (s.apertureReg la) 16 12)))

/-- The rights behind an access at its target. -/
def State.nodeRights (s : State) (node : Option Nat) : BitVec 6 :=
  match node with
  | none => 0x3F
  | some n => (s.node n).rights

/-- The refusal of a posted access at its target, by reason (R294), or of a non-posted one (`none` for neither). The
reasons: 1 REVOKED, 2 RIGHTS, 3 BANKMODE, 4 HOMELOST, 6 CLASS. -/
def State.refusal (s : State) (a : Acc) : Option Nat :=
  let fr := s.frame (a.la / 4096)
  if a.lines.any (fun l => s.lineLost (128 * l)) then some 4
  else if s.cutAt a.node (s.targetOf a.la) || (128 < a.size && a.lines.any (fun l => s.cutAt a.node (s.targetOf (128 * l)))) then some 1
  else
    match region a.la with
    | .scratch c b off =>
      if !s.bankAnswers c b off (max a.size 1) then some 3
      else if s.frameShut a.ctx a.la then some 2
      else if !(classOk a.eff (s.classAt a.la) (s.nodeRights a.node)) then some 6
      else none
    | .host => if s.hostPort.up && s.windowServes a.ctx a.la then none else some 2
    | .reserved => some 2
    | .memory =>
      if s.apertureOff a.la then some 2
      else if s.frameShut a.ctx a.la then some 2
      else if !(classOk a.eff fr.cls (s.nodeRights a.node)) then some 6
      else none

/-- The exact cause that a refusal of a load, fetch or AMO gives (R294, R334, R418). -/
def loadCause (reason : Nat) : Nat := if reason = 4 then cHomelost else cAccess

/-- The asynchronous cause of a refused posted access, as its pending bit (R294). -/
def storePend (reason : Nat) : Nat := if reason = 4 then pHomelost else if reason = 5 then pFrame else pPstr

end Sys2Proof.Machine
end

