-- ==== Sys2Proof/Machine/Budget.lean ====
section
/-! DEFINITION. Activity budgets of functions at the units that perform their requests (R169, R170). -/
namespace Sys2Proof.Machine

/-- A function's activity before Apex has applied its policy block for the first time: nothing spent, the limits as the
block's registers read after reset (R170). -/
def Activity.fresh (fn : Nat) : Activity :=
  { Activity.zero with
    limMem := (resetReg (fpReg fn 0x10)).toNat, limLoc := (resetReg (fpReg fn 0x18)).toNat
    limCpy := (resetReg (fpReg fn 0x20)).toNat, limFab := (resetReg (fpReg fn 0x28)).toNat }

def State.act (s : State) (fn : Nat) : Activity := (SMap.find? s.activity fn).getD (Activity.fresh fn)

def State.setAct (s : State) (fn : Nat) (a : Activity) : State := { s with activity := SMap.put s.activity fn a }

/-- A budget field of all ones sets no limit (R170). -/
def noLimit32 : Nat := 2 ^ 32 - 1
def noLimit64 : Nat := 2 ^ 64 - 1

/-- Whether a function may still use memory link `l`, a Locus engine, the copy engine, or a fabric port (R169). -/
def State.memOk (s : State) (fn l : Nat) : Bool :=
  let a := s.act fn
  a.limMem = noLimit32 || SMap.get 0 a.mem l < a.limMem

def State.locOk (s : State) (fn l : Nat) : Bool :=
  let a := s.act fn
  a.limLoc = noLimit32 || SMap.get 0 a.loc l < a.limLoc

def State.cpyOk (s : State) (fn : Nat) : Bool :=
  let a := s.act fn
  a.limCpy = noLimit64 || a.cpy < a.limCpy

def State.fabOk (s : State) (fn p : Nat) : Bool :=
  let a := s.act fn
  a.limFab = noLimit32 || SMap.get 0 a.fab p < a.limFab

def State.spendMem (s : State) (fn l n : Nat) : State :=
  let a := s.act fn
  s.setAct fn { a with mem := SMap.set 0 a.mem l (SMap.get 0 a.mem l + n) }

def State.spendLoc (s : State) (fn l n : Nat) : State :=
  let a := s.act fn
  s.setAct fn { a with loc := SMap.set 0 a.loc l (SMap.get 0 a.loc l + n) }

def State.spendCpy (s : State) (fn n : Nat) : State :=
  let a := s.act fn
  s.setAct fn { a with cpy := a.cpy + n }

def State.spendFab (s : State) (fn p n : Nat) : State :=
  let a := s.act fn
  s.setAct fn { a with fab := SMap.set 0 a.fab p (SMap.get 0 a.fab p + n) }

/-- How many lines a core's L2 slice holds: 512 for each bank in cache mode (R12, R281). -/
def State.sliceRoom (s : State) (c : Nat) : Nat := 512 * ((List.range 16).filter (fun n => s.bankMode c n = 0)).length

/-- A full L2 slice lets its lowest line go, written back when it is dirty (R12; log 13). -/
def State.makeRoom (s : State) (c : Nat) : State :=
  let held := s.l2.filter (fun p => s.homeCore (p.1 * 128) = c)
  if held.length < s.sliceRoom c then s
  else
    match held with
    | p :: _ => { s.writeBack p.1 with l2 := SMap.del s.l2 p.1 }
    | [] => s

/-- The home slice of a line holds it from now on, unless the core has no cache-mode bank (R283, R286). -/
def State.holdLine (s : State) (line : Nat) : State :=
  let c := s.homeCore (line * 128)
  if s.noSlice c then s else let t := s.makeRoom c; { t with l2 := SMap.set false t.l2 line true }

/-- A home slice needs a line of this module: a line it does not hold crosses its memory link in two transfers of 64
bytes, charged to the function; `none` while the function's budget there is spent (R169). -/
def State.fetchLine (s : State) (fn line : Nat) : Option State :=
  let l := mxuOf (line * 128)
  if SMap.get false s.l2 line || isAperture (line * 128) then some s
  else if s.memOk fn l then some ((s.holdLine line).spendMem fn l 2)
  else none

/-- The same of several lines: those that the budget allows are fetched, and whether all of them were. -/
def State.fetchLines (s : State) (fn : Nat) : List Nat → State × Bool
  | [] => (s, true)
  | l :: t =>
    match s.fetchLine fn l with
    | some u => u.fetchLines fn t
    | none => (s, false)

/-- A frame has been accessed (R340). -/
def State.touchFrame (s : State) (la : Nat) : State :=
  if isMemory la && !isAperture la then s.modFrame (la / 4096) (fun r => { r with last := s.ptime / 1000 }) else s

end Sys2Proof.Machine
end

