-- ==== Sys2Proof/WellFormed.lean ====
section
/-! DEFINITION. The static limits of an instruction's fields: what an encoding must satisfy, whichever thread executes
it, before it means anything (R6, R78-R81, R85, R86 and the ILLEGAL rows of the entries). A term that breaks one raises
ILLEGAL. Limits that depend on the executing thread (R74, R75, R83) are the machine's. -/
namespace Sys2Proof

/-- Scope codes 0..5 (R78, R306). -/
def scopeOk (s : BitVec 3) : Bool := s.toNat ≤ 5

/-- The acquire and release fields of an engine command (R81): a scope needs an ordering. -/
def engineOrderOk (s : BitVec 3) (o : BitVec 2) : Bool := scopeOk s && (o ≠ 0 || s = 0)

/-- A destination format of VCVT (R80, R56): the planes field goes with NI8 and only with it. -/
def cvtFmtOk (p : BitVec 3) (f : BitVec 4) : Bool :=
  f.toNat ≤ 10 && (if f = 1 then p ≠ 0 else p = 0)

/-- The planes operand of VLDP and VSTP: 2..8 (R233). -/
def planesOk (k : BitVec 5) : Bool := 2 ≤ k.toNat && k.toNat ≤ 8

/-- The format operand of VLD: 1..9 (R231). -/
def vldFmtOk (f : BitVec 5) : Bool := 1 ≤ f.toNat && f.toNat ≤ 9

/-- The instruction count of BCAST: 1..8 (R249). -/
def bcastOk (n : BitVec 4) : Bool := 1 ≤ n.toNat && n.toNat ≤ 8

/-- An e-register number of SETE, SETEI and GETE: 0..7 (R104). -/
def eRegOk (r : Reg) : Bool := r.toNat ≤ 7

/-- The body length field of LOOP: 3..4095 halfwords (R200). -/
def loopOk (i : BitVec 12) : Bool := 3 ≤ i.toNat

/-- The kinds and scope of FENCE (R79, R312). -/
def fenceOk (s : BitVec 3) (k : BitVec 4) : Bool := k ≠ 0 && scopeOk s

/-- The op and scope of BARM (R79, R222). -/
def barmOk (s o : BitVec 3) : Bool := o.toNat ≤ 4 && scopeOk s

/-- The register of a 16-bit form of groups 0 and 1 (R86). -/
def cRegOk (r : Reg) : Bool := r ≠ 0

/-- Every static field limit of the instruction. A device step has none here. -/
def Instr.wf : Instr → Bool
  | .sete _ d | .setei _ d => eRegOk d
  | .gete a _ => eRegOk a
  | .amoadd _ _ _ _ s _ | .amoswap _ _ _ _ s _ | .amoand _ _ _ _ s _ | .amoor _ _ _ _ s _ | .amoxor _ _ _ _ s _
  | .amomin _ _ _ _ s _ | .amomax _ _ _ _ s _ | .amominu _ _ _ _ s _ | .amomaxu _ _ _ _ s _
  | .amocas _ _ _ _ s _ => scopeOk s
  | .fence s k => fenceOk s k
  | .loop i _ => loopOk i
  | .barm s o _ _ => barmOk s o
  | .bcast n _ => bcastOk n
  | .vld f _ _ => vldFmtOk f
  | .vldp k _ _ | .vstp k _ _ => planesOk k
  | .vcvt p f _ _ => cvtFmtOk p f
  | .vsplit p f a d => cvtFmtOk p f && a ≠ d
  | .mldb _ s o _ | .mmul _ _ s o _ | .mmrot _ _ s o _ | .mdrain _ s o _ | .mzero _ s o _
  | .cpy s o _ | .cpyx s o _ => engineOrderOk s o
  | .cAddi r _ | .cLi r _ | .cMv r _ | .cAdd r _ | .cSub r _ | .cAnd r _ => cRegOk r
  | .unassignedEncoding _ => false
  | _ => true

end Sys2Proof
end

