-- ==== Sys2Proof/Machine/Operands.lean ====
section
/-! DEFINITION. What comes before every instruction's own effect: the registers it names, where it is legal, the debug
comparators, and the interlocks (R74, R78, R83, R84, R90, R93, R424). -/
namespace Sys2Proof.Machine

/-- The general registers that an instruction reads and writes (R74, R86, R91), by number. -/
def regUse : Instr → List Nat × List Nat
  | .add b a d | .sub b a d | .sll b a d | .slt b a d | .sltu b a d | .xor b a d | .srl b a d | .sra b a d
  | .and b a d | .or b a d | .andn b a d | .orn b a d | .xnor b a d | .mul b a d | .mulh b a d | .mulhsu b a d
  | .mulhu b a d | .div b a d | .divu b a d | .rem b a d | .remu b a d | .min b a d | .max b a d | .minu b a d
  | .maxu b a d | .amoadd _ _ b a _ d | .amoswap _ _ b a _ d | .amoand _ _ b a _ d | .amoor _ _ b a _ d
  | .amoxor _ _ b a _ d | .amomin _ _ b a _ d | .amomax _ _ b a _ d | .amominu _ _ b a _ d
  | .amomaxu _ _ b a _ d | .amocas _ _ b a _ d | .gmemb b a d | .map _ b a d | .grant _ b a d => ([a.toNat, b.toNat], [d.toNat])
  | .addi _ a d | .slli _ a d | .slti _ a d | .sltiu _ a d | .xori _ a d | .srli _ a d | .srai _ a d
  | .ori _ a d | .andi _ a d | .clz a d | .ctz a d | .popc a d | .brev a d | .jalr _ a d | .lb _ a d
  | .lh _ a d | .lw _ a d | .ld _ a d | .lbu _ a d | .lhu _ a d | .lwu _ a d | .lwf _ a d | .ldf _ a d
  | .lwfc _ a d | .ldfc _ a d | .nestq a d | .mld a d | .mhdr a d | .grank a d | .gsize a d | .barw a d
  | .barq a d | .unmap a d | .mquery a d | .accept a d | .csrw _ a d | .csrs _ a d | .csrc _ a d | .gate a d
  | .gstat a d => ([a.toNat], [d.toNat])
  | .lui _ d | .auipc _ d | .jal _ d | .gete _ d | .geteI _ d | .qpeek _ d | .qcnt _ d | .mlen d | .mtstat d
  | .mstat d | .cpyq d | .csrr _ d | .checkerr d => ([], [d.toNat])
  | .beq _ b a | .bne _ b a | .blt _ b a | .bge _ b a | .bltu _ b a | .bgeu _ b a | .sb _ b a | .sh _ b a
  | .sw _ b a | .sd _ b a | .swf _ b a | .sdf _ b a | .qput b a _ | .nest b a | .send b a | .sendg b a
  | .sendf b a | .barm _ _ b a | .barv b a | .vins b a _ => ([a.toNat, b.toNat], [])
  | .discard _ a | .lastuse _ a | .prefetch _ a | .flushl _ a | .sete a _ | .loop _ a | .barx a | .bcast _ a
  | .bfetch _ a | .mtwait a | .mtrst a | .vld _ a _ | .vst a _ | .vldp _ a _ | .vstp _ a _ | .vtag a _
  | .vshape a | .cpyw a | .release a | .trap a | .trace a => ([a.toNat], [])
  | .qget b _ d => ([], [d.toNat, b.toNat])
  | .vaddVx b _ _ | .vsubVx b _ _ | .vmulVx b _ _ | .vminVx b _ _ | .vmaxVx b _ _ | .vandVx b _ _
  | .vorVx b _ _ | .vxorVx b _ _ | .vshlVx b _ _ | .vshrVx b _ _ | .vsraVx b _ _ | .vcmpeqVx b _ _
  | .vcmpltVx b _ _ | .vselVx b _ _ | .vfaddVx b _ _ | .vfsubVx b _ _ | .vfmulVx b _ _ | .vfmaVx b _ _
  | .vfminVx b _ _ | .vfmaxVx b _ _ | .vfcmpltVx b _ _ | .vfcmpeqVx b _ _ | .vscale b _ _ | .vbcr b _ _
  | .vbcc b _ _ => ([b.toNat], [])
  | .vext b _ d => ([b.toNat], [d.toNat])
  | .cAddi r _ => ([r.toNat], [r.toNat])
  | .cLi r _ | .cQget _ r => ([], [r.toNat])
  | .cMv r s => ([s.toNat], [r.toNat])
  | .cAdd r s | .cSub r s | .cAnd r s => ([r.toNat, s.toNat], [r.toNat])
  | .cLd _ a d => ([8 + a.toNat], [8 + d.toNat])
  | .cSd _ a s => ([8 + a.toNat, 8 + s.toNat], [])
  | .cBeqz a _ | .cBnez a _ => ([8 + a.toNat], [])
  | .cQput _ r => ([r.toNat], [])
  | _ => ([], [])

/-- The thread kinds of R83, with the device's own steps apart. -/
inductive Kind where
  | both | ct | mt | dev
  deriving DecidableEq, Repr

/-- Where an instruction is legal (R83). -/
def kindOf : Instr → Kind
  | .geteI _ _ | .nest _ _ | .loop _ _ | .nestq _ _ | .send _ _ | .sendg _ _ | .sendf _ _ | .mld _ _ | .mlen _
  | .mhdr _ _ | .endAct | .endx | .grank _ _ | .gsize _ _ | .gmemb _ _ _ | .barm _ _ _ _ | .barv _ _
  | .barw _ _ | .barx _ | .barq _ _ | .bcast _ _ | .mtwait _ | .mtstat _ | .mtrst _ | .mldb _ _ _ _
  | .mmul _ _ _ _ _ | .mmrot _ _ _ _ _ | .mdrain _ _ _ _ | .mzero _ _ _ _ | .mwait | .mstat _ | .cpy _ _ _
  | .cpyx _ _ _ | .cpyw _ | .cpyq _ | .map _ _ _ _ | .grant _ _ _ _ | .unmap _ _ | .mquery _ _ | .release _
  | .accept _ _ | .eret | .checkerr _ | .trace _ | .pair | .unpair | .wfe | .gate _ _ | .gstat _ _ | .cEnd => .ct
  | .bfetch _ _ | .stop | .vaddVv _ _ _ | .vaddVx _ _ _ | .vaddVi _ _ _ | .vsubVv _ _ _ | .vsubVx _ _ _
  | .vsubVi _ _ _ | .vmulVv _ _ _ | .vmulVx _ _ _ | .vmulVi _ _ _ | .vminVv _ _ _ | .vminVx _ _ _
  | .vminVi _ _ _ | .vmaxVv _ _ _ | .vmaxVx _ _ _ | .vmaxVi _ _ _ | .vandVv _ _ _ | .vandVx _ _ _
  | .vandVi _ _ _ | .vorVv _ _ _ | .vorVx _ _ _ | .vorVi _ _ _ | .vxorVv _ _ _ | .vxorVx _ _ _ | .vxorVi _ _ _
  | .vshlVv _ _ _ | .vshlVx _ _ _ | .vshlVi _ _ _ | .vshrVv _ _ _ | .vshrVx _ _ _ | .vshrVi _ _ _
  | .vsraVv _ _ _ | .vsraVx _ _ _ | .vsraVi _ _ _ | .vabs _ _ | .vneg _ _ | .vcmpeqVv _ _ _ | .vcmpeqVx _ _ _
  | .vcmpeqVi _ _ _ | .vcmpltVv _ _ _ | .vcmpltVx _ _ _ | .vcmpltVi _ _ _ | .vselVv _ _ _ | .vselVx _ _ _
  | .vselVi _ _ _ | .vfaddVv _ _ _ | .vfaddVx _ _ _ | .vfsubVv _ _ _ | .vfsubVx _ _ _ | .vfmulVv _ _ _
  | .vfmulVx _ _ _ | .vfmaVv _ _ _ | .vfmaVx _ _ _ | .vfminVv _ _ _ | .vfminVx _ _ _ | .vfmaxVv _ _ _
  | .vfmaxVx _ _ _ | .vfexp2 _ _ | .vflog2 _ _ | .vfrcp _ _ | .vfrsq _ _ | .vfcmpltVv _ _ _ | .vfcmpltVx _ _ _
  | .vfcmpeqVv _ _ _ | .vfcmpeqVx _ _ _ | .vld _ _ _ | .vst _ _ | .vldp _ _ _ | .vstp _ _ _ | .vcvt _ _ _ _
  | .vsplit _ _ _ _ | .vscale _ _ _ | .vtag _ _ | .vrsumRow _ _ | .vrsumCol _ _ | .vrmaxRow _ _ | .vrmaxCol _ _
  | .vrminRow _ _ | .vrminCol _ _ | .vscanRow _ _ | .vscanCol _ _ | .vshape _ | .vmov _ _ | .vbcr _ _ _
  | .vbcc _ _ _ | .vtrn _ _ | .vins _ _ _ | .vext _ _ _ | .cStop => .mt
  | .asyncTrapTake _ | .tstatSave _ | .tstatRestore _ | .saveComplete _ _ | .restoreComplete _ _
  | .parktoExpiry _ | .contextDestroyComplete _ | .slotTableWrite _ _ | .apexSchedule _ | .lqEnable _ _
  | .lqDisable _ _ | .lqtailWrite _ _ _ | .queueSwitchIn _ _ | .queueSwitchOut _ _ | .entryAccept _ _
  | .launch _ | .maproot _ | .reclaim _ | .query _ | .commandComplete _ | .periodBoundary | .budgetExhausted _
  | .messageArrival _ | .messageDelivery _ _ | .actorFire _ | .floorPublish | .outboxDepart _
  | .endOutboxDrained _ | .nestJoinArrival _ | .nestClaimServe _ _ | .loopGrantArrival _ | .loopLeave _
  | .barrierArrival _ | .barrierAbort _ | .barrierNotice _ | .matrixCommandStart _ _ | .mldbLoadDone _ _
  | .tileForwardArrival _ | .matrixCommandComplete _ _ _ | .matrixTokenPlace _ _ | .copyComplete _ _ _
  | .journalSend _ _ | .journalAck _ _ | .journalRefusal _ _ | .psjeSelect _ _ | .psjeDismiss _ _
  | .leaseGrant _ | .homeWritePerform _ | .l1LeaseExpiry _ _ | .locusMap _ | .locusGrant _ | .locusUnmap _
  | .locusRelease _ | .locusAccept _ | .revokeCut _ _ | .shootdown _ _ | .shootdownAck _ _ | .locusPhaseEnd _
  | .mxuPark _ | .faultRecordWrite _ | .replay _ _ | .rqtailWrite _ _ | .fill _ _ _ | .evict _ | .pin _
  | .unpin _ | .evictCopyoutDone _ _ | .mxstatRead _ | .fgbWrite _ _ | .translationCompletion _ _ _ _ _
  | .prgResponse _ _ | .atsInvalidationRequest _ _ _ _ | .invalidationCompletion | .errorCorrected _
  | .errorUncorrectable _ | .memoryScrub _ | .relayoutGo _ _ | .relayoutRun _ | .intervalClose _
  | .fingerprintAgree _ | .fingerprintDisagree _ | .tiebreakResult _ _ | .pairCloseTimeout _ | .wcfgConf _ _
  | .wcfgRetire _ | .keySet _ _ _ | .keyRevoke _ _ | .tdiError _ | .functionLevelReset _
  | .worldRetireComplete _ | .cxlMemRequest _ _ _ _ _ | .cxlH2dSnoop _ | .ideKeySwitch _ | .hostLinkUp _
  | .hostLinkRecovery | .hostLinkDown | .skonovPortEnable _ | .skonovPortDisable _ | .skonovRetrain _
  | .portTrained _ _ | .portTrainingTimeout _ | .laneFailure _ _ | .retrainComplete _ | .flitReceive _ _
  | .flitNak _ _ | .proxyGrant _ _ _ _ | .proxyInvalidation _ _ | .directoryRecall _ _ | .moduleFailed _
  | .orphrel | .quiesce | .quiesceComplete | .fabricArrival _ _ _ _ _ _ | .sessionOpen _ | .sessionClose
  | .dbgStop | .dbgResume _ | .dbgStep _ | .freezeComplete | .stopTimeout | .stepComplete | .stepTimeout
  | .comparatorConfig _ _ | .traceSample _ | .counterSelect _ _ | .replayInject _ | .freezeAssert
  | .freezeRelease _ | .scanRead _ _ | .deviceReset _ _ _ | .pcapwWrite _ | .pcapwinWrite _ | .powerSample _
  | .powerAdjust _ | .powerWindowEnd _ | .thermRead | .thermalThrottle _ _ _ | .thermalFreeze _ _
  | .thermalTrip _ _ | .thermalRecover _ _ | .errorRecordWrite | .registerWrite _ _ _ _
  | .accessReachesTarget _ _ | .nonPostedCompletion _ _ _ | .birspArrival _ | .pcieCompletionTimeout _
  | .priEnableWrite _ => .dev
  | _ => .both

/-! ## Branch offsets (R71, R85) -/

/-- A B-format offset: bits [12:1] given, sign-extended (R71). -/
def offB (i : BitVec 12) : Word := ((i ++ 0#1) : BitVec 13).signExtend 64

/-- A J-format offset: bits [20:1] given, sign-extended (R71). -/
def offJ (i : BitVec 20) : Word := ((i ++ 0#1) : BitVec 21).signExtend 64

/-- The offsets of the 16-bit branches and jumps (R85). -/
def offC8 (o : BitVec 8) : Word := ((o ++ 0#1) : BitVec 9).signExtend 64

def offC12 (o : BitVec 12) : Word := ((o ++ 0#1) : BitVec 13).signExtend 64

/-- Instructions that may issue while loads of their thread are outstanding (R93): an exact fault of such a load takes back what they
have done (R38), the journal entries of their stores included (log 5). -/
def lightOp : Instr → Bool
  | .add _ _ _ | .sub _ _ _ | .sll _ _ _ | .slt _ _ _ | .sltu _ _ _ | .xor _ _ _ | .srl _ _ _ | .sra _ _ _
  | .and _ _ _ | .or _ _ _ | .andn _ _ _ | .orn _ _ _ | .xnor _ _ _ | .addi _ _ _ | .slli _ _ _ | .slti _ _ _
  | .sltiu _ _ _ | .xori _ _ _ | .srli _ _ _ | .srai _ _ _ | .ori _ _ _ | .andi _ _ _ | .lui _ _ | .auipc _ _
  | .mul _ _ _ | .mulh _ _ _ | .mulhsu _ _ _ | .mulhu _ _ _ | .div _ _ _ | .divu _ _ _ | .rem _ _ _
  | .remu _ _ _ | .min _ _ _ | .max _ _ _ | .minu _ _ _ | .maxu _ _ _ | .clz _ _ | .ctz _ _ | .popc _ _
  | .brev _ _ | .beq _ _ _ | .bne _ _ _ | .blt _ _ _ | .bge _ _ _ | .bltu _ _ _ | .bgeu _ _ _ | .jal _ _
  | .jalr _ _ _ | .lb _ _ _ | .lh _ _ _ | .lw _ _ _ | .ld _ _ _ | .lbu _ _ _ | .lhu _ _ _ | .lwu _ _ _
  | .lwf _ _ _ | .ldf _ _ _ | .sb _ _ _ | .sh _ _ _ | .sw _ _ _ | .sd _ _ _ | .swf _ _ _ | .sdf _ _ _
  | .discard _ _ | .lastuse _ _ | .flushl _ _ | .prefetch _ _ | .qcnt _ _ | .mlen _ | .mld _ _ | .mhdr _ _
  | .nestq _ _ | .grank _ _ | .gsize _ _ | .gmemb _ _ _ | .barq _ _ | .mtwait _ | .mtstat _ | .mwait | .mstat _ | .cpyw _
  | .cpyq _ | .mquery _ _ | .gstat _ _
  | .sete _ _ | .setei _ _ | .gete _ _ | .geteI _ _ | .cAddi _ _ | .cLi _ _ | .cMv _ _ | .cAdd _ _ | .cSub _ _
  | .cAnd _ _ | .cLd _ _ _ | .cSd _ _ _ | .cBeqz _ _ | .cBnez _ _ | .cJ _ | .cNop => true
  | .csrr n _ => n ≠ 0x008
  | .bfetch _ _ | .stop | .cStop => false
  | i => kindOf i = .mt

/-- Where a branch or jump with a fixed offset goes, from its own address. -/
def jumpOff : Instr → Option Word
  | .beq i _ _ | .bne i _ _ | .blt i _ _ | .bge i _ _ | .bltu i _ _ | .bgeu i _ _ => some (offB i)
  | .jal i _ => some (offJ i)
  | .cBeqz _ o | .cBnez _ o => some (offC8 o)
  | .cJ o => some (offC12 o)
  | _ => none

/-- The branches and jumps that a broadcast block may not hold (R84). -/
def isBranch : Instr → Bool
  | .beq _ _ _ | .bne _ _ _ | .blt _ _ _ | .bge _ _ _ | .bltu _ _ _ | .bgeu _ _ _ | .jal _ _ | .jalr _ _ _
  | .cBeqz _ _ | .cBnez _ _ | .cJ _ => true
  | _ => false

/-! ## Debug comparators (R424, R425) -/

/-- DBGCORE (R423). -/
def State.dbgCore (s : State) : Nat := fld (s.reg (pfReg 0x3_8020)) 0 11

/-- Whether a session watches a thread: its context's, outside handler mode, and in single-core mode the selected core's. -/
def State.sessionOn (s : State) (f : Focus) : Bool :=
  s.dbg.isOpen && s.dbg.ctxid = s.ctxOf f.core && !s.inHandler f && !(s.core f.core).pair.partner && (!s.dbg.isLocal || f.core = s.dbgCore)

/-- Whether the thread passes its comparators for one instruction. -/
def State.skipOf (s : State) (f : Focus) : Bool :=
  if f.thr = 0 then (s.cur f.core).skip else ((s.cur f.core).mt (f.thr - 1)).skip

def State.comp (s : State) (c k : Nat) : Comp := SMap.get Comp.off (s.core c).comps k

/-- The breakpoint comparator that matches an instruction (R424). -/
def State.bpHit (s : State) (f : Focus) : Option (Nat × Word) :=
  if s.sessionOn f && !s.skipOf f then
    ((List.range 4).find? (fun k => bit (s.comp f.core k).cfg 0 && (s.comp f.core k).addr = s.pcOf f)).map
      (fun k => (k, s.pcOf f))
  else none

/-- The watchpoint comparator that matches an access of `n` bytes at `va` (R424); `dir` is 0 for a load, 1 for a store, 2
for both. The address is the first byte of the access within the range. -/
def State.watchHit (s : State) (f : Focus) (va n dir : Nat) : Option (Nat × Word) :=
  if s.sessionOn f && !s.skipOf f then
    ((List.range 4).find? (fun j =>
      let k := s.comp f.core (4 + j)
      let z := 2 ^ fld k.cfg 2 6
      let base := k.addr.toNat / z * z
      bit k.cfg 0 && va < base + z && base < va + n &&
        ((dir ≠ 1 && bit k.cfg 8) || (dir ≠ 0 && bit k.cfg 9)))).map
      (fun j =>
        let k := s.comp f.core (4 + j)
        let z := 2 ^ fld k.cfg 2 6
        (4 + j, w64 (max va (k.addr.toNat / z * z))))
  else none

/-- A thread holds at its instruction (R425). -/
def State.hold (s : State) (f : Focus) : State :=
  if f.thr = 0 then s.modCur f.core (fun b => { b with held := true })
  else s.modMt f.core (f.thr - 1) (fun m => { m with held := true })

/-- A stop event (R425): recorded while STATE is RUN, or at the same PTIME as the recorded one on a lower core, the control
thread taking BRK and a micro-thread holding; at any other time the thread only holds. -/
def State.stopEvent (s : State) (f : Focus) (len cause comp : Nat) (addr : Word) : State :=
  let d := s.dbg
  if d.mode = 0 || (d.mode = 1 && !d.vstop && d.since = s.ptime && f.core < d.hitcore) then
    let b := s.cur f.core
    let s1 := { s with dbg := { s.dbg with
      mode := 1, cause := cause, hitcore := f.core, hitthr := f.thr, comp := comp, addr := addr, since := s.ptime, core := f.core,
      tag := b.actTag, slot := b.actSlot, vtime := b.vtime, entry := b.actDesc.entry } }
    if f.thr = 0 then s1.exact f len cBrk addr else s1.hold f
  else s.hold f

/-! ## The prologue -/

/-- Whether a handler that BRK has entered waits for the stop (R425, R431). -/
def State.brkHeld (s : State) (c : Nat) : Bool :=
  s.dbg.mode = 1 && (s.core c).tcause = w64 cBrk && (s.core c).ctx = some s.dbg.ctxid

/-- Whether a thread may execute an instruction: the module runs, no stop holds the core, and the control thread is in
the handler or runs an activation and waits for nothing, or the micro-thread runs (R12, R110, R178, R245, R426, R444). During a
save only a vector store that has begun goes on (R122, R244). -/
def State.canRun (s : State) (f : Focus) : Bool :=
  let k := s.core f.core
  let b := s.cur f.core
  s.powered && !s.freeze && !(s.stopped f.core) && k.ctx.isSome && !(s.dbg.mode = 3 && s.dbg.stepped.contains f.thr && !s.inHandler f) &&
    (if f.thr = 0 then
      (if k.hmode then !s.brkHeld f.core
       else
        (b.st = .bound || b.st = .saving) && b.act.isSome && !b.endWait && !b.held && !b.waits &&
          !(b.loop.any (·.claim)) && !k.pair.partner)
    else
      let m := b.mt (f.thr - 1)
      f.thr ≤ 16 && (b.st = .bound || b.st = .saving) && (!k.saving || m.prog ≠ 0) && (m.run = .broadcast || m.run = .fetched) && !m.held &&
        !m.waits && !k.pair.partner)

/-- Whether the executing thread is of a kind that may run the instruction (R83). -/
def kindLegal (f : Focus) : Kind → Bool
  | .both => true
  | .ct => f.thr = 0
  | .mt => f.thr ≠ 0
  | .dev => false

/-- Whether the registers named are the thread's (R74): w0..w15 on a micro-thread. -/
def regsLegal (f : Focus) (i : Instr) : Bool :=
  f.thr = 0 || ((regUse i).1.all (fun r => r ≤ 15) && (regUse i).2.all (fun r => r ≤ 15))

/-- Whether a broadcast block may hold the instruction (R84). -/
def State.blockLegal (s : State) (f : Focus) (i : Instr) : Bool :=
  !(isBranch i && f.thr ≠ 0 && ((s.cur f.core).mt (f.thr - 1)).run = .broadcast)

/-- Everything that makes an encoding legal where it is executed (R78). -/
def State.legal (s : State) (f : Focus) (i : Instr) : Bool :=
  kindLegal f (kindOf i) && i.wf && regsLegal f i && s.blockLegal f i

/-- Whether an instruction of a control thread may end a pass of its loop with nothing left of its chunk, so that it claims the
next one, or may leave the loop: neither can be taken back (R200, R201). -/
def State.leavesPass (s : State) (f : Focus) (i : Instr) : Bool :=
  f.thr = 0 && (s.cur f.core).loop.any (fun l =>
    let pc := s.pcOf f
    let ends := fun (q : Word) => q = l.target && l.left = 0
    (match i with | .jalr _ _ _ => true | _ => false) || ends (pc + w64 (instrLen i)) ||
      (jumpOff i).any (fun d => ends (pc + d) || (pc + d ≠ l.target && (pc + d < l.body || l.target ≤ pc + d))))

/-- Whether the instruction must wait for an outstanding load of its thread (R93): it reads the register a load will
write, or its effect could not be undone by an exact fault of that load. -/
def State.interlocked (s : State) (f : Focus) (i : Instr) : Bool :=
  let p := if s.inHandler f then [] else s.pendOf f
  !p.isEmpty &&
    (!lightOp i || (regUse i).1.any (fun r => r ≠ 0 && p.any (fun q => q.dst = r)) || s.leavesPass f i ||
     (f.thr ≠ 0 && ((s.cur f.core).mt (f.thr - 1)).run = .broadcast && ((s.cur f.core).mt (f.thr - 1)).block.length ≤ 1))

/-- What the prologue finds. -/
inductive Issue where
  | wait
  | brk (comp : Nat) (addr : Word)
  | illegal
  | go
  deriving DecidableEq, Repr

/-- The prologue of an instruction of the focused thread, in the order of R90: breakpoint, ILLEGAL, interlocks. -/
def issue (i : Instr) (s : State) : Issue :=
  let f := s.focus
  if !s.canRun f then .wait
  else
    match s.bpHit f with
    | some (k, a) => if (s.pendOf f).isEmpty then .brk k a else .wait
    | none =>
      if !s.legal f i then (if (s.pendOf f).isEmpty || s.inHandler f then .illegal else .wait)
      else if s.interlocked f i then .wait
      else .go

/-- An instruction of the focused thread: its own effect where the prologue lets it issue; a wait leaves the state as it
is (R110). -/
def run (i : Instr) (s : State) (eff : Focus → State) : Host.Outcome State Fault Refusal :=
  .next (match issue i s with
    | .wait => s
    | .brk k a => s.stopEvent s.focus (instrLen i) 1 k a
    | .illegal => s.exact s.focus (instrLen i) cIllegal (encodeWord i)
    | .go => eff s.focus)

/-- A step of the device: nothing moves while the module's clocks stand or it has no power (R444, R451). -/
def device (s : State) (t : State) : Host.Outcome State Fault Refusal := .next (if s.powered && !s.freeze then t else s)

end Sys2Proof.Machine
end

