-- ==== Sys2Proof/Machine/Flags.lean ====
section
/-! DEFINITION. What the scalar instructions compute: results, comparisons and counts (R95-R100). The D90 has no flag
register: a comparison's outcome is a register value or a branch. -/
namespace Sys2Proof.Machine

/-- Signed less-than of two registers (R91). -/
def ltS (a b : Word) : Bool := a.toInt < b.toInt

/-- Unsigned less-than of two registers (R91). -/
def ltU (a b : Word) : Bool := a.toNat < b.toNat

/-- A shift amount: bits [5:0] (R95). -/
def shamt (b : Word) : Nat := fld b 0 6

def aluSll (a b : Word) : Word := a <<< shamt b
def aluSrl (a b : Word) : Word := a >>> shamt b
def aluSra (a b : Word) : Word := a.sshiftRight (shamt b)
def aluSlt (a b : Word) : Word := boolW (ltS a b)
def aluSltu (a b : Word) : Word := boolW (ltU a b)

/-- MUL (R98). -/
def mulLow (a b : Word) : Word := wInt (a.toInt * b.toInt)
/-- MULH (R98). -/
def mulHigh (a b : Word) : Word := wInt (a.toInt * b.toInt / 2 ^ 64)
/-- MULHSU (R98). -/
def mulHighSU (a b : Word) : Word := wInt (a.toInt * b.toNat / 2 ^ 64)
/-- MULHU (R98). -/
def mulHighU (a b : Word) : Word := w64 (a.toNat * b.toNat / 2 ^ 64)
/-- DIV (R98): truncates toward zero; all ones for a divisor of zero; −2^63 / −1 wraps to −2^63. -/
def divS (a b : Word) : Word := if b = 0 then 0xFFFF_FFFF_FFFF_FFFF else wInt (a.toInt.tdiv b.toInt)
/-- DIVU (R98). -/
def divU (a b : Word) : Word := if b = 0 then 0xFFFF_FFFF_FFFF_FFFF else w64 (a.toNat / b.toNat)
/-- REM (R98): the sign of the dividend. -/
def remS (a b : Word) : Word := if b = 0 then a else wInt (a.toInt.tmod b.toInt)
/-- REMU (R98). -/
def remU (a b : Word) : Word := if b = 0 then a else w64 (a.toNat % b.toNat)

/-- The number of 0 bits above the highest 1 bit (R99). -/
def clz64 (a : Word) : Nat := if a = 0 then 64 else 63 - Nat.log2 a.toNat

/-- The number of 0 bits below the lowest 1 bit (R99). -/
def ctz64 (a : Word) : Nat := ((List.range 64).find? (fun i => bit a i)).getD 64

/-- The number of 1 bits (R99). -/
def popc64 (a : Word) : Nat := ((List.range 64).filter (fun i => bit a i)).length

/-- The bits in reverse order (R99). -/
def brev64 (a : Word) : Word := (List.range 64).foldl (fun r i => if bit a (63 - i) then setBit r i else r) 0

/-- The upper immediate of LUI and AUIPC (R97). -/
def upperImm (i : BitVec 20) : Word := ((i ++ 0#12) : BitVec 32).signExtend 64

end Sys2Proof.Machine
end

