-- ==== Sys2Proof/Machine/Scalar.lean ====
section
/-! DEFINITION. The scalar arithmetic, logic, multiply, divide, bit, branch, jump and operand-extension instructions and
their 16-bit forms (chapter 05). -/
namespace Sys2Proof.Machine

abbrev Result := Host.Outcome State Fault Refusal

/-- A register-register operation (R91, R95): both sources are read, the result is written, the instruction retires. -/
def regOp (i : Instr) (f : Word → Word → Word) (a b d : Reg) (s : State) : Result :=
  run i s (fun t => s.finish t (instrLen i) d.toNat (f (s.rd t a.toNat) (s.rd t b.toNat)))

/-- A register-immediate operation (R96). -/
def immOp (i : Instr) (f : Word → Word) (a d : Reg) (s : State) : Result :=
  run i s (fun t => s.finish t (instrLen i) d.toNat (f (s.rd t a.toNat)))

/-- A conditional branch (R100): PC + offset when taken, the next instruction otherwise. -/
def branchOp (i : Instr) (p : Word → Word → Bool) (a b : Nat) (off : Word) (s : State) : Result :=
  run i s (fun t =>
    if p (s.rd t a) (s.rd t b) then s.retireTo t (s.pcOf t + off) true else s.retire t (instrLen i))

def execAdd (b a d : Reg) (s : State) : Result := regOp (.add b a d) (· + ·) a b d s
def execSub (b a d : Reg) (s : State) : Result := regOp (.sub b a d) (· - ·) a b d s
def execSll (b a d : Reg) (s : State) : Result := regOp (.sll b a d) aluSll a b d s
def execSlt (b a d : Reg) (s : State) : Result := regOp (.slt b a d) aluSlt a b d s
def execSltu (b a d : Reg) (s : State) : Result := regOp (.sltu b a d) aluSltu a b d s
def execXor (b a d : Reg) (s : State) : Result := regOp (.xor b a d) (· ^^^ ·) a b d s
def execSrl (b a d : Reg) (s : State) : Result := regOp (.srl b a d) aluSrl a b d s
def execSra (b a d : Reg) (s : State) : Result := regOp (.sra b a d) aluSra a b d s
def execAnd (b a d : Reg) (s : State) : Result := regOp (.and b a d) (· &&& ·) a b d s
def execOr (b a d : Reg) (s : State) : Result := regOp (.or b a d) (· ||| ·) a b d s
def execAndn (b a d : Reg) (s : State) : Result := regOp (.andn b a d) (fun x y => x &&& ~~~y) a b d s
def execOrn (b a d : Reg) (s : State) : Result := regOp (.orn b a d) (fun x y => x ||| ~~~y) a b d s
def execXnor (b a d : Reg) (s : State) : Result := regOp (.xnor b a d) (fun x y => ~~~(x ^^^ y)) a b d s

def execAddi (i : BitVec 12) (a d : Reg) (s : State) : Result := immOp (.addi i a d) (· + sext i) a d s
def execSlli (h : BitVec 6) (a d : Reg) (s : State) : Result := immOp (.slli h a d) (· <<< h.toNat) a d s
def execSlti (i : BitVec 12) (a d : Reg) (s : State) : Result := immOp (.slti i a d) (aluSlt · (sext i)) a d s
def execSltiu (i : BitVec 12) (a d : Reg) (s : State) : Result := immOp (.sltiu i a d) (aluSltu · (sext i)) a d s
def execXori (i : BitVec 12) (a d : Reg) (s : State) : Result := immOp (.xori i a d) (· ^^^ sext i) a d s
def execSrli (h : BitVec 6) (a d : Reg) (s : State) : Result := immOp (.srli h a d) (· >>> h.toNat) a d s
def execSrai (h : BitVec 6) (a d : Reg) (s : State) : Result := immOp (.srai h a d) (·.sshiftRight h.toNat) a d s
def execOri (i : BitVec 12) (a d : Reg) (s : State) : Result := immOp (.ori i a d) (· ||| sext i) a d s
def execAndi (i : BitVec 12) (a d : Reg) (s : State) : Result := immOp (.andi i a d) (· &&& sext i) a d s

/-- LUI (R97). -/
def execLui (i : BitVec 20) (d : Reg) (s : State) : Result :=
  run (.lui i d) s (fun t => s.finish t 4 d.toNat (upperImm i))

/-- AUIPC (R97): the PC of the AUIPC itself. -/
def execAuipc (i : BitVec 20) (d : Reg) (s : State) : Result :=
  run (.auipc i d) s (fun t => s.finish t 4 d.toNat (s.pcOf t + upperImm i))

def execMul (b a d : Reg) (s : State) : Result := regOp (.mul b a d) mulLow a b d s
def execMulh (b a d : Reg) (s : State) : Result := regOp (.mulh b a d) mulHigh a b d s
def execMulhsu (b a d : Reg) (s : State) : Result := regOp (.mulhsu b a d) mulHighSU a b d s
def execMulhu (b a d : Reg) (s : State) : Result := regOp (.mulhu b a d) mulHighU a b d s
def execDiv (b a d : Reg) (s : State) : Result := regOp (.div b a d) divS a b d s
def execDivu (b a d : Reg) (s : State) : Result := regOp (.divu b a d) divU a b d s
def execRem (b a d : Reg) (s : State) : Result := regOp (.rem b a d) remS a b d s
def execRemu (b a d : Reg) (s : State) : Result := regOp (.remu b a d) remU a b d s

def execMin (b a d : Reg) (s : State) : Result := regOp (.min b a d) (fun x y => if ltS y x then y else x) a b d s
def execMax (b a d : Reg) (s : State) : Result := regOp (.max b a d) (fun x y => if ltS x y then y else x) a b d s
def execMinu (b a d : Reg) (s : State) : Result := regOp (.minu b a d) (fun x y => if ltU y x then y else x) a b d s
def execMaxu (b a d : Reg) (s : State) : Result := regOp (.maxu b a d) (fun x y => if ltU x y then y else x) a b d s
def execClz (a d : Reg) (s : State) : Result := immOp (.clz a d) (fun x => w64 (clz64 x)) a d s
def execCtz (a d : Reg) (s : State) : Result := immOp (.ctz a d) (fun x => w64 (ctz64 x)) a d s
def execPopc (a d : Reg) (s : State) : Result := immOp (.popc a d) (fun x => w64 (popc64 x)) a d s
def execBrev (a d : Reg) (s : State) : Result := immOp (.brev a d) brev64 a d s

def execBeq (i : BitVec 12) (b a : Reg) (s : State) : Result := branchOp (.beq i b a) (· == ·) a.toNat b.toNat (offB i) s
def execBne (i : BitVec 12) (b a : Reg) (s : State) : Result := branchOp (.bne i b a) (· != ·) a.toNat b.toNat (offB i) s
def execBlt (i : BitVec 12) (b a : Reg) (s : State) : Result := branchOp (.blt i b a) ltS a.toNat b.toNat (offB i) s
def execBge (i : BitVec 12) (b a : Reg) (s : State) : Result :=
  branchOp (.bge i b a) (fun x y => !ltS x y) a.toNat b.toNat (offB i) s
def execBltu (i : BitVec 12) (b a : Reg) (s : State) : Result := branchOp (.bltu i b a) ltU a.toNat b.toNat (offB i) s
def execBgeu (i : BitVec 12) (b a : Reg) (s : State) : Result :=
  branchOp (.bgeu i b a) (fun x y => !ltU x y) a.toNat b.toNat (offB i) s

/-- JAL (R101): the link is PC + 4. -/
def execJal (i : BitVec 20) (d : Reg) (s : State) : Result :=
  run (.jal i d) s (fun t => (s.wr t d.toNat (s.pcOf t + 4)).retireTo t (s.pcOf t + offJ i) true)

/-- JALR (R102): the target is computed from the old value; an odd target is MISALIGN and writes nothing. -/
def execJalr (i : BitVec 12) (a d : Reg) (s : State) : Result :=
  run (.jalr i a d) s (fun t =>
    let target := s.rd t a.toNat + sext i
    if bit target 0 then s.raise t 4 cMisalign target
    else (s.wr t d.toNat (s.pcOf t + 4)).retireTo t target true)

/-- SETE (R104). -/
def execSete (a d : Reg) (s : State) : Result :=
  run (.sete a d) s (fun t => (s.wrE t d.toNat (s.rd t a.toNat)).retire t 4)

/-- SETEI (R104). -/
def execSetei (i : BitVec 12) (d : Reg) (s : State) : Result :=
  run (.setei i d) s (fun t => (s.wrE t d.toNat (sext i)).retire t 4)

/-- GETE of an e-register (R104). -/
def execGete (a d : Reg) (s : State) : Result :=
  run (.gete a d) s (fun t => s.finish t 4 d.toNat (s.rdE t a.toNat))

/-- GETE of an index register (R104): the values the iteration fetcher last wrote. -/
def execGeteI (n : BitVec 2) (d : Reg) (s : State) : Result :=
  run (.geteI n d) s (fun t => s.finish t 4 d.toNat (SMap.get 0 (s.cur t.core).i n.toNat))

/-! ## 16-bit forms (R85, R113) -/

def execCAddi (r : Reg) (i : BitVec 6) (s : State) : Result := immOp (.cAddi r i) (· + sext i) r r s
def execCLi (r : Reg) (i : BitVec 6) (s : State) : Result :=
  run (.cLi r i) s (fun t => s.finish t 2 r.toNat (sext i))
def execCMv (r x : Reg) (s : State) : Result := immOp (.cMv r x) id x r s
def execCAdd (r x : Reg) (s : State) : Result := regOp (.cAdd r x) (· + ·) r x r s
def execCSub (r x : Reg) (s : State) : Result := regOp (.cSub r x) (· - ·) r x r s
def execCAnd (r x : Reg) (s : State) : Result := regOp (.cAnd r x) (· &&& ·) r x r s
def execCBeqz (a : BitVec 3) (o : BitVec 8) (s : State) : Result :=
  branchOp (.cBeqz a o) (· == ·) (8 + a.toNat) 0 (offC8 o) s
def execCBnez (a : BitVec 3) (o : BitVec 8) (s : State) : Result :=
  branchOp (.cBnez a o) (· != ·) (8 + a.toNat) 0 (offC8 o) s
def execCJ (o : BitVec 12) (s : State) : Result :=
  run (.cJ o) s (fun t => s.retireTo t (s.pcOf t + offC12 o) true)
def execCNop (s : State) : Result := run .cNop s (fun t => s.retire t 2)

end Sys2Proof.Machine
end

