-- ==== Sys2Proof/Machine/Access.lean ====
section
/-! DEFINITION. Loads, stores, full-bit loads, atomics, line operations and fences, the steps of the journal, the home
slices and the accesses in flight (chapters 14 and 15). -/
namespace Sys2Proof.Machine

/-! ## Loads (R295) -/

/-- A scalar load has its bytes: CHKI for poison, the register, and the instruction retires (R295, R372). A poisoned value waits
for the earlier loads of its thread, so that CHKI stays as it was should one of them fault (R38). -/
def State.loadDone (s : State) (f : Focus) (len d n : Nat) (signed : Bool) (bs : List Byte) (poison : Bool) : State :=
  if poison && !(s.pendOf f).isEmpty then s
  else (s.chkiIf f.core (if f.thr = 0 then chkCtload else chkMtload) poison).finish f len d (extendLoad signed n (ofLe bs))

/-- Whether a load must hold its thread until it returns, so that what its retirement brings with it waits for it: a claim of
its loop (R200), or the end of its block (R245). -/
def State.loadBlocks (s : State) (f : Focus) (len : Nat) : Bool :=
  if f.thr = 0 then (s.cur f.core).loop.any (fun l => l.left = 0 && s.pcOf f + w64 len = l.target)
  else
    let m := (s.cur f.core).mt (f.thr - 1)
    m.run = .broadcast && m.block.length ≤ 1

/-- A non-posted access leaves the thread. A blocking one retires when it returns; another one retires now (R93). -/
def State.sendLoad (s : State) (f : Focus) (kind : AccKind) (len d n : Nat) (signed blocking : Bool) (va : Word) (x : Xlat) : State :=
  let p : PendLoad := ⟨s.nextAcc, d, n, signed, len, blocking, s.snap f⟩
  let s1 := (((s.countHostRead f x.la).newAcc f kind va x n 0).addPend f p).fillTlb f.core (s.ctxOf f.core) va.toNat
  if blocking then s1.setWaits f true else s1.retire f len

/-- A load whose checks have passed (R288, R289, R291, R308, R310): from the core's journal, its own bank, a leased L1 copy, or
its target; it waits for journal entries that hold some of its bytes, for an earlier read of the same place, and on an SO page
for earlier SO accesses and for the stores themselves. -/
def State.loadGo (s : State) (f : Focus) (len d n : Nat) (signed : Bool) (va : Word) (x : Xlat) : State :=
  let c := f.core
  if x.attr = 0 && s.soBusy f then s.waitHeld f (JEntry.soOf f.thr)
  else if s.readBehind f x.la n then s
  else
    match (s.openJournal c).fromJournal f.thr x.la n with
    | .some => s.waitHeld f (JEntry.holds x.la n)
    | .all bs poison _ => if x.attr = 0 then s.waitHeld f (JEntry.holds x.la n) else s.loadDone f len d n signed bs poison
    | .none =>
      if isOwnBank c x.la then s.loadDone f len d n signed (s.bytesAt x.la n) (s.poisoned x.la n)
      else
        match if x.attr ≠ 0 && isMemory x.la then s.l1Copy c (x.la / 128) else none with
        | some k => s.loadDone f len d n signed ((k.bytes.drop (x.la % 128)).take n) (bit k.poison (x.la % 128 / 16))
        | none => s.sendLoad f .load len d n signed (s.loadBlocks f len) va x

/-- LOAD (R295): MISALIGN, GATE and ACCESS exactly, then a data watchpoint (R90), then the load. -/
def loadOp (i : Instr) (n : Nat) (signed : Bool) (off : Word) (a d : Nat) (s : State) : Result :=
  run i s (fun f =>
    let va := s.rd f a + off
    let len := instrLen i
    if s.inHandler f then
      if va.toNat % n ≠ 0 then s.exact f len cMisalign va
      else s.finish f len d (extendLoad signed n (ofLe (s.hbytes va.toNat n)))
    else
      match s.accessCause f.core (s.ctxOf f.core) va.toNat n n rRead kRead false with
      | some (code, tv) => s.raise f len code tv
      | none =>
        match s.watchHit f va.toNat n 0 with
        | some (k, w) => if (s.pendOf f).isEmpty then s.stopEvent f len 2 k w else s
        | none =>
          match s.look f.core (s.ctxOf f.core) va.toNat with
          | .hit x => s.loadGo f len d n signed va x
          | _ => s)

def execLb (i : BitVec 12) (a d : Reg) (s : State) : Result := loadOp (.lb i a d) 1 true (sext i) a.toNat d.toNat s
def execLh (i : BitVec 12) (a d : Reg) (s : State) : Result := loadOp (.lh i a d) 2 true (sext i) a.toNat d.toNat s
def execLw (i : BitVec 12) (a d : Reg) (s : State) : Result := loadOp (.lw i a d) 4 true (sext i) a.toNat d.toNat s
def execLd (i : BitVec 12) (a d : Reg) (s : State) : Result := loadOp (.ld i a d) 8 true (sext i) a.toNat d.toNat s
def execLbu (i : BitVec 12) (a d : Reg) (s : State) : Result := loadOp (.lbu i a d) 1 false (sext i) a.toNat d.toNat s
def execLhu (i : BitVec 12) (a d : Reg) (s : State) : Result := loadOp (.lhu i a d) 2 false (sext i) a.toNat d.toNat s
def execLwu (i : BitVec 12) (a d : Reg) (s : State) : Result := loadOp (.lwu i a d) 4 false (sext i) a.toNat d.toNat s
def execCLd (o : BitVec 6) (a d : BitVec 3) (s : State) : Result :=
  loadOp (.cLd o a d) 8 true (w64 (8 * o.toNat)) (8 + a.toNat) (8 + d.toNat) s

/-! ## Stores (R296) -/

/-- A store that takes no journal entry because its range is tombstoned goes straight to REFUSED, reason REVOKED, and
PSTR follows (R324), as one of a frame of another world does in an own bank, reason RIGHTS (R395); it waits for the earlier loads of its
thread (R38). -/
def State.refusedStore (s : State) (f : Focus) (reason : Nat) (e : JEntry) : Option State :=
  match if (s.pendOf f).isEmpty then (s.cur f.core).freeEntry else none with
  | none => none
  | some n =>
    (s.postEntry f { e with st := .refused, reason := reason }).map (fun t =>
      t.pendCause (t.ctxOf f.core) f.core pPstr n (w64 n))

/-- A posted store of one piece within a granule: it takes a journal entry, or waits for one (R290). -/
def State.post1 (s : State) (f : Focus) (va : Word) (x : Xlat) (bs : List Byte) (full poison : Bool) (grp : Nat) : Option State :=
  let e : JEntry := { JEntry.free with
    st := .held, va := va, data := bs, size := bs.length, full := full, cls := s.classAt x.la, la := x.la, attr := x.attr,
    node := x.node, poison := poison, grp := grp, probe := grp ≠ 0 }
  ((s.storeL1 f.core x.la bs poison).fillTlb f.core (s.ctxOf f.core) va.toNat).postEntry f e

/-- Whether a store of a core performs at issue (R289): to its own bank, but for a pair's, which waits for its interval (R384). -/
def State.storesAtOnce (s : State) (c la : Nat) : Bool := isOwnBank c la && !(s.core c).pair.folds

/-- A store to a bank of its own core performs at issue (R289, R296). -/
def State.localStore (s : State) (la : Nat) (bs : List Byte) (full poison : Bool) : State :=
  let s1 := s.writeAt la bs
  let s2 := if full then s1.setFull la bs.length true else s1
  if poison then s2.setPoison la else s2

/-- What a paired core folds for a store: address, size, data (R383). -/
def State.foldStore (s : State) (f : Focus) (va : Word) (bs : List Byte) : State :=
  s.fold f (leBytes 8 va.toNat ++ leBytes 1 bs.length ++ bs)

/-- A store whose checks have passed: local, or through the journal; it waits for claims of the matrix engine (R267), for
a journal entry (R290) and, in its own bank, where it performs at once, for the earlier loads of its thread (R38) and on an SO
page for earlier SO accesses (R308). -/
def State.storeGo (s : State) (f : Focus) (len : Nat) (va : Word) (x : Xlat) (bs : List Byte) (full : Bool) : State :=
  if s.claimed f.core x.la bs.length then s
  else if s.storesAtOnce f.core x.la then
    if x.attr = 0 && s.soBusy f then s.waitHeld f (JEntry.soOf f.thr)
    else if !(s.pendOf f).isEmpty then s
    else if s.frameShut (s.ctxOf f.core) x.la then
      match s.refusedStore f 2 { JEntry.free with va := va, data := bs, size := bs.length, full := full } with
      | some t => (t.foldStore f va bs).retire f len
      | none => s.waitHeld f (fun _ => true)
    else ((s.localStore x.la bs full false).foldStore f va bs).retire f len
  else
    match s.post1 f va x bs full false 0 with
    | some t => (t.foldStore f va bs).retire f len
    | none => s.waitHeld f (fun _ => true)

/-- STORE, SWF, SDF (R296). -/
def storeOp (i : Instr) (n : Nat) (full : Bool) (off : Word) (a b : Nat) (s : State) : Result :=
  run i s (fun f =>
    let va := s.rd f a + off
    let bs := leBytes n (s.rd f b).toNat
    let len := instrLen i
    if s.inHandler f then
      if va.toNat % n ≠ 0 then s.exact f len cMisalign va
      else ({ s with hmem := putHandler s.handlerBase s.hmem va.toNat bs }).retire f len
    else
      match s.accessCause f.core (s.ctxOf f.core) va.toNat n n rWrite kWrite true with
      | some (code, tv) => s.raise f len code tv
      | none =>
        match s.look f.core (s.ctxOf f.core) va.toNat with
        | .hit x =>
          if full && !isScratch x.la then s.raise f len cAccess va
          else
            match s.watchHit f va.toNat n 1 with
            | some (k, w) => if (s.pendOf f).isEmpty then s.stopEvent f len 2 k w else s
            | none => s.storeGo f len va x bs full
        | .tomb =>
          match s.refusedStore f 1 { JEntry.free with va := va, data := bs, size := n, full := full } with
          | some t => (t.foldStore f va bs).retire f len
          | none => s.waitHeld f (fun _ => true)
        | .unmapped => s)

def execSb (i : BitVec 12) (b a : Reg) (s : State) : Result := storeOp (.sb i b a) 1 false (sext i) a.toNat b.toNat s
def execSh (i : BitVec 12) (b a : Reg) (s : State) : Result := storeOp (.sh i b a) 2 false (sext i) a.toNat b.toNat s
def execSw (i : BitVec 12) (b a : Reg) (s : State) : Result := storeOp (.sw i b a) 4 false (sext i) a.toNat b.toNat s
def execSd (i : BitVec 12) (b a : Reg) (s : State) : Result := storeOp (.sd i b a) 8 false (sext i) a.toNat b.toNat s
def execSwf (i : BitVec 12) (b a : Reg) (s : State) : Result := storeOp (.swf i b a) 4 true (sext i) a.toNat b.toNat s
def execSdf (i : BitVec 12) (b a : Reg) (s : State) : Result := storeOp (.sdf i b a) 8 true (sext i) a.toNat b.toNat s
def execCSd (o : BitVec 6) (a x : BitVec 3) (s : State) : Result :=
  storeOp (.cSd o a x) 8 false (w64 (8 * o.toNat)) (8 + a.toNat) (8 + x.toNat) s

/-! ## Reads that also write (R297, R298) -/

/-- The exact cause of an access that reads and, when `both`, needs the right to write (R90): GATE, of an atomic for either kind of
passage and of LDFE for a read's (R396), MISALIGN, ACCESS. -/
def State.rwCause (s : State) (c ctx va n : Nat) (both atomic : Bool) : Option (Nat × Word) :=
  if atomic && s.gateRefused c ctx va n kWrite then some (cGate, 0xFFFF_FFFF_FFFF_FFFF)
  else
    match s.accessCause c ctx va n n rRead kRead false with
    | some e => some e
    | none => if both then (s.refusedByte c ctx va n rWrite false).map (fun a => (cAccess, w64 a)) else none

/-! ## Full-bit loads (R297) -/

/-- Whether an access is a full-bit load (R297). -/
def AccKind.isFull : AccKind → Bool
  | .fullLoad _ => true
  | _ => false

/-- Whether a request waits at a bank for a granule's full bit: later ones come behind it (R284, R297). -/
def State.fullQueue (s : State) (g : Nat) : Bool := s.accs.any (fun a => a.la / 16 = g && a.kind.isFull && a.st = .fullWait)

/-- A request of a thread's own core waits at the bank, in arrival order (R284, R297). -/
def State.waitAtBank (s : State) (f : Focus) (clear : Bool) (d n : Nat) (va : Word) (x : Xlat) : State :=
  let t := s.sendLoad f (.fullLoad clear) 4 d n true true va x
  match t.acc? s.nextAcc with
  | some a => t.waitThere a .fullWait
  | none => t

/-- A full-bit load whose checks have passed (R284, R291, R297): LWF and LDF take from the core's journal what it holds of all their
bytes; LWFC and LDFC, and whatever finds only some of its bytes there, wait for the entries (log 95). In the own bank it is served at
once or waits in arrival order; elsewhere the request goes to the bank. -/
def State.fullGo (s : State) (f : Focus) (clear : Bool) (d n : Nat) (va : Word) (x : Xlat) : State :=
  if x.attr = 0 && s.soBusy f then s.waitHeld f (JEntry.soOf f.thr)
  else if s.readBehind f x.la n then s
  else
    match (s.openJournal f.core).fromJournal f.thr x.la n with
    | .some => s.waitHeld f (JEntry.holds x.la n)
    | .all bs poison _ =>
      if !clear && x.attr ≠ 0 then s.loadDone f 4 d n true bs poison else s.waitHeld f (JEntry.holds x.la n)
    | .none =>
      if isOwnBank f.core x.la then
        if SMap.get false s.full (x.la / 16) && !s.fullQueue (x.la / 16) then
          (if clear then s.setFull x.la n false else s).loadDone f 4 d n true (s.bytesAt x.la n) (s.poisoned x.la n)
        else s.waitAtBank f clear d n va x
      else s.sendLoad f (.fullLoad clear) 4 d n true true va x

/-- LWF, LDF, LWFC, LDFC (R297). -/
def fullLoadOp (i : Instr) (n : Nat) (clear : Bool) (off : Word) (a d : Nat) (s : State) : Result :=
  run i s (fun f =>
    let va := s.rd f a + off
    let c := f.core
    let ctx := s.ctxOf c
    if s.inHandler f then s.exact f 4 cAccess va
    else
      match s.rwCause c ctx va.toNat n clear false with
      | some (code, tv) => s.raise f 4 code tv
      | none =>
        match s.look c ctx va.toNat with
        | .hit x =>
          if !isScratch x.la then s.raise f 4 cAccess va
          else
            match s.watchHit f va.toNat n (if clear then 2 else 0) with
            | some (k, w) => if (s.pendOf f).isEmpty then s.stopEvent f 4 2 k w else s
            | none => (if clear then s.afterClose f else id) (s.fullGo f clear d n va x)
        | _ => s)

def execLwf (i : BitVec 12) (a d : Reg) (s : State) : Result := fullLoadOp (.lwf i a d) 4 false (sext i) a.toNat d.toNat s
def execLdf (i : BitVec 12) (a d : Reg) (s : State) : Result := fullLoadOp (.ldf i a d) 8 false (sext i) a.toNat d.toNat s
def execLwfc (i : BitVec 12) (a d : Reg) (s : State) : Result := fullLoadOp (.lwfc i a d) 4 true (sext i) a.toNat d.toNat s
def execLdfc (i : BitVec 12) (a d : Reg) (s : State) : Result := fullLoadOp (.ldfc i a d) 8 true (sext i) a.toNat d.toNat s

/-! ## Scopes and releases (R145, R306, R307, R312) -/

/-- Whether HPOL permits a scope (R145): CORE, GROUP and TENANT always. -/
def State.scopeAllowed (s : State) (c sc : Nat) : Bool := sc ≤ 2 || bit (s.core c).hpol (sc - 3)

/-- The threads whose host writes count as the thread's own: the engines' with the control thread's, since a FENCE with the
engines kind makes them its own (R313). -/
def Bind.owesFlush (b : Bind) (thr : Nat) : Bool := b.flushDue.any (fun p => p.1 = thr || (thr = 0 && 16 < p.1))

/-- Whether a release of a thread at a scope must still wait (R307, R312): a load that has not returned, a live journal
entry when the scope is wider than CORE, at FABRIC and SYSTEM an invalidation of another module's copy that its directory has not
acknowledged, and at SYSTEM a host store not yet behind a flushing read, or an invalidation of a host's copy under way. UO accesses
count when `uo`. -/
def State.releaseWaits (s : State) (f : Focus) (sc : Nat) (uo : Bool) : Bool :=
  !(s.pendOf f).isEmpty ||
  (sc ≠ 0 && (s.cur f.core).journal.any (fun p => p.2.live && p.2.thr = f.thr && (uo || p.2.attr ≠ 2))) ||
  (4 ≤ sc && !s.remoteInv.isEmpty) ||
  (sc = 5 && (!s.hostPort.snooped.isEmpty || (s.cur f.core).owesFlush f.thr))

/-- A flushing read of the host link is due and none is under way (R307). -/
def State.flushNeeded (s : State) (f : Focus) (sc : Nat) : Bool :=
  sc = 5 && (s.cur f.core).owesFlush f.thr &&
    !(s.cur f.core).journal.any (fun p => p.2.live && p.2.thr = f.thr)

/-- Send the flushing read that a SYSTEM release waits for, and hold the thread until it completes (R307). -/
def State.sendFlush (s : State) (f : Focus) : State :=
  (s.newAcc f .flush 0 ⟨0x8000_0000_0000, 0x3F, 1, none, false⟩ 0 0).setWaits f true

/-- Do `t` once a release at a scope has performed; until then wait, sending the flushing read it needs. -/
def State.afterRelease (s : State) (f : Focus) (sc : Nat) (uo : Bool) (t : State) : State :=
  if s.releaseWaits f sc uo then (if s.flushNeeded f sc then s.sendFlush f else s) else t

/-- An acquire at a scope wider than CORE invalidates the core's L1 data copies (R288). -/
def State.acquire (s : State) (f : Focus) (sc : Nat) : State := if sc = 0 then s else s.clearL1 f.core

/-! ## Atomics (R298) -/

/-- The conversions of the size bit and the register operands of an AMO. -/
def amoBytes (z : BitVec 1) : Nat := if z = 0 then 4 else 8

/-- Execute an AMO at a bank or home slice: the old value, the new memory (R298). -/
def State.amoAt (s : State) (la n op : Nat) (b c : Word) : Nat × State :=
  let old := ofLe (s.bytesAt la n)
  let bb := b.toNat % 2 ^ (8 * n)
  let cc := c.toNat % 2 ^ (8 * n)
  (old, if op = 9 && old ≠ cc then s else s.writeAt la (leBytes n (amoResult op n old bb cc)))

/-- AMO (R298): SCOPE, GATE, MISALIGN, ACCESS, ATOMIC in the order of R90; a release first; then the access at its target.
In the own bank it executes at once; elsewhere the thread waits for the old value. -/
def amoOp (i : Instr) (op : Nat) (z : BitVec 1) (r : BitVec 2) (b a : Reg) (sc : BitVec 3) (d : Reg) (s : State) : Result :=
  run i s (fun f =>
    let va := s.rd f a.toNat
    let n := amoBytes z
    let c := f.core
    let ctx := s.ctxOf c
    if s.inHandler f then s.exact f 4 cAccess va
    else if !s.scopeAllowed c sc.toNat then s.exact f 4 cScope (zext sc)
    else
      match s.rwCause c ctx va.toNat n true true with
      | some (code, tv) => s.exact f 4 code tv
      | none =>
        match s.look c ctx va.toNat with
        | .hit x =>
          if isHost x.la && op ≠ 0 && op ≠ 1 && op ≠ 9 then s.exact f 4 cAtomic va
          else
            match s.watchHit f va.toNat n 2 with
            | some (k, w) => s.stopEvent f 4 2 k w
            | none =>
              if (x.attr = 0 && s.soBusy f) || (s.cur c).lineBusy x.la then
                s.waitHeld f (fun e => (x.attr = 0 && e.soOf f.thr) || e.la / 128 = x.la / 128)
              else if s.claimed c x.la n then s
              else
                let e0 := s.rdE f 0
                let bv := s.rd f b.toNat
                let go : State :=
                  if isOwnBank c x.la then
                    let o := s.amoAt x.la n op bv e0
                    let s1 := o.2.chkiIf c chkAmo (s.poisoned x.la n)
                    ((if bit r 0 then s1.acquire f sc.toNat else s1).finish f 4 d.toNat (extendLoad true n o.1))
                  else
                    (s.dropL1 c (x.la / 128)).sendLoad f (.amo (op + 16 * (if bit r 0 then sc.toNat else 0)) bv e0) 4 d.toNat n true
                      true va x
                s.afterClose f (if bit r 1 then s.afterRelease f sc.toNat false go else go)
        | _ => s)

def execAmoadd (z : BitVec 1) (r : BitVec 2) (b a : Reg) (x : BitVec 3) (d : Reg) (s : State) : Result :=
  amoOp (.amoadd z r b a x d) 0 z r b a x d s
def execAmoswap (z : BitVec 1) (r : BitVec 2) (b a : Reg) (x : BitVec 3) (d : Reg) (s : State) : Result :=
  amoOp (.amoswap z r b a x d) 1 z r b a x d s
def execAmoand (z : BitVec 1) (r : BitVec 2) (b a : Reg) (x : BitVec 3) (d : Reg) (s : State) : Result :=
  amoOp (.amoand z r b a x d) 2 z r b a x d s
def execAmoor (z : BitVec 1) (r : BitVec 2) (b a : Reg) (x : BitVec 3) (d : Reg) (s : State) : Result :=
  amoOp (.amoor z r b a x d) 3 z r b a x d s
def execAmoxor (z : BitVec 1) (r : BitVec 2) (b a : Reg) (x : BitVec 3) (d : Reg) (s : State) : Result :=
  amoOp (.amoxor z r b a x d) 4 z r b a x d s
def execAmomin (z : BitVec 1) (r : BitVec 2) (b a : Reg) (x : BitVec 3) (d : Reg) (s : State) : Result :=
  amoOp (.amomin z r b a x d) 5 z r b a x d s
def execAmomax (z : BitVec 1) (r : BitVec 2) (b a : Reg) (x : BitVec 3) (d : Reg) (s : State) : Result :=
  amoOp (.amomax z r b a x d) 6 z r b a x d s
def execAmominu (z : BitVec 1) (r : BitVec 2) (b a : Reg) (x : BitVec 3) (d : Reg) (s : State) : Result :=
  amoOp (.amominu z r b a x d) 7 z r b a x d s
def execAmomaxu (z : BitVec 1) (r : BitVec 2) (b a : Reg) (x : BitVec 3) (d : Reg) (s : State) : Result :=
  amoOp (.amomaxu z r b a x d) 8 z r b a x d s
def execAmocas (z : BitVec 1) (r : BitVec 2) (b a : Reg) (x : BitVec 3) (d : Reg) (s : State) : Result :=
  amoOp (.amocas z r b a x d) 9 z r b a x d s

/-! ## FENCE (R312) -/

/-- Whether every matrix and copy command issued by the core has completed (R312). -/
def Bind.enginesDone (b : Bind) : Bool := b.cmds.all (fun k => k.st = .complete) && b.copies.all (fun k => k.st = .complete)

/-- FENCE (R312). -/
def execFence (x : BitVec 3) (k : BitVec 4) (s : State) : Result :=
  run (.fence x k) s (fun f =>
    let sc := x.toNat
    let uo := bit k 2
    if !s.scopeAllowed f.core sc then s.exact f 4 cScope (zext x)
    else if bit k 3 && f.thr = 0 && !(s.cur f.core).enginesDone then s
    else
      let done := (if bit k 0 || uo then s.acquire f sc else s).retire f 4
      if bit k 1 || uo then s.afterClose f (s.afterRelease f sc uo done) else done)

/-! ## Line operations (R300) -/

/-- The exact cause of a line operation (R90, R300, R370, R396): no bank is asked whether it answers. -/
def State.lineCause (s : State) (c va right : Nat) : Option (Nat × Word) :=
  if s.gateRefused c (s.ctxOf c) va 1 kWrite then some (cGate, 0xFFFF_FFFF_FFFF_FFFF)
  else
    match s.look c (s.ctxOf c) va with
    | .hit x => if bit x.rights right && classOk (s.effClass c) (s.classAt x.la) x.rights then none else some (cAccess, w64 va)
    | .tomb => none
    | .unmapped => some (cAccess, w64 va)

/-- DISCARD, LASTUSE, FLUSHL (R300): checked for their right, without effect on scratch and host addresses, and otherwise
posted through the journal; the issuing core's L1 copy goes first. -/
def lineOp (i : Instr) (op right : Nat) (off : Word) (a : Nat) (s : State) : Result :=
  run i s (fun f =>
    let va := s.rd f a + off
    let line := va &&& ~~~127
    let c := f.core
    if s.inHandler f then s.retire f 4
    else
      match s.lineCause c va.toNat right with
      | some (code, tv) => s.raise f 4 code tv
      | none =>
        match s.watchHit f line.toNat 128 1 with
        | some (k, w) => if (s.pendOf f).isEmpty then s.stopEvent f 4 2 k w else s
        | none =>
          match s.look c (s.ctxOf c) va.toNat with
          | .hit x =>
            if !isMemory x.la then s.retire f 4
            else
              let e : JEntry := { JEntry.free with
                st := .held, va := line, lineOp := op, cls := s.classAt x.la, la := x.la / 128 * 128, attr := x.attr, node := x.node }
              match ((s.dropL1 c (x.la / 128)).fillTlb c (s.ctxOf c) va.toNat).postEntry f e with
              | some t => t.retire f 4
              | none => s.waitHeld f (fun _ => true)
          | .tomb =>
            match s.refusedStore f 1 { JEntry.free with va := line, lineOp := op } with
            | some t => t.retire f 4
            | none => s.waitHeld f (fun _ => true)
          | .unmapped => s)

def execDiscard (i : BitVec 12) (a : Reg) (s : State) : Result := lineOp (.discard i a) 1 rWrite (sext i) a.toNat s
def execLastuse (i : BitVec 12) (a : Reg) (s : State) : Result := lineOp (.lastuse i a) 2 rRead (sext i) a.toNat s
def execFlushl (i : BitVec 12) (a : Reg) (s : State) : Result := lineOp (.flushl i a) 3 rRead (sext i) a.toNat s

/-- How many lines a core's L1 data cache holds (R12). -/
def l1Size : Nat := 512

/-- A full L1 data cache lets the copy go that expires first (log 13). -/
def Core.l1Room (k : Core) (line : Nat) : SMap L1Copy :=
  let m := SMap.del k.l1 line
  if m.length < l1Size then m
  else
    match leastBy (fun (x y : Nat × L1Copy) => x.2.expiry < y.2.expiry) m with
    | some p => SMap.del m p.1
    | none => m

/-- The lease that a home grants a core on a line (R287, R288): the expiry is recorded and the core keeps the copy. -/
def State.leaseTo (s : State) (c line : Nat) : State :=
  let e := s.ptime + fld (s.core c).lease 0 13
  let pz := (List.range 8).foldl (fun (p : BitVec 8) k => if SMap.get false s.poison (line * 8 + k) then setBit p k else p) 0
  let s1 := { s with leases := SMap.set 0 s.leases line (max e (SMap.get 0 s.leases line)) }
  s1.modCore c (fun q => { q with l1 := SMap.put (q.l1Room line) line ⟨s.bytesAt (line * 128) 128, pz, e⟩ })

/-- Whether a write waits at the home of a line (R288). -/
def State.writeWaiting (s : State) (line : Nat) : Bool := s.accs.any (fun a => a.st = .leaseWait && a.la / 128 = line)

/-- PREFETCH (R300): the line of a memory address that the thread may reach is asked for, and the instruction retires; one that
would fault or park does nothing. A watchpoint of loads matches its line (R424; log 110). -/
def execPrefetch (i : BitVec 12) (a : Reg) (s : State) : Result :=
  run (.prefetch i a) s (fun f =>
    let va := s.rd f a.toNat + sext i
    let c := f.core
    match s.watchHit f (va &&& ~~~127).toNat 128 0 with
    | some (k, w) => if (s.pendOf f).isEmpty then s.stopEvent f 4 2 k w else s
    | none =>
    match if s.inHandler f then Look.unmapped else s.look c (s.ctxOf c) va.toNat with
    | .hit x =>
      let ok := isMemory x.la && (isAperture x.la || (s.frame (x.la / 4096)).st = .resident) &&
        classOk (s.effClass c) (s.classAt x.la) x.rights && !s.gateRefused c (s.ctxOf c) va.toNat 1 kRead
      (if ok then s.newAcc f .prefetch va { x with la := x.la / 128 * 128 } 128 0 else s).retire f 4
    | _ => s.retire f 4)

end Sys2Proof.Machine
end

