-- ==== Sys2Proof/Machine/Fetch.lean ====
section
/-! DEFINITION. Fetching an instruction of a thread (R67-R69, R90, R245), and taking an asynchronous trap at a boundary. -/
namespace Sys2Proof.Machine

/-- The passage kind of a fetch: no window holds it (R396). -/
def kFetch : Nat := 3

/-- The logical address of an instruction byte, where the space map gives one. -/
def State.codeLa (s : State) (c : Nat) (va : Nat) : Option Xlat :=
  match s.look c (s.ctxOf c) va with
  | .hit x => some x
  | _ => none

/-- The bytes of an instruction as the running activation sees them (R69): code memory as it stood when the activation
began; of what the device did not know of host and aperture frames then, what came when it first did (log 96). -/
def State.codeByte (s : State) (c la : Nat) : Byte := SMap.get 0 (s.cur c).code la

def State.codeHalf (s : State) (c va : Nat) : Nat :=
  match s.codeLa c va with
  | some x => (s.codeByte c x.la).toNat + 256 * (s.codeByte c (x.la + 1)).toNat
  | none => 0

/-- The exact cause of fetching a halfword (R68, R90, R370, R396); a poisoned one is not executed (R372). -/
def State.fetchCause (s : State) (c va : Nat) : Option (Nat × Word) :=
  if va % 2 = 1 then some (cMisalign, w64 va)
  else if (s.refusedByte c (s.ctxOf c) va 2 rExec false).isSome then some (cAccess, w64 va)
  else if s.gateRefused c (s.ctxOf c) va 2 kFetch then some (cGate, 0xFFFF_FFFF_FFFF_FFFF)
  else if (s.codeLa c va).any (fun x => s.poisoned x.la 2) then some (cAccess, w64 va)
  else none

/-- Whether the fetch of a halfword is an access that must go out (R68): its frame is not resident, or it lies in a host or
aperture frame and the activation has not read it yet. -/
def State.fetchMiss (s : State) (c va : Nat) : Option Xlat :=
  match s.codeLa c va with
  | some x =>
    if (if isMemory x.la && !isAperture x.la then (s.frame (x.la / 4096)).st ≠ .resident
        else !isScratch x.la && !(s.cur c).codeGot.contains x.la && !(s.cur c).codeLines.contains (x.la / 128)) then some x else none
  | none => none

/-- The length of the instruction of a control thread at an address, for the recorded length of a trap (R133). -/
def State.lenAt (s : State) (c : Nat) (pc : Word) : Nat := if s.codeHalf c pc.toNat % 2 = 1 then 4 else 2

def State.committed (s : State) (c : Nat) : Bool := s.committedBy ⟨c, 0⟩

/-- Whether the core may take a pending asynchronous cause now (R90, R122, R140): a bound context, no handler running,
and the control thread at a boundary. -/
def State.canTake (s : State) (c : Nat) : Bool :=
  let k := s.core c
  let b := s.cur c
  s.powered && !s.freeze && !(s.stopped c) && k.ctx.isSome && !k.hmode && (b.st = .bound || b.st = .saving) && !b.held &&
    b.takable ≠ 0 && !s.committed c

/-- Take the first pending asynchronous cause of a core (R140); a pre-emption of a paired core forces a close first
(R387). -/
def State.takeNow (s : State) (c : Nat) : State :=
  let t := s.takeAsync c (fun u => u.lenAt c (u.cur c).pc)
  match (s.cur c).firstAsync with
  | some (_, code, _, _) => if code = cPreempt then s.afterClose ⟨c, 0⟩ t else t
  | none => t

/-- What a turn of a thread finds: a state in which nothing is left to execute, or an instruction and the state that its fetch leaves. -/
inductive Fetched where
  | idle (s : State)
  | instr (s : State) (i : Instr)
  deriving DecidableEq, Repr

/-- The instruction of a 32-bit word or a halfword; a word that nothing assigns is UNASSIGNED_ENCODING (R78). -/
def instrOf (len : Nat) (w : IWord) : Instr :=
  if len = 4 then
    match decode32 w with
    | .ok i => i
    | .error _ => .unassignedEncoding w
  else
    match decode16 (w.setWidth 16) with
    | .ok i => i
    | .error _ => .unassignedEncoding ((w.setWidth 16).setWidth 32)

/-- A fetch that meets a frame that is not resident is an access of its own; the thread waits for it (R68). -/
def State.sendFetch (s : State) (f : Focus) (va : Word) (x : Xlat) : State :=
  ((s.newAcc f .fetch va x 2 0).fillTlb f.core (s.ctxOf f.core) va.toNat).setWaits f true

/-- How many lines the L1 instruction cache holds: 32 KiB (R12). -/
def icacheLines : Nat := 256

/-- A line of code enters the L1 instruction cache, which lets its oldest line go when it is full (R12; log 112). -/
def State.cacheLine (s : State) (c line : Nat) : State :=
  if (s.core c).icache.contains line then s
  else s.modCore c (fun k => { k with icache := (if k.icache.length < icacheLines then k.icache else k.icache.drop 1) ++ [line] })

/-- The fetch of some halfwords passes the instruction cache. -/
def State.cacheCode (s : State) (c : Nat) (vs : List Word) : State :=
  vs.foldl (fun (t : State) v => match t.codeLa c v.toNat with | some x => t.cacheLine c (x.la / 128) | none => t) s

/-- The halfwords that a fetch reads: the one at `pc`, and the next when the first begins a 32-bit instruction. -/
def State.halves (s : State) (c : Nat) (pc : Word) : List Word := if s.lenAt c pc = 4 then [pc, pc + 2] else [pc]

/-- Fetch at a thread's program counter (R67, R68): an instruction breakpoint comes before the causes of the fetch (R90);
a fault waits for the earlier loads of the thread, and its recorded length is 2 when the first halfword
fails (R133); a frame that is not resident makes the thread wait. -/
def State.fetchAt (s : State) (f : Focus) : Fetched :=
  let c := f.core
  let pc := s.pcOf f
  match
    match s.fetchCause c pc.toNat with
    | some e => some (2, e)
    | none => if s.lenAt c pc = 4 then (s.fetchCause c (pc + 2).toNat).map (fun e => (4, e)) else none
  with
  | some (len, code, tv) =>
    match s.bpHit f with
    | some (k, a) => .idle (if (s.pendOf f).isEmpty then s.stopEvent f len 1 k a else s)
    | none => .idle (s.raise f len code tv)
  | none =>
    match (s.halves c pc).filterMap (fun v => (s.fetchMiss c v.toNat).map (fun x => (v, x))) with
    | (v, x) :: _ => .idle (s.sendFetch f v x)
    | [] => .instr (s.cacheCode c (s.halves c pc)) (instrOf (s.lenAt c pc) (BitVec.ofNat 32 (s.codeHalf c pc.toNat + 2 ^ 16 * s.codeHalf c (pc + 2).toNat)))

/-- A byte of the handler's code (R69, R134): what was stored there when the last activation began on the core, else what its memory
reads as where nothing is stored. -/
def State.handlerCode (s : State) (c a : Nat) : Byte := (SMap.find? (s.core c).hcode a).getD (s.handlerBase a)

/-- The handler's instruction in the resident handler region (R134). -/
def State.handlerInstr (s : State) (c : Nat) (pc : Word) : Instr :=
  let w := BitVec.ofNat 32 (ofLe ((List.range 4).map (fun k => s.handlerCode c (pc.toNat + k))))
  instrOf (if w.getLsbD 0 then 4 else 2) w

/-- What a turn of the thread `s.focus` finds: a pending asynchronous cause comes first (R140); a thread that cannot run
does nothing; a broadcast micro-thread takes the next instruction of its block (R245); any other thread fetches. -/
def State.fetch (s : State) : Fetched :=
  let f := s.focus
  if f.thr = 0 && s.canTake f.core then .idle (s.takeNow f.core)
  else if !s.canRun f then .idle s
  else if s.inHandler f then .instr s (s.handlerInstr f.core (s.core f.core).hpc)
  else if f.thr ≠ 0 && ((s.cur f.core).mt (f.thr - 1)).run = .broadcast then
    match ((s.cur f.core).mt (f.thr - 1)).block with
    | (len, w) :: _ => .instr s (instrOf len w)
    | [] => .idle s
  else s.fetchAt f

end Sys2Proof.Machine
end

