-- ==== Sys2Proof/Machine/Queue.lean ====
section
/-! DEFINITION. The queue instructions (R75, R105-R112): QPUT, QGET, QPEEK, QCNT and their 16-bit forms. A handover
orders memory at CORE scope by itself, since every thread of a core reads through its journal (R112). -/
namespace Sys2Proof.Machine

/-- Depths (R75). -/
def q0Depth : Nat := 4
def q1Depth : Nat := 16
def tokenDepth : Nat := 8
def chordDepth : Nat := 2

/-- The ends where QPUT is legal (R105). -/
def putEnd (thr q : Nat) : Bool := if thr = 0 then q = 0 else q = 1 || q = 3 || q = 5

/-- The ends where QGET and QPEEK are legal (R105). -/
def getEnd (thr q : Nat) : Bool := if thr = 0 then q = 1 || q = 2 || q = 3 else q = 0 || q = 2 || q = 4

/-- Where QCNT is legal (R105). -/
def cntEnd (thr q : Nat) : Bool := if thr = 0 then q ≤ 3 else q ≤ 5

/-- The neighbours of a micro-thread on the chord ring (R258). -/
def eastOf (m : Nat) : Nat := (m + 1) % 16
def westOf (m : Nat) : Nat := (m + 15) % 16

/-- The selection of a control thread's QPUT (R106). -/
def State.putSel (s : State) (f : Focus) (b : Nat) : List Nat :=
  let m := fld (s.cur f.core).mtmask 0 16
  let v := fld (s.rd f b) 0 16
  mtList (Nat.land (if b ≠ 0 && v ≠ 0 then v else m) m)

/-- Append a value at a write end when it fits (R106). -/
def State.enqueue (s : State) (f : Focus) (q b : Nat) (v : Word) : Option State :=
  let c := f.core
  let bd := s.cur c
  if f.thr = 0 then
    let sel := s.putSel f b
    if sel.all (fun m => (bd.mt m).q0.length < q0Depth) then
      some (s.modCur c (fun k => sel.foldl (fun k m => k.modMt m (fun t => { t with q0 := t.q0 ++ [v] })) k))
    else none
  else
    let n := f.thr - 1
    if q = 1 then
      if bd.q1.length < q1Depth then some ((s.modCur c (fun k => { k with q1 := k.q1 ++ [(v, n)] })).latch c) else none
    else if q = 3 then
      if (bd.mt n).east.length < chordDepth then some (s.modMt c n (fun t => { t with east := t.east ++ [v] })) else none
    else
      if (bd.mt n).west.length < chordDepth then some (s.modMt c n (fun t => { t with west := t.west ++ [v] })) else none

/-- The entries at a read end, oldest first, with their sender numbers (R75). -/
def State.entries (s : State) (f : Focus) (q : Nat) : List (Word × Nat) :=
  let b := s.cur f.core
  let n := f.thr - 1
  if f.thr = 0 then (if q = 1 then b.q1 else (if q = 2 then b.q2 else b.q3).map (fun v => (v, 0)))
  else (if q = 0 then (b.mt n).q0 else if q = 2 then (b.mt (westOf n)).east else (b.mt (eastOf n)).west).map (fun v => (v, 0))

/-- The poisoned entries of a binding once the oldest that a thread reads from a queue has gone (R364). -/
def Bind.popBad (b : Bind) (thr q : Nat) : Bind :=
  { b with badQ := b.badQ.filterMap (fun e =>
      if e.1 = thr && e.2.1 = q then (if e.2.2 = 0 then none else some (thr, q, e.2.2 - 1)) else some e) }

/-- Whether the oldest entry at a read end delivers poisoned data (R364). -/
def State.headBad (s : State) (f : Focus) (q : Nat) : Bool := (s.cur f.core).badQ.contains (f.thr, q, 0)

/-- Remove the oldest entry at a read end. -/
def State.takeEntry (s : State) (f : Focus) (q : Nat) : State :=
  let c := f.core
  let n := f.thr - 1
  if f.thr = 0 then
    s.modCur c (fun b =>
      if q = 1 then { b with q1 := b.q1.drop 1 } else if q = 2 then { b with q2 := b.q2.drop 1 } else { b with q3 := b.q3.drop 1 })
  else if q = 0 then s.modMt c n (fun t => { t with q0 := t.q0.drop 1 })
  else if q = 2 then s.modMt c (westOf n) (fun t => { t with east := t.east.drop 1 })
  else s.modMt c (eastOf n) (fun t => { t with west := t.west.drop 1 })

def State.dequeue (s : State) (f : Focus) (q : Nat) : State := (s.takeEntry f q).modCur f.core (fun b => b.popBad f.thr q)

/-- The least of a list of numbers, `d` when it is empty. -/
def leastNat (d : Nat) (l : List Nat) : Nat := l.foldl Nat.min d

/-- The count of QCNT (R109). -/
def State.queueCount (s : State) (f : Focus) (q : Nat) : Nat :=
  let b := s.cur f.core
  let n := f.thr - 1
  if f.thr = 0 && q = 0 then
    leastNat q0Depth ((mtList (fld b.mtmask 0 16)).map (fun m => q0Depth - (b.mt m).q0.length))
  else if f.thr ≠ 0 && q = 1 then q1Depth - b.q1.length
  else if f.thr ≠ 0 && q = 3 then chordDepth - (b.mt n).east.length
  else if f.thr ≠ 0 && q = 5 then chordDepth - (b.mt n).west.length
  else (s.entries f q).length

/-- QPUT (R105, R106). -/
def qputOp (i : Instr) (q a b : Nat) (s : State) : Result :=
  run i s (fun f =>
    let len := instrLen i
    if !(putEnd f.thr q) || (b ≠ 0 && f.thr ≠ 0) then s.exact f len cIllegal (encodeWord i)
    else
      match s.enqueue f q b (s.rd f a) with
      | some t => t.retire f len
      | none => s)

/-- QGET (R105, R107). -/
def qgetOp (i : Instr) (q d b : Nat) (s : State) : Result :=
  run i s (fun f =>
    let len := instrLen i
    if !(getEnd f.thr q) || (b ≠ 0 && !(f.thr = 0 && q = 1)) then s.exact f len cIllegal (encodeWord i)
    else
      match s.entries f q with
      | [] => s
      | (v, n) :: _ => ((((s.badRead f (s.headBad f q)).dequeue f q).wr f d v).wr f b (w64 n)).retire f len)

def execQput (b a q : Reg) (s : State) : Result := qputOp (.qput b a q) q.toNat a.toNat b.toNat s

def execCQput (q : BitVec 3) (r : Reg) (s : State) : Result := qputOp (.cQput q r) q.toNat r.toNat 0 s

def execQget (b q d : Reg) (s : State) : Result := qgetOp (.qget b q d) q.toNat d.toNat b.toNat s

def execCQget (q : BitVec 3) (r : Reg) (s : State) : Result := qgetOp (.cQget q r) q.toNat r.toNat 0 s

/-- QPEEK (R105, R108). -/
def execQpeek (q d : Reg) (s : State) : Result :=
  run (.qpeek q d) s (fun f =>
    if !(getEnd f.thr q.toNat) then s.raise f 4 cIllegal (encodeWord (.qpeek q d))
    else
      match s.entries f q.toNat with
      | [] => s
      | (v, _) :: _ => (s.badRead f (s.headBad f q.toNat)).finish f 4 d.toNat v)

/-- QCNT (R105, R109). -/
def execQcnt (q d : Reg) (s : State) : Result :=
  run (.qcnt q d) s (fun f =>
    if !(cntEnd f.thr q.toNat) then s.raise f 4 cIllegal (encodeWord (.qcnt q d))
    else s.finish f 4 d.toNat (w64 (s.queueCount f q.toNat)))

end Sys2Proof.Machine
end

