-- ==== Sys2Proof/Machine/Array.lean ====
section
/-! DEFINITION. The micro-thread array as the control thread commands it (chapter 12). -/
namespace Sys2Proof.Machine

/-- A selection of micro-threads (R249, R253, R255): the low 16 bits, MTMASK when they are zero. -/
def Bind.selection (b : Bind) (x : Word) : Nat := if fld x 0 16 ≠ 0 then fld x 0 16 else fld b.mtmask 0 16

/-! ## BCAST (R249) -/

/-- A halfword of the stream that a control thread executes: the handler's region in handler mode (R69, R134). -/
def State.streamHalf (s : State) (f : Focus) (va : Nat) : Nat :=
  if s.inHandler f then ofLe ((List.range 2).map (fun k => s.handlerCode f.core (va + k))) else s.codeHalf f.core va

/-- What reading a block finds: its instructions with their bytes; a fault; a frame that is not resident. -/
inductive Block where
  | ok (l : List (Nat × IWord))
  | bad (code : Nat) (tval : Word)
  | miss (va : Word) (x : Xlat)
  deriving DecidableEq, Repr

/-- A halfword of a block: readable, at fault, or not resident (R68, R249). -/
def State.blockHalf (s : State) (f : Focus) (va : Nat) (k : Nat → Block) : Block :=
  if s.inHandler f then k (s.streamHalf f va)
  else
    match s.fetchCause f.core va with
    | some (code, tv) => .bad code tv
    | none =>
      match s.fetchMiss f.core va with
      | some x => .miss (w64 va) x
      | none => k (s.streamHalf f va)

/-- Read the `n` instructions from `va` on. -/
def State.readBlock (s : State) (f : Focus) : Nat → Nat → List (Nat × IWord) → Block
  | 0, _, l => .ok l
  | n + 1, va, l =>
    s.blockHalf f va (fun h =>
      if h % 2 = 1 then
        s.blockHalf f (va + 2) (fun g => s.readBlock f n (va + 4) (l ++ [(4, BitVec.ofNat 32 (h + 2 ^ 16 * g))]))
      else s.readBlock f n (va + 2) (l ++ [(2, BitVec.ofNat 32 h)]))

/-- BCAST (R249): the block is read, the selected micro-threads are all STOPPED or in FAULT, and it is delivered to all of
them at once; the control thread goes on behind it. -/
def execBcast (n : BitVec 4) (a : Reg) (s : State) : Result :=
  run (.bcast n a) s (fun f =>
    let c := f.core
    let pc := s.pcOf f
    match s.readBlock f n.toNat (pc + 4).toNat [] with
    | .bad code tv => s.exact f 4 code tv
    | .miss va x => s.sendFetch f va x
    | .ok l =>
      let b := s.cur c
      let sel := (mtList (Nat.land (b.selection (s.rd f a.toNat)) (fld b.mtmask 0 16))).filter (fun m => (b.mt m).run ≠ .fault)
      if sel.any (fun m => (b.mt m).run ≠ .stopped) then s
      else
        (sel.foldl (fun (t : State) m =>
          t.modMt c m (fun q => { q with block := l, pc := pc + 4, run := .broadcast })) s).retire f
          (4 + (l.map (·.1)).sum))

/-! ## BFETCH, STOP (R250, R252) -/

/-- BFETCH (R250). -/
def execBfetch (i : BitVec 12) (a : Reg) (s : State) : Result :=
  run (.bfetch i a) s (fun f =>
    let target := s.rd f a.toNat + sext i
    if bit target 0 then s.exact f 4 cMisalign target
    else (s.modMt f.core (f.thr - 1) (fun m => { m with run := .fetched, block := [] })).retireTo f target true)

/-- STOP and C.STOP (R252). -/
def stopOp (i : Instr) (s : State) : Result :=
  run i s (fun f => (s.retire f (instrLen i)).stopMt f.core (f.thr - 1))

def execStop (s : State) : Result := stopOp .stop s

def execCStop (s : State) : Result := stopOp .cStop s

/-! ## MTWAIT, MTSTAT, MTRST (R253-R255) -/

/-- MTWAIT (R253). -/
def execMtwait (a : Reg) (s : State) : Result :=
  run (.mtwait a) s (fun f =>
    let b := s.cur f.core
    if (mtList (b.selection (s.rd f a.toNat))).all (fun m => (b.mt m).still) then s.retire f 4 else s)

/-- The word of MTSTAT (R254). -/
def Bind.mtstat (b : Bind) : Word :=
  let mask := fun (p : Mt → Bool) => ((List.range 16).map (fun n => b2n (p (b.mt n)) * 2 ^ n)).sum
  let first := (List.range 16).find? (fun n => (b.mt n).run = .fault)
  w64 (mask (fun m => !m.still) + 2 ^ 16 * mask (fun m => m.run = .fetched) + 2 ^ 32 * mask (fun m => m.run = .fault) +
    2 ^ 52 * first.getD 0 + 2 ^ 56 * (match first with | some n => (b.mt n).cause | none => 0))

def execMtstat (d : Reg) (s : State) : Result :=
  run (.mtstat d) s (fun f => s.finish f 4 d.toNat (s.cur f.core).mtstat)

/-- Reset one micro-thread (R255): data bytes and scale columns are kept, tags are cleared, and the chords it reads and
writes are emptied. -/
def Bind.resetMt (b : Bind) (n : Nat) : Bind :=
  let b1 := b.modMt n (fun m =>
    { m with
      w := [], e := [], shape := 0x3F1F, q0 := [], east := [], west := [], pc := 0, run := .stopped, block := [], cause := 0,
      tval := 0, mtf := false, held := false, skip := false, waits := false, pend := [], got := [], prog := 0, grp := 0, halt := false
      v := (List.range 8).foldl (fun v k => SMap.set VReg.zero v k { SMap.get VReg.zero v k with tag := 0 }) m.v })
  let b2 := b1.modMt ((n + 15) % 16) (fun m => { m with east := [] })
  let b3 := b2.modMt ((n + 1) % 16) (fun m => { m with west := [] })
  let emptied := [(n + 1, 0), (n + 1, 2), (n + 1, 4), ((n + 1) % 16 + 1, 2), ((n + 15) % 16 + 1, 4)]
  { b3 with mtflt := clrBit b3.mtflt n, badQ := b3.badQ.filter (fun e => !emptied.contains (e.1, e.2.1)) }

/-- One selected micro-thread at its boundary is reset (R255): what it is blocked in is abandoned, a vector store that has moved
nothing included, and the stores that it has issued perform. -/
def State.resetOne (s : State) (c n : Nat) : State :=
  ((s.dropAccs ⟨c, n + 1⟩).dropVst c n).modCur c (fun b => b.resetMt n)

/-- MTRST (R255): a micro-thread inside an instruction that finishes first stops behind it, and MTRST waits (R244). -/
def execMtrst (a : Reg) (s : State) : Result :=
  run (.mtrst a) s (fun f =>
    let c := f.core
    let sel := mtList ((s.cur c).selection (s.rd f a.toNat))
    if sel.any (fun n => !((s.cur c).mt n).still && s.inPath c n) then
      s.modCur c (fun b => (sel.filter (s.inPath c)).foldl (fun (b : Bind) n => b.modMt n (fun m => { m with halt := true })) b)
    else (sel.foldl (fun (t : State) n => t.resetOne c n) s).retire f 4)

end Sys2Proof.Machine
end

