-- ==== Sys2Proof/Machine/Fabric.lean ====
section
/-! DEFINITION. Skonov ports, their flits and replay buffers, and fabric routes (R410-R414, R422). -/
namespace Sys2Proof.Machine

/-! ## Ports -/

def State.port (s : State) (p : Nat) : Port := SMap.get Port.reset s.ports p

def State.setPort (s : State) (p : Nat) (q : Port) : State := { s with ports := SMap.set Port.reset s.ports p q }

def State.modPort (s : State) (p : Nat) (f : Port → Port) : State := s.setPort p (f (s.port p))

/-- Ports of the module (R410). -/
def portCount : Nat := 12

/-- The most flits that a port holds unacknowledged (R411). -/
def replaySize : Nat := 4095

/-- The ports that are UP, ascending. -/
def State.upPorts (s : State) : List Nat := (List.range portCount).filter (fun p => (s.port p).st = .up)

/-! ## Flits (R410, R411) -/

/-- The fields of a flit. -/
def flitSeq (f : List Byte) : Nat := ofLe (f.take 2) % 4096
def flitType (f : List Byte) : Nat := ofLe (f.take 2) / 4096
def flitAck (f : List Byte) : Nat := ofLe ((f.drop 2).take 2) % 4096
def flitAckv (f : List Byte) : Bool := nbit (ofLe ((f.drop 2).take 2)) 14
def flitSrc (f : List Byte) : Nat := ofLe ((f.drop 4).take 4) / 4096 % 4096
def flitTag (f : List Byte) : Nat := ofLe ((f.drop 8).take 4)

/-- A flit's CRC is good (R363, R410). -/
def flitGood (f : List Byte) : Bool := f.length = 256 && ofLe (f.drop 0xF8) = (crc64 (f.take 0xF8)).toNat

/-- A flit laid out as R410 says: link sequence number, type, acknowledged number, the two modules, the tag, and 236 bytes
of payload. ACKV is set and NAK clear. -/
def mkFlit (seq type ack dst src tag : Nat) (payload : List Byte) : List Byte :=
  let b := leBytes 2 (seq % 4096 + 4096 * type) ++ leBytes 2 (ack % 4096 + 2 ^ 14) ++ leBytes 4 (dst % 4096 + 4096 * (src % 4096)) ++
    leBytes 4 tag ++ ((payload ++ List.replicate 236 0).take 236)
  b ++ leBytes 8 (crc64 b).toNat

/-- The same flit under another port's numbering: its SEQ and ACK, and its CRC, are the port's; the end-to-end tag stays. -/
def Port.renumber (q : Port) (f : List Byte) : List Byte :=
  let b := leBytes 2 (q.nextSeq % 4096 + 4096 * flitType f) ++ leBytes 2 ((q.expect + 4095) % 4096 + 2 ^ 14) ++ (f.drop 4).take 244
  b ++ leBytes 8 (crc64 b).toNat

/-- A flit enters a replay buffer under the next SEQ, and is sent. -/
def Port.send (q : Port) (f : List Byte) : Port :=
  { q with buf := q.buf ++ [q.renumber f], nextSeq := (q.nextSeq + 1) % 4096 }

/-- A port takes flits while it holds fewer than 4095 (R411): the port, and the flits left over. -/
def Port.sendAll : Port → List (List Byte) → Port × List (List Byte)
  | q, [] => (q, [])
  | q, f :: t => if q.buf.length < replaySize then (q.send f).sendAll t else (q, f :: t)

/-- The flits in the buffer of a port that is no longer in use go to the lowest-numbered port that is UP, in order, as many
as it takes (R414). -/
def State.redirect (s : State) (p : Nat) : State :=
  match s.upPorts.head? with
  | none => s
  | some u =>
    let r := (s.port u).sendAll (s.port p).buf
    (s.setPort u r.1).modPort p (fun q => { q with buf := r.2 })

/-- The ports out of use that still hold flits (R414). -/
def State.stranded (s : State) : List Nat :=
  (List.range portCount).filter (fun p => ((s.port p).st = .failed || (s.port p).st = .disabled) && !(s.port p).buf.isEmpty)

/-- Send again what ports out of use still hold. -/
def State.redirectAll (s : State) : State := s.stranded.foldl (fun (t : State) p => t.redirect p) s

/-! ## Fabric routes (R422) -/

/-- An enabled route: RMODULE, RCTXID, RX, RY and RSLOT. -/
structure Route where
  module : Nat
  ctx    : Nat
  x      : Nat
  y      : Nat
  slot   : Nat
  deriving DecidableEq, Repr

/-- The two words of a route, as the route that they name. -/
def routeOf (hi : Word) : Route := ⟨fld hi 0 12, fld hi 12 32, fld hi 44 6, fld hi 50 5, fld hi 55 4⟩

/-- The first enabled route that matches a context, a core and a slot. -/
def State.route? (s : State) (ctx core slot : Nat) : Option Route :=
  (List.find? (fun (p : Nat × Word) => pfReg 0x2_4000 ≤ p.1 && p.1 < pfReg 0x3_4000 && p.1 % 16 = 8 && bit p.2 63 &&
    (let lo := s.reg (p.1 - 8)
     fld lo 0 32 = ctx && fld lo 32 6 = core % 64 && fld lo 38 5 = core / 64 && fld lo 43 4 = slot)) s.regs).map (fun p => routeOf p.2)

/-- The flits that carry a message to a core of a remote context (R410, R422): one for up to 172 bytes of payload, two for more. The remote
context and core travel in the header's reserved bytes (log 20). -/
def messageFlits (ctx x y : Nat) (header payload : List Byte) : List (List Byte) :=
  let bs := header.take 0x22 ++ leBytes 4 ctx ++ leBytes 1 x ++ leBytes 1 y ++ header.drop 0x28 ++ payload
  if bs.length ≤ 236 then [bs] else [bs.take 236, bs.drop 236]

/-- Those of a message that a route diverts. -/
def routedFlits (r : Route) (m : Msg) : List (List Byte) := messageFlits r.ctx r.x r.y { m with dslot := r.slot }.header m.payload

/-! ## Sending (R169, R410, R414, R422) -/

/-- This module's fabric number (R415). -/
def State.moduleNo (s : State) : Nat := fld (s.reg (pfReg 0x1_7000)) 0 12

/-- Whether a function, or the device itself, may send over a port in this period (R169). -/
def State.mayUse (s : State) (fn : Option Nat) (p : Nat) : Bool :=
  match fn with
  | some f => s.fabOk f p
  | none => true

/-- The port that `n` more flits leave by (R411, R414, R169): of those that are UP, have room for all of them and have budget left, the
one that holds the fewest flits, so that traffic spreads over them (log 111). -/
def State.sendPort (s : State) (fn : Option Nat) (n : Nat) : Option Nat :=
  leastBy (fun a b => (s.port a).buf.length < (s.port b).buf.length)
    (s.upPorts.filter (fun p => (s.port p).buf.length + n ≤ replaySize && s.mayUse fn p))

/-- Flits of one TYPE enter the replay buffer of a port, tagged by it; `none` where no port takes them now. -/
def State.sendFlits (s : State) (fn : Option Nat) (type dst : Nat) (fs : List (List Byte)) : Option State :=
  match s.sendPort fn fs.length with
  | none => none
  | some p =>
    let q := s.port p
    let made := fs.zipIdx.map (fun x => mkFlit 0 type 0 dst s.moduleNo ((q.nextTag + x.2) % 2 ^ 32) x.1)
    let t := s.setPort p { (q.sendAll made).1 with nextTag := (q.nextTag + fs.length) % 2 ^ 32 }
    some (match fn with
      | some f => t.spendFab f p fs.length
      | none => t)

/-- A routed message enters the replay buffer of a port that is UP and has room for all of it (R422); `none` where it cannot leave now. -/
def State.sendRouted (s : State) (ctx : Nat) (r : Route) (m : Msg) : Option State :=
  s.sendFlits (some (ctxFn ctx)) 1 r.module (routedFlits r m)

/-- The flits of a queue that leave now, in order; one that no port takes now stays, and does not hold up those behind it. -/
def State.drainOut (s : State) : List FabOut → State
  | [] => s
  | f :: t =>
    match s.sendFlits f.fn f.type f.dst [f.payload] with
    | some u => u.drainOut t
    | none => let u := s.drainOut t; { u with fabOut := f :: u.fabOut }

/-- Every flit that waits for a port and can leave leaves. -/
def State.drainFab (s : State) : State := ({ s with fabOut := [] } : State).drainOut s.fabOut

/-- A memory request, a memory response or a coherence flit (R410) for the module that owns a logical address; what its payload holds
is the fabric's own (log 111). -/
def State.sendFabric (s : State) (fn : Option Nat) (type la : Nat) (nums : List Nat) : State :=
  ({ s with fabOut := s.fabOut ++ [⟨fn, type, fld (s.apertureReg la) 16 12, Config.flitPayload type nums⟩] } : State).drainFab

/-- The acknowledgement-only flit that carries a NAK (R410, R411): ACK names the SEQ that the port expects, ACKV is clear and every other field
is zero (log 111). -/
def nakFlit (expected src : Nat) : List Byte :=
  let b := leBytes 2 (4096 * 6) ++ leBytes 2 (expected % 4096 + 2 ^ 15) ++ leBytes 4 (4096 * (src % 4096)) ++
    List.replicate 240 0
  b ++ leBytes 8 (crc64 b).toNat

/-- The flits whose payloads make up a message that arrives have all been accepted: they are used up; `none` where one is missing. -/
def State.takeFlits (s : State) : List (List Byte) → Option State
  | [] => some s
  | f :: t => if s.fabIn.contains (fitBytes 236 f) then ({ s with fabIn := s.fabIn.erase (fitBytes 236 f) } : State).takeFlits t else none

end Sys2Proof.Machine
end

