-- ==== Sys2Proof/Machine/Gather.lean ====
section
/-! DEFINITION. Reads longer than a register (R232, R309, R355): a vector load or a message payload is read in parts, one
for each page, and is complete when every part has returned. -/
namespace Sys2Proof.Machine

/-- What is known of a part of a read. -/
inductive Part where
  | got (bytes : List Byte) (poison frame : Bool)
  | blocked
  | cut
  | ask (x : Xlat)
  deriving DecidableEq, Repr

def State.setGot (s : State) (f : Focus) (g : List GotPart) : State :=
  if f.thr = 0 then s.modCur f.core (fun b => { b with got := g }) else s.modMt f.core (f.thr - 1) (fun m => { m with got := g })

/-- A part of a read: its first byte, how far it reaches, and how many bytes it takes of each 128, 0 for all (R233, R355). -/
structure RPart where
  va     : Nat
  size   : Nat
  planes : Nat
  deriving DecidableEq, Repr

/-- Whether the bytes at `w`, `gap` after those at `v`, lie on the same page through the same node. -/
def State.samePage (s : State) (c ctx v w gap : Nat) : Bool :=
  v + gap = w &&
  (match s.look c ctx v, s.look c ctx w with
   | .hit x, .hit y => x.la + gap = y.la && x.la / 4096 = y.la / 4096 && x.node = y.node && x.attr = y.attr
   | _, _ => false)

/-- A range as its runs, one for each page (R309, R355). -/
def State.runsOf (s : State) (c ctx va n : Nat) : List (Nat × Nat) :=
  (pieces 32 va n).foldr (fun p l =>
    match l with
    | q :: t => if s.samePage c ctx p.1 q.1 p.2 then (p.1, p.2 + q.2) :: t else p :: l
    | [] => [p]) []

/-- A read of ranges as one part for each page (R355): `planes` is 0 for one range, and the bytes read of each 128 for a plane-major
read. -/
def State.pageParts (s : State) (c ctx planes : Nat) (rs : List (Nat × Nat)) : List RPart :=
  (rs.flatMap (fun r => s.runsOf c ctx r.1 r.2)).foldr (fun r l =>
    if planes = 0 || r.2 ≠ planes then ⟨r.1, r.2, 0⟩ :: l
    else
      match l with
      | q :: t => if q.planes = planes && s.samePage c ctx r.1 q.va 128 then ⟨r.1, 128 + q.size, planes⟩ :: t else ⟨r.1, r.2, planes⟩ :: l
      | [] => [⟨r.1, r.2, planes⟩]) []

/-- What a core's journal gives of some ranges (R291). -/
def Bind.blocksFrom (b : Bind) (thr la : Nat) (bl : List (Nat × Nat)) : FromJournal :=
  let rs := bl.map (fun r => b.fromJournal thr (la + r.1) r.2)
  if rs.all (· = .none) then .none
  else
    match rs.mapM (fun r => match r with | .all bs z fl => Option.some (bs, z, fl) | _ => Option.none) with
    | Option.some l => .all (l.flatMap (·.1)) (l.any (·.2.1)) (l.all (·.2.2))
    | Option.none => .some

/-- The bytes of some ranges in leased copies of a core, with their poison, when it holds every line (R288). -/
def State.l1Blocks (s : State) (c la : Nat) (bl : List (Nat × Nat)) : Option (List Byte × Bool) :=
  ((bl.flatMap (fun r => pieces 128 (la + r.1) r.2)).mapM (fun p =>
    (s.l1Copy c (p.1 / 128)).map (fun k => ((k.bytes.drop (p.1 % 128)).take p.2,
      (pieces 16 (p.1 % 128) p.2).any (fun g => bit k.poison (g.1 / 16)))))).map (fun l => (l.flatMap (·.1), l.any (·.2)))

/-- One part of a read at `base`: returned already, in the core's journal, in its own bank, in leased copies (R288, R291), or
to be asked for; it waits behind an earlier read of the same place (R310), and an own bank that has taken the cut of its node
refuses it (R334). -/
def State.partAt (s : State) (f : Focus) (attr base : Nat) (p : RPart) : Part :=
  match (s.gotOf f).find? (fun g => g.off = p.va - base) with
  | some g => .got g.bytes g.poison g.frame
  | none =>
    let bl := blocksOf p.size p.planes
    match s.look f.core (s.ctxOf f.core) p.va with
    | .hit x =>
      if s.readBehind f x.la p.size then .blocked
      else
        match (s.openJournal f.core).blocksFrom f.thr x.la bl with
        | .some => .blocked
        | .all bs poison _ => if attr = 0 then .blocked else .got bs poison false
        | .none =>
          if isOwnBank f.core x.la then
            (if s.cutAt x.node (s.targetOf x.la) then .cut else .got (s.bytesOf x.la bl) (s.poisonedOf x.la bl) false)
          else
            match if attr ≠ 0 && isMemory x.la then s.l1Blocks f.core x.la bl else none with
            | some k => .got k.1 k.2 false
            | none => .ask { x with attr := attr }
    | _ => .got (List.replicate ((bl.map (·.2)).sum) 0) false false

/-- A read of `n` bytes: complete, with its bytes, their poison and the first address that a FRAME answer stands for; the state in
which the thread waits for the parts that are still missing; or refused at an address. -/
inductive Gather where
  | wait (s : State)
  | bad (va : Word)
  | done (bytes : List Byte) (poison : Bool) (frame : Option Word)
  deriving DecidableEq, Repr

/-- A part is asked for; it counts among the host reads of a micro-thread (R441). -/
def State.askPart (s : State) (f : Focus) (base : Nat) (p : RPart) (x : Xlat) : State :=
  (((if f.thr = 0 then s else s.countHostRead f x.la).newAcc f .vload (w64 p.va) x p.size (p.va - base)).modAcc s.nextAcc
    (fun a => { a with planes := p.planes })).fillTlb f.core (s.ctxOf f.core) p.va

def State.askParts (s : State) (f : Focus) (base : Nat) : List (RPart × Part) → State
  | [] => s
  | (p, .ask x) :: t => (s.askPart f base p x).askParts f base t
  | _ :: t => s.askParts f base t

/-- The thread waits for the journal entries that meet some parts. -/
def State.waitParts (s : State) (f : Focus) (ps : List RPart) : State :=
  s.waitHeld f (fun e => ps.any (fun p => meets e.va.toNat e.size p.va p.size))

/-- A read under SO makes its parts one at a time, in ascending order (R308, R309): what is at hand is read as its turn comes, the next part
that is not is asked for alone. `none` once every part has been read. -/
def State.soParts (f : Focus) (base : Nat) : List RPart → State → State × Option Gather
  | [], s => (s, none)
  | p :: t, s =>
    match s.partAt f 0 base p with
    | .got bs z fr =>
      if (s.gotOf f).any (fun g => g.off = p.va - base) then State.soParts f base t s
      else State.soParts f base t (s.setGot f (s.gotOf f ++ [⟨p.va - base, bs, z, fr, false⟩]))
    | .blocked => (s, some (.wait (s.waitParts f [p])))
    | .cut => (s, some (.bad (w64 p.va)))
    | .ask x => (s, some (.wait ((s.askPart f base p x).setWaits f true)))

/-- A read of several ranges, the first at `base`. A poisoned or FRAME-answered one waits for the earlier loads of its thread, so
that CHKI stays as it was should one of them fault (R38). -/
def State.gatherAll (s : State) (f : Focus) (base planes : Nat) (rs : List (Nat × Nat)) : Gather :=
  let attr := (rs.map (fun r => s.strongest f.core (s.ctxOf f.core) r.1 r.2)).foldl Nat.min 2
  let parts := s.pageParts f.core (s.ctxOf f.core) planes rs
  if attr = 0 && (s.gotOf f).isEmpty && s.soBusy f then .wait (s.waitHeld f (JEntry.soOf f.thr))
  else
    match if attr = 0 then State.soParts f base parts s else (s, none) with
    | (_, some g) => g
    | (s, none) =>
      let ps := parts.map (fun p => (p, s.partAt f attr base p))
      match ps.find? (fun p => p.2 = .cut) with
      | some p => .bad (w64 p.1.va)
      | none =>
        if ps.any (fun p => p.2 = .blocked) then .wait (s.waitParts f ((ps.filter (fun p => p.2 = .blocked)).map (·.1)))
        else if ps.any (fun p => match p.2 with | .ask _ => true | _ => false) then .wait ((s.askParts f base ps).setWaits f true)
        else
          let poison := ps.any (fun p => match p.2 with | .got _ q _ => q | _ => false)
          let frame := (ps.find? (fun p => match p.2 with | .got _ _ r => r | _ => false)).map (fun p => w64 p.1.va)
          if (poison || frame.isSome) && !(s.pendOf f).isEmpty then .wait s
          else .done (ps.flatMap (fun p => match p.2 with | .got b _ _ => b | _ => [])) poison frame

/-- The bytes of a completed read that a FRAME answer stands for (R354): CHKI is set and FRAME becomes pending with the first
address. -/
def State.frameSeen (s : State) (f : Focus) (frame : Option Word) : State :=
  match frame with
  | some va => (s.setChki f.core chkFrame).pendCause (s.ctxOf f.core) f.core pFrame (64 + f.thr) va
  | none => s

/-- A read of `n` bytes at `va`. -/
def State.gather (s : State) (f : Focus) (va n : Nat) : Gather := s.gatherAll f va 0 [(va, n)]

end Sys2Proof.Machine
end

