-- ==== Sys2Proof/Machine/Group.lean ====
section
/-! DEFINITION. Groups (chapter 09): membership, ranks, GRANK, GSIZE, GMEMB. -/
namespace Sys2Proof.Machine

/-- The group of a context; group 0 of a context that was given none is the core alone. -/
def State.group (s : State) (ctx c g : Nat) : Group :=
  (SMap.find? (s.ctx ctx).groups g).getD ⟨[c], c, false, 0, 0, 0, 0⟩

/-- The ids that GMEM lists (R208). -/
def gmemIds (w : Word) : List Nat := ((List.range 4).filter (fun n => bit w (32 + n))).map (fun n => fld w (8 * n) 8)

/-- The core whose place a core takes in groups and barriers: one of a partner column answers as the core that it is paired with (R209,
R379). -/
def State.asCore (s : State) (c : Nat) : Nat :=
  if (s.core c).pair.partner || (s.ctx (s.ctxOf c)).partners.contains c then c - 1 else c

/-- The membership test of a core (R209). A group whose entry is not valid has no members. -/
def State.member (s : State) (c g : Nat) : Bool :=
  g = 0 || ((gmemIds (s.core (s.asCore c)).gmem).contains g && (SMap.find? (s.ctx (s.ctxOf c)).groups g).isSome)

/-- The rank of a member (R207). DESIGN CHOICE (log 119): a core that only a handler's write of GMEM lets pass the membership test, and
that is no member by the table, has rank 0, and its place in a torus is its distance from the origin, no less than 0. -/
def Group.rank (g : Group) (c : Nat) : Nat := (findIdx (fun m => m = c) g.members).getD 0

def Group.size (g : Group) : Nat := g.members.length

/-- The result of GRANK (R212). -/
def Group.rankWord (g : Group) (c : Nat) : Word :=
  w64 (g.rank c + (if g.torus then 2 ^ 16 * (c % 64 - g.tox) + 2 ^ 24 * (c / 64 - g.toy) else 0))

/-- The result of GSIZE (R212). -/
def Group.sizeWord (g : Group) : Word :=
  w64 (g.size + (if g.torus then 2 ^ 16 * g.tw + 2 ^ 24 * g.th else 0) + 2 ^ 32 * g.root)

/-- The result of GMEMB (R212). -/
def Group.memberWord (g : Group) (k : Nat) : Word :=
  match g.members[k]? with
  | some m => w64 (m % 64 + 2 ^ 8 * (m / 64))
  | none => 0xFFFF_FFFF_FFFF_FFFF

/-- A group instruction: GROUP first, then its result (R209, R212). -/
def groupOp (i : Instr) (a d : Reg) (res : Group → Nat → State → Word) (s : State) : Result :=
  run i s (fun f =>
    let g := fld (s.rd f a.toNat) 0 8
    if !(s.member f.core g) then s.raise f 4 cGroup (w64 g)
    else s.finish f 4 d.toNat (res (s.group (s.ctxOf f.core) f.core g) (s.asCore f.core) s))

def execGrank (a d : Reg) (s : State) : Result := groupOp (.grank a d) a d (fun g c _ => g.rankWord c) s

def execGsize (a d : Reg) (s : State) : Result := groupOp (.gsize a d) a d (fun g _ _ => g.sizeWord) s

def execGmemb (b a d : Reg) (s : State) : Result :=
  groupOp (.gmemb b a d) a d (fun g _ t => g.memberWord (t.rd t.focus b.toNat).toNat) s

end Sys2Proof.Machine
end

