-- ==== Sys2Proof/Machine/Kernel.lean ====
section
/-! DEFINITION. Messages, activations and their ends, and the iteration fetcher (chapter 08). -/
namespace Sys2Proof.Machine

/-! ## The outbox and SEND (R189-R191) -/

/-- Places of the outbox (R191). -/
def outboxSize : Nat := 64

/-- A core on the grid that holds a save area of the context (R189, R379). -/
def State.holdsArea (s : State) (ctx x y : Nat) : Bool :=
  onGrid x y && ((s.ctx ctx).cores.contains (coreAddr x y) || (s.ctx ctx).partners.contains (coreAddr x y))

/-- Count a message on an output channel (R189). -/
def Bind.produce (b : Bind) (ch : Nat) : Bind :=
  { b with produced := SMap.set 0 b.produced ch (min (SMap.get 0 b.produced ch + 1) 255) }

/-- The message of a destination word (R182, R189); it has no SEQ yet. -/
def State.formMsg (s : State) (c : Nat) (e : Word) (flags : Nat) (bs : List Byte) : Msg :=
  mkMsg (s.sendStamp c) 0 unnumbered c (s.cur c).actSlot flags (fld e 16 4) (fld e 20 2) (fld e 32 16) bs

/-- The layout of a SENDF payload: format, planes, scaled, row width (R190). -/
structure RowFmt where
  fmt    : Nat
  planes : Nat
  scaled : Bool
  width  : Nat
  deriving DecidableEq, Repr

def rowFmt (e1 : Word) : RowFmt := ⟨fld e1 24 4, fld e1 28 3, bit e1 31, fld e1 56 8 + 1⟩

/-- Bytes of one row, and of one row with its scale byte. -/
def RowFmt.rowBytes (r : RowFmt) : Nat := r.width * fmtBytes r.fmt
def RowFmt.perRow (r : RowFmt) : Nat := r.rowBytes + b2n r.scaled

/-- The columns of a mask that lie in the row (R66, R190). -/
def RowFmt.cols (r : RowFmt) (e2 e3 : Word) : List Nat :=
  (List.range r.width).filter (fun c => if c < 64 then bit e2 c else bit e3 (c - 64))

/-- A SENDF parameter error (R190): the format, the planes (R56), the length, or the size of the outlier payload. DESIGN CHOICE
(log 104): a row of more than 128 columns is one of them. -/
def RowFmt.bad (r : RowFmt) (len : Nat) (e2 e3 : Word) : Bool :=
  !(1 ≤ r.fmt && r.fmt ≤ 9) || 128 < r.width || (if r.fmt = 1 then r.planes = 0 else r.planes ≠ 0) ||
    len % r.perRow ≠ 0 || 256 < 16 + 2 * (len / r.perRow) * (r.cols e2 e3).length

/-- An element of a payload: row, column, after the scale bytes. -/
def RowFmt.elem (r : RowFmt) (rows : Nat) (bs : List Byte) (row c : Nat) : Nat :=
  ofLe ((bs.drop (b2n r.scaled * rows + row * r.rowBytes + c * fmtBytes r.fmt)).take (fmtBytes r.fmt))

/-- A row's scale (R59, R61): a signed byte, a power of two. -/
def RowFmt.scaleOf (r : RowFmt) (bs : List Byte) (row : Nat) : Int :=
  if r.scaled then toSigned 8 (bs.getD row 0).toNat else 0

/-- The main payload: selected columns are zero, NI8 elements 0x80 (R66, R190). -/
def RowFmt.mainPayload (r : RowFmt) (bs : List Byte) (e2 e3 : Word) : List Byte :=
  let rows := bs.length / r.perRow
  bs.take (b2n r.scaled * rows) ++
  (List.range rows).flatMap (fun row => (List.range r.width).flatMap (fun c =>
    if (r.cols e2 e3).contains c then leBytes (fmtBytes r.fmt) (if r.fmt = 1 then 0x80 else 0)
    else leBytes (fmtBytes r.fmt) (r.elem rows bs row c)))

/-- The outlier payload: e2, e3, then the selected columns in BF16, row by row (R66, R190). -/
def RowFmt.outliers (r : RowFmt) (bs : List Byte) (e2 e3 : Word) : List Byte :=
  let rows := bs.length / r.perRow
  leBytes 8 e2.toNat ++ leBytes 8 e3.toNat ++
  (List.range rows).flatMap (fun row => (r.cols e2 e3).flatMap (fun c =>
    leBytes 2 (convertTo 8 0 ((elemValue r.fmt (r.planes + 1) (r.elem rows bs row c)).scale (r.scaleOf bs row)))))

/-- The messages of a SEND (0), SENDG (1) or SENDF (2) enter the outbox and are counted (R189, R190). -/
def State.buffer (s : State) (f : Focus) (kind : Nat) (bs : List Byte) : State :=
  let c := f.core
  let e0 := s.rdE f 0
  let e1 := s.rdE f 1
  if kind = 1 then
    let ds := (s.group (s.ctxOf c) c (fld e0 0 8)).members
    s.modCur c (fun b => { b with outbox := b.outbox ++ [OutItem.msg ds (s.formMsg c e0 4 bs) e0] }.produce (fld e0 22 2))
  else
    let d0 := [coreAddr (fld e0 0 8) (fld e0 8 8)]
    if kind = 0 then
      s.modCur c (fun b => { b with outbox := b.outbox ++ [OutItem.msg d0 (s.formMsg c e0 0 bs) e0] }.produce (fld e0 22 2))
    else
      let r := rowFmt e1
      let d1 := [coreAddr (fld e1 0 8) (fld e1 8 8)]
      let m1 := { s.formMsg c e1 2 (r.outliers bs (s.rdE f 2) (s.rdE f 3)) with tag := fld e1 32 16 }
      s.modCur c (fun b =>
        ({ b with outbox := b.outbox ++
          [OutItem.msg d0 (s.formMsg c e0 0 (r.mainPayload bs (s.rdE f 2) (s.rdE f 3))) e0, OutItem.msg d1 m1 e1]
         }.produce (fld e0 22 2)).produce (fld e1 22 2))

/-- Whether the destinations of a send are at fault: the word that TVAL holds (R189). -/
def State.badDest (s : State) (f : Focus) (kind : Nat) : Option Word :=
  let c := f.core
  let e0 := s.rdE f 0
  let e1 := s.rdE f 1
  let ok := fun (x y : Nat) => s.holdsArea (s.ctxOf c) x y
  if kind = 1 then
    (if (s.group (s.ctxOf c) c (fld e0 0 8)).members.all (fun m => ok (m % 64) (m / 64)) then none else some e0)
  else if !(ok (fld e0 0 8) (fld e0 8 8)) then some e0
  else if kind = 2 && !(ok (fld e1 0 8) (fld e1 8 8)) then some e1
  else none

/-- SEND, SENDG, SENDF (R90, R189, R190, R396): GROUP, GATE, the length, the payload's access, the destinations, the parameters, the room, and then
the payload is read and the messages wait in the outbox. DESIGN CHOICE (log 118): where both hold, the fault of a destination comes
before a parameter error. -/
def sendOp (i : Instr) (kind : Nat) (a b : Reg) (s : State) : Result :=
  run i s (fun f =>
    let c := f.core
    let va := s.rd f a.toNat
    let len := (s.rd f b.toNat).toNat
    let e0 := s.rdE f 0
    if kind = 1 && !(s.member c (fld e0 0 8)) then s.exact f 4 cGroup (w64 (fld e0 0 8))
    else if (s.gotOf f).isEmpty && !s.inHandler f && s.gateRefused c (s.ctxOf c) va.toNat (min len 256) kRead then
      s.exact f 4 cGate 0xFFFF_FFFF_FFFF_FFFF
    else if 256 < len then s.exact f 4 cAccess (va + 256)
    else
      match if (s.gotOf f).isEmpty && !s.inHandler f then s.accessCause c (s.ctxOf c) va.toNat len 1 rRead kRead false else none with
      | some (code, tv) => s.exact f 4 code tv
      | none =>
        match s.badDest f kind with
        | some w => s.exact f 4 cAccess w
        | none =>
          if (kind = 2 && (rowFmt (s.rdE f 1)).bad len (s.rdE f 2) (s.rdE f 3)) ||
             outboxSize < (s.cur c).outbox.length + (if kind = 2 then 2 else 1) then s.exact f 4 cAccess va
          else if s.inHandler f then (s.buffer f kind (s.hbytes va.toNat len)).retire f 4
          else
            match s.gather f va.toNat len with
            | .wait t => t
            | .bad v => (s.setGot f []).exact f 4 cAccess v
            | .done bs poison frame =>
              let s1 := ((s.setGot f []).chkiIf c chkMsg poison).frameSeen f frame
              (s1.buffer f kind bs).retire f 4)

def execSend (b a : Reg) (s : State) : Result := sendOp (.send b a) 0 a b s
def execSendg (b a : Reg) (s : State) : Result := sendOp (.sendg b a) 1 a b s
def execSendf (b a : Reg) (s : State) : Result := sendOp (.sendf b a) 2 a b s

/-! ## Reading the input set (R192) -/

/-- A message of the input set as it is held: channel and place in delivery order. -/
def Bind.inputHeld (b : Bind) (w : Word) : Option Held :=
  match b.act with
  | none => none
  | some a => (((b.inputSet a.slot).filter (fun h => h.msg.dchan = fld w 16 2))[fld w 8 8]?)

def Bind.inputMsg (b : Bind) (w : Word) : Option Msg := (b.inputHeld w).map (·.msg)

/-- Whether the eight bytes at a place of the slot of a message of the input set meet poison (R364, R365). -/
def Bind.inputBad (b : Bind) (w : Word) (off : Nat) : Bool :=
  (b.inputHeld w).any (fun h => h.poison.any (fun g => off < 16 * g + 16 && 16 * g < off + 8))

/-- A read of the input set delivers its value; a poisoned one waits for the earlier loads of its thread, so that CHKI stays as it was
should one of them fault (R38, R364). -/
def State.inputRead (s : State) (f : Focus) (d : Nat) (bad : Bool) (v : Nat) : State :=
  if bad && !(s.pendOf f).isEmpty then s else (s.badRead f bad).finish f 4 d (w64 v)

def execMld (a d : Reg) (s : State) : Result :=
  run (.mld a d) s (fun f =>
    let w := s.rd f a.toNat
    s.inputRead f d.toNat ((s.cur f.core).inputBad w (64 + fld w 0 8)) (match (s.cur f.core).inputMsg w with
      | some m => ofLe ((m.payload.drop (fld w 0 8)).take 8)
      | none => 0))

def execMhdr (a d : Reg) (s : State) : Result :=
  run (.mhdr a d) s (fun f =>
    let w := s.rd f a.toNat
    s.inputRead f d.toNat ((s.cur f.core).inputBad w (8 * fld w 0 3)) (match (s.cur f.core).inputMsg w with
      | some m => ofLe ((m.header.drop (8 * fld w 0 3)).take 8)
      | none => 0))

def execMlen (d : Reg) (s : State) : Result :=
  run (.mlen d) s (fun f =>
    let v := match (s.cur f.core).act with
      | some a => a.trigger.payload.length
      | none => 0
    s.finish f 4 d.toNat (w64 v))

/-! ## END, ENDX and CHECKERR's act on CHKI (R193, R194, R373) -/

/-- Whether every micro-thread is STOPPED or in FAULT. -/
def Bind.arrayStill (b : Bind) : Bool :=
  (List.range 16).all (fun n => (b.mt n).still)

/-- The lowest output channel whose produced count differs from its declared count, as TVAL of RATE (R89, R193). -/
def Bind.rateError (b : Bind) : Option Word :=
  ((List.range 4).find? (fun c => SMap.get 0 b.produced c ≠ b.actDesc.out c)).map
    (fun c => w64 (c + 2 ^ 8 * SMap.get 0 b.produced c + 2 ^ 16 * b.actDesc.out c))

/-- Act on a nonzero CHKI (R373): redeliver, or raise CHK, with a record of type 3 at the limit. -/
def State.actOnChki (s : State) (f : Focus) (len : Nat) : State :=
  let b := s.cur f.core
  let q := b.slot b.actSlot
  if q.desc.repl && q.redlv < 3 then s.endFailed f.core true 3
  else
    (if q.desc.repl then s.relRec (relRecord s.ptime b.vtime (s.ctxOf f.core) 3 b.actSlot f.core q.redlv 0) else s).exact f len cChk b.chki

/-- An END or ENDX retires (R92); the handler goes on behind one of its own (R134). -/
def State.countEnd (s : State) (f : Focus) (len : Nat) : State :=
  if s.inHandler f then s.retire f len else s.countCt f.core

/-- END and C.END (R193): the rates, CHKI, then END retires and the outbox is released. -/
def endOp (i : Instr) (s : State) : Result :=
  run i s (fun f =>
    let c := f.core
    let len := instrLen i
    let b := s.cur c
    if !b.arrayStill then s
    else
      s.afterClose f (
        match b.rateError with
        | some tv => s.exact f len cRate tv
        | none =>
          if b.chki ≠ 0 && s.effClass c ≠ 2 then s.actOnChki f len
          else
            let s1 := ((s.abandonLoop c).countEnd f len).modCur c (fun b =>
              { b with endWait := true })
            if (s.core c).pair.byInstr then s1.unpair c else s1))

def execEndAct (s : State) : Result := endOp .endAct s

def execCEnd (s : State) : Result := endOp .cEnd s

/-- ENDX (R194). -/
def execEndx (s : State) : Result :=
  run .endx s (fun f =>
    let c := f.core
    if !(s.cur c).arrayStill then s
    else
      s.afterClose f ((s.countEnd f 4).endFailed c true 1))

/-- END_OUTBOX_DRAINED (R193): every message has left; the input set is consumed and the slot is free. -/
def execEndOutboxDrained (core : Nat) (s : State) : Result :=
  device s (
    let b := s.cur core
    match b.act with
    | some a =>
      if b.endWait && b.outbox.isEmpty then
        let n := (List.range 4).foldl (fun n c => n + SMap.get 0 b.produced c) 0
        let s1 := (s.trace (s.ctxOf core) core 2 0 0 (w64 n)).chargeInputs core
        (s1.modCur core (fun b => (b.consume a.slot).idle)).unpair core
      else s
    | none => s)

/-! ## Inboxes, delivery and firing (R174-R179, R186, R455) -/

/-- The order of messages of one slot (R186). -/
def Msg.before (a b : Msg) : Bool :=
  a.stamp < b.stamp || (a.stamp = b.stamp && (a.saddr < b.saddr || (a.saddr = b.saddr && a.seq < b.seq)))

/-- Whether a core runs a context now, so that its messages enter the inbox (R116, R128). -/
def State.live (s : State) (ctx c : Nat) : Bool := (s.core c).ctx = some ctx && (s.bind ctx c).st = .bound

/-- Slots of the FIFO-mode banks of a core (R455). -/
def State.inboxSlots (s : State) (c : Nat) : Nat := 204 * ((List.range 16).filter (fun n => s.bankMode c n = 2)).length

/-- The slot that a message takes in the inboxes of a core beside those of `l` (R455): the lowest free one (log 105). -/
def State.freePlace (s : State) (c : Nat) (l : List Held) : Nat :=
  ((((List.range 16).filter (fun n => s.bankMode c n = 2)).flatMap (fun n => (List.range 204).map (fun k => 204 * n + k))).find?
    (fun p => !l.any (fun h => h.place = p))).getD 0

/-- Whether a message for a context on a core has room, with `inflight` more on the way (R128, R130, R455). -/
def State.hasRoom (s : State) (ctx c inflight : Nat) : Bool :=
  if s.live ctx c then (s.bind ctx c).inbox.length + inflight < s.inboxSlots c
  else (s.bind ctx c).msgBuf.length + (s.bind ctx c).netBuf.length + inflight < (s.ctx ctx).bufslots

/-- The granules of a message's slot that arrive poisoned: the payload's, when its outbox entry delivered it so (R364). -/
def Msg.badGranules (m : Msg) : List Nat := if m.poison then (List.range 16).map (· + 4) else []

/-- A message enters the inbox or the message buffer (R128, R150, R436). -/
def State.arrive (s : State) (ctx c : Nat) (m : Msg) : State :=
  if s.live ctx c then
    s.modBind ctx c (fun b => { b with inbox := b.inbox ++ [⟨m, s.ptime, false, s.freePlace c b.inbox, m.badGranules⟩], wfe := true })
  else s.modBind ctx c (fun b => { b with msgBuf := b.msgBuf ++ [⟨m, s.ptime, false, 0, m.badGranules⟩] })

/-- Remove a packet from the Lattice. -/
def State.unpost (s : State) (k : Nat) : State := { s with net := dropAt s.net k }

/-- Packet `k` waits in the message buffer of a binding that does not run now, one slot each, where there is room (R128, R211,
R214). -/
def State.toBuffer (s : State) (k : Nat) (p : Packet) : State :=
  if s.hasRoom p.ctx p.dst 0 then (s.unpost k).modBind p.ctx p.dst (fun b => { b with netBuf := b.netBuf ++ [p] }) else s

/-- Whether a context still exists for the machinery that carries its messages. -/
def State.exists? (s : State) (ctx : Nat) : Bool := (s.ctx ctx).st = .live || (s.ctx ctx).st = .faulted

/-- MESSAGE_ARRIVAL (R422, R455): packet `k` enters an inbox slot or the message buffer, or a Skonov port where a route
diverts it. -/
def execMessageArrival (k : Nat) (s : State) : Result :=
  device s (
    match s.net[k]? with
    | some p =>
      match p.body with
      | .msg m =>
        if !(s.exists? p.ctx) then s.unpost k
        else
          match s.route? p.ctx p.dst m.dslot with
          | some r => ((s.unpost k).sendRouted p.ctx r m).getD s
          | none => if s.hasRoom p.ctx p.dst 0 then (s.unpost k).arrive p.ctx p.dst m else s
      | _ => s
    | none => s)

/-- The earliest message of a list, by the order of delivery. -/
def earliest (l : List Held) : Option Held := leastBy (fun a b => a.msg.before b.msg) l

/-- Move messages from the buffer into the inbox while there is room, earliest first (R128). `fuel` bounds their number. -/
def State.refill (s : State) (c : Nat) : Nat → State
  | 0 => s
  | fuel + 1 =>
    let b := s.cur c
    match earliest b.msgBuf with
    | none => s
    | some h =>
      if b.inbox.length < s.inboxSlots c then
        (s.modCur c (fun b => { b with msgBuf := b.msgBuf.erase h, inbox := b.inbox ++ [{ h with place := s.freePlace c b.inbox }], wfe := true })).refill c fuel
      else s

/-- The message that a slot may deliver now (R177, R186). -/
def Bind.deliverable (b : Bind) (floor k : Nat) : Option Held :=
  let d := (b.slot k).desc
  let held := b.inbox.filter (fun h => h.msg.dslot = k && !h.delivered)
  if (b.slot k).st = .empty then none
  else if d.eager then earliest (held.filter (fun h => b.delivered k h.msg.dchan < d.inc h.msg.dchan))
  else
    match earliest held with
    | some h =>
      if h.msg.stamp ≤ floor + d.lookahead && b.delivered k h.msg.dchan < d.inc h.msg.dchan then some h else none
    | none => none

/-- MESSAGE_DELIVERY (R186): the slot's next message enters its input channel; a completed input set makes the slot READY
(R174). Messages in the buffer move into the inbox first, as room allows. -/
def execMessageDelivery (core slot : Nat) (s : State) : Result :=
  device s (
    if !(s.live (s.ctxOf core) core) then s
    else
      let s0 := s.refill core (s.cur core).msgBuf.length
      match (s0.cur core).deliverable s0.floor slot with
      | none => s0
      | some h =>
        let s1 := s0.modCur core (fun b =>
          let b1 := { b with inbox := b.inbox.erase h ++ [{ h with delivered := true }] }
          if (b1.slot slot).st = .idle && b1.slotMet slot then b1.modSlot slot (fun q => { q with st := .ready }) else b1)
        s1.trace (s.ctxOf core) core 4 0 (w64 (h.msg.saddr + 2 ^ 16 * h.msg.sslot + 2 ^ 24 * h.msg.dchan)) (w64 h.msg.stamp))

/-- ACTSET of a core's bind record (R163). -/
def State.actset (s : State) (c n : Nat) : Bool := nbit (fld (s.slotRec c) 80 16) n

/-- The trigger of a READY slot: the message that completed its input set (R177). -/
def Bind.triggerOf (b : Bind) (k : Nat) : Option Msg := ((b.inputSet k).getLast?).map (·.msg)

/-- The least LOOKAHEAD of the ordered actors resident on a core (R178). -/
def Bind.minAhead (b : Bind) : Nat :=
  ((List.range 16).filter (fun k => (b.slot k).st ≠ .empty && !(b.slot k).desc.eager)).foldl
    (fun n k => min n (b.slot k).desc.lookahead) 65535

/-- The READY slots that may fire, with their triggers (R178); while a debugger stops the device by virtual time, only
those stamped no later (R428). -/
def State.fireable (s : State) (c : Nat) : List (Nat × Msg) :=
  let b := s.cur c
  (List.range 16).filterMap (fun k =>
    let q := b.slot k
    match b.triggerOf k with
    | some m =>
      if q.st = .ready && s.actset c k && (q.desc.eager || m.stamp ≤ s.floor + b.minAhead) &&
          !(s.dbg.vstop && (s.reg (pfReg 0x3_8018)).toNat < m.stamp) then some (k, m) else none
    | none => none)

/-- The slot that fires first: earliest trigger stamp, highest PRIO, lowest number (R178). -/
def State.fireChoice (s : State) (c : Nat) : Option (Nat × Msg) :=
  let pr := fun (k : Nat) => ((s.cur c).slot k).desc.prio
  leastBy (fun (x y : Nat × Msg) => x.2.stamp < y.2.stamp ||
    (x.2.stamp = y.2.stamp && (pr y.1 < pr x.1 || (pr x.1 = pr y.1 && x.1 < y.1)))) (s.fireable c)

/-- The effective class of an actor (R369): the weaker of its own class and MIN is raised to MIN. -/
def effOf (cls kmin : Nat) : Nat := if cls = 3 then 3 else if classRank cls ≤ classRank kmin then cls else kmin

/-- Code memory as the activation sees it from now on (R69): the module's memory, the lines of other modules that its proxies hold, and
host memory as the device knows it. -/
def State.codeNow (s : State) (b : Bind) : Bind :=
  { b with
    code := s.mem, codeGot := [], codeFrames := s.frames.filterMap (fun p => if p.2.st = .resident then some p.1 else none)
    codeHost := s.host, codeLines := s.proxies.filterMap (fun p => if 1 ≤ p.2.st then some p.1 else none) }

/-- Start paired execution on a core and its partner (R379, R386); PAIRSTAT goes on counting tie-breaks and rollbacks. -/
def State.startPair (s : State) (c : Nat) (byInstr : Bool) : State :=
  let p := { PairSt.none with
    mode := .run, interval := 1, step := true, tiebrk := (s.core c).pair.tiebrk, rollb := (s.core c).pair.rollb }
  (s.modCore c (fun k => { k with pair := { p with byInstr := byInstr, ckpt := some (s.cur c).rolled } })).modCore (c + 1)
    (fun k => { k with pair := { p with partner := true } })

/-- Whether the partner of a core is bound with it and runs no activation (R379). -/
def State.partnerFree (s : State) (c : Nat) : Bool := s.live (s.ctxOf c) (c + 1) && (s.cur (c + 1)).act.isNone

/-- ACTOR_FIRE (R178, R179): no activation, handler or asynchronous cause to be taken, and a slot to fire. The core's fetches see what has
been stored to code so far (R69). -/
def execActorFire (core : Nat) (s : State) : Result :=
  device s (
    let ctx := s.ctxOf core
    let k := s.core core
    let b := s.cur core
    if !(s.live ctx core) || k.hmode || s.stopped core || b.act.isSome || b.takable ≠ 0 || bit b.pendBits pPreempt || b.held then s
    else
      match s.fireChoice core with
      | none => s
      | some (n, m) =>
        let q := b.slot n
        let eff := effOf q.desc.cls (fld k.kclass 0 2)
        if eff = 3 && !(s.partnerFree core) then s
        else
          let a : Activation := ⟨n, m.dchan, nbit m.flags 0, m.tag, 0 < q.redlv, s.ptime, eff, m⟩
          let s1 := s.modCur core (fun b =>
            let b1 := { (s.codeNow b).modSlot n (fun q => { q with st := .running }) with
              act := some a, vtime := m.stamp, retired := 0, chki := 0, i := [], pc := q.desc.entry, produced := [],
              hostReads := [], endWait := false, skip := false }
            { b1 with cnt := { b1.cnt with fired := b1.cnt.fired + 1 } })
          let s2 := (s1.trace ctx core 1 0 (w64 (m.saddr + 2 ^ 16 * m.dchan)) (w64 m.sptime)).modCore core (fun k =>
            { k with hcode := s.hmem, icache := [], pair := { k.pair with tiebrk := 0, rollb := 0 } })
          if eff = 3 then s2.startPair core false else s2)

/-! ## NEST, LOOP, NESTQ (R195-R202) -/

/-- The view of a group as a word (R202). -/
def NestView.word (v : NestView) (g : Nat) : Word :=
  w64 (g + 2 ^ 8 * v.left + 2 ^ 44 * v.st + 2 ^ 48 * (v.gen % 2 ^ 16))

/-- The NESTQ register: the active loop's view, or that of the last NEST or LOOP (R202). -/
def Bind.nestReg (b : Bind) : Word :=
  let g := match b.loop with | some l => l.group | none => b.lastNest
  (SMap.get NestView.none b.views g).word g

/-- NEST (R199); a pair closes first (R383). -/
def execNest (b a : Reg) (s : State) : Result :=
  run (.nest b a) s (fun f =>
    let c := f.core
    let g := fld (s.rd f a.toNat) 0 8
    let w := s.rd f b.toNat
    if !(s.member c g) then s.exact f 4 cGroup (w64 g)
    else
      let n := SMap.get 0 (s.cur c).gens g + 1
      let bs := (List.range (fld w 16 2 + 1)).map (fun k => fld (s.rdE f k) 0 16)
      let j : Join := ⟨c, n, bs, max 1 (fld w 0 16), s.vnow c⟩
      let s1 := s.modCur c (fun b =>
        { b with gens := SMap.set 0 b.gens g n, lastNest := g,
                 views := SMap.set NestView.none b.views g ⟨n, 1, 0, false, bs⟩ })
      s.afterClose f ((s1.post ⟨c, s.groupRoot (s.ctxOf c) g, s.ctxOf c, .join g j⟩).retire f 4))

/-- LOOP (R200): it retires once; with a generation joined and not left, the first chunk is claimed with the stamp before
the LOOP, and otherwise control passes to the target. DESIGN CHOICE (log 117): a core that has received an empty grant of the generation has
left it in this sense. -/
def execLoop (i : BitVec 12) (a : Reg) (s : State) : Result :=
  run (.loop i a) s (fun f =>
    let c := f.core
    let g := fld (s.rd f a.toNat) 0 8
    let pc := s.pcOf f
    let target := pc + w64 (2 * i.toNat)
    let v := SMap.get NestView.none (s.cur c).views g
    if (s.cur c).loop.isSome then s.exact f 4 cIllegal (encodeWord (.loop i a))
    else if !(s.member c g) then s.exact f 4 cGroup (w64 g)
    else if v.gen = 0 || v.out then
      (s.modCur c (fun b => { b with lastNest := g, views := SMap.set NestView.none b.views g { v with st := 0, left := 0 } })).retireTo
        f target false
    else
      ((s.modCur c (fun b => { b with lastNest := g })).countCt c).claimChunk c ⟨g, v.gen, pc + 4, target, true, 0, 0, v.bounds⟩ (s.vnow c))

/-- NESTQ (R202). -/
def execNestq (a d : Reg) (s : State) : Result :=
  run (.nestq a d) s (fun f =>
    let g := fld (s.rd f a.toNat) 0 8
    if !(s.member f.core g) then s.raise f 4 cGroup (w64 g)
    else s.finish f 4 d.toNat ((SMap.get NestView.none (s.cur f.core).views g).word g))

/-! ## The nest counter at its root (R196, R197) -/

def Bind.root (b : Bind) (g : Nat) : NestCtr := SMap.get NestCtr.idle b.roots g

def Bind.setRoot (b : Bind) (g : Nat) (n : NestCtr) : Bind := { b with roots := SMap.set NestCtr.idle b.roots g n }

def prod (l : List Nat) : Nat := l.foldl (· * ·) 1

/-- All members have joined: the joins agree or not; an empty nest has nothing left to grant (R196). -/
def NestCtr.settle (n : NestCtr) (size : Nat) : NestCtr :=
  if n.st = .joining && size ≤ n.joins.length then
    match n.joins with
    | [] => n
    | j :: t =>
      if t.all (fun k => k.bounds = j.bounds && k.minch = j.minch) then
        let p := prod j.bounds
        { n with st := if p = 0 then .draining else .granting, total := p, remain := p, bad := false }
      else { n with st := .draining, bad := true, total := 0, remain := 0 }
  else n

/-- A join of the root's next generation starts it, without the members that have left it already; one of the running
generation is recorded, and another is held (R195, R196, R201). -/
def NestCtr.join (n : NestCtr) (j : Join) (size : Nat) : NestCtr :=
  if n.st = .idle && j.gen = n.gen + 1 then
    { NestCtr.idle with st := .joining, gen := j.gen, joins := [j], held := n.held, claims := n.claims,
                        bnd := SMap.put [] j.core (j.stamp + 1), done := (n.gone.filter (fun (q : Nat × Nat) => q.2 = j.gen)).map (fun (q : Nat × Nat) => q.1),
                        gone := n.gone.filter (fun (q : Nat × Nat) => q.2 ≠ j.gen) }.settle size
  else if n.st = .joining && j.gen = n.gen then
    { n with joins := n.joins ++ [j], bnd := SMap.put n.bnd j.core (j.stamp + 1) }.settle size
  else { n with held := n.held ++ [j] }

/-- A member leaves a generation, which the root may not have started yet; its claim of that generation goes (R201). -/
def NestCtr.leave (n : NestCtr) (c gen : Nat) : NestCtr :=
  let n1 := { n with claims := n.claims.filter (fun q => !(q.core = c && q.gen = gen)) }
  if n.gen < gen then { n1 with gone := (c, gen) :: n.gone }
  else if n.gen = gen then { n1 with done := c :: n.done }
  else n1

/-- Take up the joins that were held for the next generation (R195). -/
def NestCtr.takeHeld (n : NestCtr) (size : Nat) : NestCtr :=
  if n.st = .idle then n.held.foldl (fun (m : NestCtr) j => m.join j size) { n with held := [] } else n

/-- DRAINING ends when every member has received an empty grant or has left (R196). -/
def NestCtr.drain (n : NestCtr) (members : List Nat) : NestCtr :=
  if n.st = .draining && members.all (fun m => n.done.contains m) then { n with st := .idle }.takeHeld members.length else n

/-- NEST_JOIN_ARRIVAL (R196); a join waits in the message buffer while the root's binding is out (R211). -/
def execNestJoinArrival (k : Nat) (s : State) : Result :=
  device s (
    match s.net[k]? with
    | some p =>
      match p.body with
      | .join g j =>
        if !(s.exists? p.ctx) then s.unpost k
        else if s.live p.ctx p.dst then
          let gr := s.group p.ctx p.dst g
          (s.unpost k).modBind p.ctx p.dst (fun b => b.setRoot g (((b.root g).join j gr.size).drain gr.members))
        else s.toBuffer k p
      | _ => s
    | none => s)

/-- The chunk that a claim receives: its first index and its length (R197). -/
def NestCtr.chunk (n : NestCtr) (size : Nat) : Nat × Nat :=
  let minch := ((n.joins.head?).map (·.minch)).getD 1
  (n.total - n.remain, min (min n.remain (max minch (ceilDiv n.remain (2 * size)))) (2 ^ 32 - 1))

/-- The claim that may be served: the least by stamp and sender, once no bound of a member without a pending claim lies
below it (R197). -/
def NestCtr.eligible (n : NestCtr) (members : List Nat) : Option Claim :=
  match leastBy (fun (x y : Claim) => x.stamp < y.stamp || (x.stamp = y.stamp && x.core < y.core))
      (n.claims.filter (fun q => q.gen = n.gen)) with
  | none => none
  | some q =>
    if n.st = .draining then some q
    else if n.st = .granting && members.all (fun m =>
        n.done.contains m || n.claims.any (fun x => x.core = m && x.gen = n.gen) || q.stamp ≤ SMap.get 0 n.bnd m) then some q
    else none

/-- Whether a packet is a claim of a group on its way to its root. -/
def Packet.claims (p : Packet) (ctx root g : Nat) : Bool :=
  p.dst = root && p.ctx = ctx && (match p.body with | .claim h _ => h = g | _ => false)

/-- The claims on their way to a root have reached it (R211); one that its member has left behind goes (R201). -/
def State.absorbClaims (s : State) (ctx root g : Nat) : State :=
  let n := (s.bind ctx root).root g
  let qs := (s.net.filter (fun p => p.claims ctx root g)).filterMap (fun p =>
    match p.body with
    | .claim _ q => if (q.gen = n.gen && n.done.contains q.core) || n.gone.contains (q.core, q.gen) then none else some q
    | _ => none)
  ({ s with net := s.net.filter (fun p => !p.claims ctx root g) }).modBind ctx root (fun b =>
    b.setRoot g { n with claims := n.claims ++ qs })

/-- The first claim of a group on the Lattice waits in its root's message buffer (R211). -/
def State.bufferClaim (s : State) (ctx root g : Nat) : State :=
  match findIdx (fun (p : Packet) => p.claims ctx root g) s.net with
  | some k => match s.net[k]? with | some p => s.toBuffer k p | none => s
  | none => s

/-- NEST_CLAIM_SERVE (R197): the root serves one claim with a chunk, or with an empty grant while it drains; the claims for a root
that is out wait in its message buffer (R211). -/
def execNestClaimServe (ctx g : Nat) (s : State) : Result :=
  device s (
    let root := s.groupRoot ctx g
    if !(s.live ctx root) then s.bufferClaim ctx root g
    else
      let s0 := s.absorbClaims ctx root g
      let gr := s0.group ctx root g
      let n := (s0.bind ctx root).root g
      match n.eligible gr.members with
      | none => s0
      | some q =>
        let left := n.claims.erase q
        if n.st = .draining then
          (s0.modBind ctx root (fun b => b.setRoot g ({ n with claims := left, done := q.core :: n.done }.drain gr.members))).post
            ⟨root, q.core, ctx, .grant g n.gen 0 0 n.bad⟩
        else
          let ch := n.chunk gr.size
          let rem := n.remain - ch.2
          (s0.modBind ctx root (fun b => b.setRoot g
            { n with claims := left, remain := rem, st := if rem = 0 then .draining else .granting,
                     bnd := SMap.put n.bnd q.core (q.stamp + ch.2) })).post
            ⟨root, q.core, ctx, .grant g n.gen ch.1 ch.2 false⟩)

/-- LOOP_LEAVE (R201). -/
def execLoopLeave (k : Nat) (s : State) : Result :=
  device s (
    match s.net[k]? with
    | some p =>
      match p.body with
      | .leave g gen =>
        if !(s.exists? p.ctx) then s.unpost k
        else if s.live p.ctx p.dst then
          (s.unpost k).modBind p.ctx p.dst (fun b =>
            b.setRoot g (((b.root g).leave p.src gen).drain (s.group p.ctx p.dst g).members))
        else s.toBuffer k p
      | _ => s
    | none => s)

/-- LOOP_GRANT_ARRIVAL (R200): a chunk is entered at once, or when the handler has returned; an empty grant ends the loop;
a grant that no loop waits for is lost (R201). -/
def execLoopGrantArrival (k : Nat) (s : State) : Result :=
  device s (
    match s.net[k]? with
    | some p =>
      match p.body with
      | .grant g gen f c bad =>
        if !(s.live p.ctx p.dst) then (if s.exists? p.ctx then s else s.unpost k)
        else
          let s0 := s.unpost k
          let b := s0.cur p.dst
          match b.loop with
          | none => s0
          | some l =>
            if !(l.claim && l.group = g && l.gen = gen) then s0
            else if c = 0 then
              s0.modCur p.dst (fun b =>
                { b with loop := none, views := b.showLoop l (fun v => { v with st := if bad then 5 else 3, left := 0, out := true }) })
            else
              let l1 := { l with claim := false, next := f, left := c }
              if (s.core p.dst).hmode then
                s0.modCur p.dst (fun b => { b with loop := some l1, views := b.showLoop l (fun v => { v with st := 2, left := c }) })
              else s0.enterBody p.dst l1
      | _ => s
    | none => s)

end Sys2Proof.Machine
end

