-- ==== Sys2Proof/Machine/Barrier.lean ====
section
/-! DEFINITION. Barriers (chapter 10): the entries of a member, the combining at the root, and the notices. -/
namespace Sys2Proof.Machine

/-- The states of a barrier entry (R213). -/
def bIdle : Nat := 0
def bArmed : Nat := 1
def bArrived : Nat := 2
def bDone : Nat := 3
def bAborted : Nat := 4
def bMismatch : Nat := 5

/-- Arm an IDLE entry for its next generation (R214): an outcome recorded for that generation ends it at once. -/
def BarEntry.arm (e : BarEntry) (g op scope : Nat) : BarEntry :=
  let gen := (e.gen + 1) % 2 ^ 16
  let n := { e with gen := gen, group := g, op := op, scope := scope, count := 0, early := SMap.del e.early gen }
  match SMap.find? e.early gen with
  | some k => { n with st := k, value := 0 }
  | none => { n with st := bArmed }

/-- A notice meets an entry (R214): one of a generation that the member has still to arm is recorded for it (R216). -/
def BarEntry.note (e : BarEntry) (n : BarNote) : BarEntry :=
  let ahead := (n.gen + 2 ^ 16 - e.gen) % 2 ^ 16
  if n.gen = e.gen && e.st = bArrived && n.st = bDone then { e with st := bDone, value := n.value }
  else if n.gen = e.gen && (e.st = bArmed || e.st = bArrived) && n.st ≠ bDone then { e with st := n.st, value := 0 }
  else if 0 < ahead && ahead < 2 ^ 15 && n.st ≠ bDone then { e with early := SMap.put e.early n.gen n.st }
  else e

/-- One combining step (R217). -/
def barFold (op : Nat) (acc v : Word) : Word :=
  match op with
  | 0 => acc + v
  | 1 => if acc.toInt ≤ v.toInt then acc else v
  | 2 => if v.toInt ≤ acc.toInt then acc else v
  | 3 => acc &&& v
  | _ => acc ||| v

/-- BARM (R214, R219, R222). -/
def execBarm (x o : BitVec 3) (b a : Reg) (s : State) : Result :=
  run (.barm x o b a) s (fun f =>
    let c := f.core
    let id := fld (s.rd f a.toNat) 0 8
    let g := fld (s.rd f b.toNat) 0 8
    let e := (s.cur c).bar id
    let same := e.st = bArmed && e.group = g && e.op = o.toNat && e.scope = x.toNat
    if e.st ≠ bIdle && !same then s.exact f 4 cIllegal (encodeWord (.barm x o b a))
    else if !(s.member c g) then s.exact f 4 cGroup (w64 g)
    else if !(s.scopeAllowed c x.toNat) then s.exact f 4 cScope (zext x)
    else if same then s.retire f 4
    else (s.modCur c (fun q => q.setBar id (e.arm g o.toNat x.toNat))).retire f 4)

/-- The micro-threads of a core that have stopped, in FAULT or not (R218, R220). -/
def State.isStopped (s : State) (c thr : Nat) : Bool :=
  thr ≠ 0 && thr ≤ 16 && ((s.cur c).mt (thr - 1)).still

/-- Whether BARV must still wait (R218): besides the control thread's own accesses, for the stores of every micro-thread
that has stopped. -/
def State.stoppedWaits (s : State) (c scope : Nat) : Bool :=
  scope ≠ 0 && (s.cur c).journal.any (fun p => p.2.live && s.isStopped c p.2.thr)

/-- Whether host stores of the stopped micro-threads have still to be followed by a flushing read (R218, R307). -/
def State.stoppedOwe (s : State) (c scope : Nat) : Bool := scope = 5 && (s.cur c).flushDue.any (fun p => s.isStopped c p.1)

/-- BARV (R214, R218, R222); a pair closes first (R219, R383). -/
def execBarv (b a : Reg) (s : State) : Result :=
  run (.barv b a) s (fun f =>
    let c := f.core
    let id := fld (s.rd f a.toNat) 0 8
    let e := (s.cur c).bar id
    if e.st ≠ bArmed then s.exact f 4 cIllegal (encodeWord (.barv b a))
    else
      let m : BarMsg := ⟨id, e.group, e.gen, e.op, e.scope, s.rd f b.toNat, false, s.asCore c⟩
      s.afterClose f (
        if s.stoppedWaits c e.scope then s
        else if s.stoppedOwe c e.scope then s.sendFlush f
        else
          s.afterRelease f e.scope true
            (((s.modCur c (fun q => q.setBar id { e with st := bArrived })).post
              ⟨c, s.groupRoot (s.ctxOf c) e.group, s.ctxOf c, .bar m⟩).retire f 4)))

/-- BARW (R213, R214, R218, R222): no generation is current in an IDLE entry, so COUNT reads 0. -/
def execBarw (a d : Reg) (s : State) : Result :=
  run (.barw a d) s (fun f =>
    let c := f.core
    let id := fld (s.rd f a.toNat) 0 8
    let e := (s.cur c).bar id
    if e.st = bIdle || e.st = bArmed then s.exact f 4 cIllegal (encodeWord (.barw a d))
    else if e.st = bArrived then s
    else
      let s1 := if e.st = bDone then s.acquire f e.scope else s
      (s1.modCur c (fun q => q.setBar id { e with st := bIdle, last := e.st - bDone, count := 0 })).finish f 4 d.toNat e.value)

/-- BARX (R214, R222). -/
def execBarx (a : Reg) (s : State) : Result :=
  run (.barx a) s (fun f =>
    let c := f.core
    let id := fld (s.rd f a.toNat) 0 8
    let e := (s.cur c).bar id
    let m : BarMsg := ⟨id, e.group, e.gen, e.op, e.scope, 0, true, s.asCore c⟩
    (if e.st = bArmed || e.st = bArrived then
      s.post ⟨c, s.groupRoot (s.ctxOf c) e.group, s.ctxOf c, .bar m⟩
    else s).retire f 4)

/-- BARQ (R213, R222). -/
def execBarq (a d : Reg) (s : State) : Result :=
  run (.barq a d) s (fun f => s.finish f 4 d.toNat ((s.cur f.core).bar (fld (s.rd f a.toNat) 0 8)).word)

/-! ## The root (R215-R217) -/

/-- Whether a barrier message meets the root's entry while its generation runs there. -/
def BarEntry.takes (e : BarEntry) (m : BarMsg) : Bool :=
  (e.st = bArmed || e.st = bArrived) && e.group = m.group && e.gen = m.gen

/-- Whether a message belongs to a generation that has ended at the root (R216): the entry has gone past it, against whichever
group it was armed since, or no longer stands in it. -/
def BarEntry.ended (e : BarEntry) (m : BarMsg) : Bool :=
  let past := (e.gen + 2 ^ 16 - m.gen) % 2 ^ 16
  past < 2 ^ 15 && (past ≠ 0 || !(e.st = bArmed || e.st = bArrived))

/-- A notice reaches a member's entry; the latch is set when it leaves ARMED or ARRIVED (R150, R214). -/
def State.takeNote (s : State) (ctx c : Nat) (n : BarNote) : State :=
  let e := (s.bind ctx c).bar n.id
  let e1 := e.note n
  s.modBind ctx c (fun b => { b.setBar n.id e1 with wfe := b.wfe || e1.st ≠ e.st })

/-- The members of a group that a barrier counts (R219): a core and its partner are one. -/
def State.barMembers (s : State) (ctx root g : Nat) : List Nat :=
  let ms := (s.group ctx root g).members
  ms.filter (fun c => !((s.ctx ctx).partners.contains c && ms.contains (c - 1)))

/-- Every member of the group receives a notice; the root takes its own at once (R216). -/
def State.notifyAll (s : State) (ctx root g : Nat) (n : BarNote) : State :=
  (s.barMembers ctx root g).foldl (fun (t : State) c =>
    if c = root then t.takeNote ctx c n else t.post ⟨root, c, ctx, .note n⟩) s

/-- The root combines an arrival, or ends the generation (R216, R217). -/
def State.combine (s : State) (ctx root : Nat) (m : BarMsg) : State :=
  let e := (s.bind ctx root).bar m.id
  if m.abort then s.notifyAll ctx root m.group ⟨m.id, m.gen, bAborted, 0⟩
  else if m.op ≠ e.op || m.scope ≠ e.scope then s.notifyAll ctx root m.group ⟨m.id, m.gen, bMismatch, 0⟩
  else
    let v := if e.count = 0 then m.value else barFold e.op e.value m.value
    let s1 := s.modBind ctx root (fun b => b.setBar m.id { e with value := v, count := e.count + 1 })
    if (s.barMembers ctx root m.group).length ≤ e.count + 1 then s1.notifyAll ctx root m.group ⟨m.id, m.gen, bDone, v⟩ else s1

/-- Whether the arming of a root's entry still stands in an interval of a pair that has not agreed (R384). -/
def State.armUnsure (s : State) (root id : Nat) : Bool :=
  (s.core root).pair.ckpt.any (fun k => (k.bar id).gen ≠ ((s.cur root).bar id).gen)

/-- A barrier message at its root (R215, R216): it waits until the root's entry is armed for its generation, and in the message
buffer while the root is out (R128). -/
def State.barMessage (s : State) (k : Nat) (abort : Bool) : State :=
  match s.net[k]? with
  | some p =>
    match p.body with
    | .bar m =>
      if m.abort ≠ abort then s
      else if !(s.exists? p.ctx) then s.unpost k
      else if !(s.live p.ctx p.dst) then s.toBuffer k p
      else
        let e := (s.bind p.ctx p.dst).bar m.id
        if e.ended m then s.unpost k
        else if e.takes m && !s.armUnsure p.dst m.id then (s.unpost k).combine p.ctx p.dst m
        else s
    | _ => s
  | none => s

/-- BARRIER_ARRIVAL (R216). -/
def execBarrierArrival (k : Nat) (s : State) : Result := device s (s.barMessage k false)

/-- BARRIER_ABORT (R216). -/
def execBarrierAbort (k : Nat) (s : State) : Result := device s (s.barMessage k true)

/-- BARRIER_NOTICE (R214): applied to a bound context, kept in the message buffer for its restore otherwise. -/
def execBarrierNotice (k : Nat) (s : State) : Result :=
  device s (
    match s.net[k]? with
    | some p =>
      match p.body with
      | .note n =>
        if !(s.exists? p.ctx) then s.unpost k
        else if s.live p.ctx p.dst then (s.unpost k).takeNote p.ctx p.dst n
        else s.toBuffer k p
      | _ => s
    | none => s)

end Sys2Proof.Machine
end

