-- ==== Sys2Proof/Machine/Journal.lean ====
section
/-! DEFINITION. What the device does with accesses that have left their threads: the posted-store journal, targets, leases,
and the completions of posted accesses (R288-R294, R307, R355). -/
namespace Sys2Proof.Machine

/-! ## Sending (R290, R291, R308) -/

/-- Whether an earlier live entry of the binding must end before entry `e` may leave: one for its line or granule (R291),
one of its thread on an SO page when it is SO (R308), one of its thread for its bank when it sets full bits (R311). -/
def JEntry.behind (e q : JEntry) : Bool :=
  q.live && q.seq < e.seq &&
    ((if isScratch e.la then q.la / 16 = e.la / 16 else q.la / 128 = e.la / 128) ||
     (e.attr = 0 && q.attr = 0 && q.thr = e.thr) ||
     (e.full && q.thr = e.thr && isScratch q.la && q.la / 2 ^ 17 = e.la / 2 ^ 17))

/-- Whether a HELD entry may leave (R290, R308, R355); one posted behind a load that has not returned stays (R38, R93). -/
def State.maySend (s : State) (ctx c n : Nat) : Bool :=
  let b := s.bind ctx c
  let e := b.entry n
  e.st = .held && e.ival = 0 && !b.unsure e && !(b.journal.any (fun p => e.behind p.2)) &&
    (!e.probe || (s.probesOf ctx c e.grp).all (fun a => a.st = .done)) &&
    !(e.attr = 0 && s.accs.any (fun a => a.core = c && a.ctx = ctx && a.thr = e.thr && a.attr = 0 && !a.st.settled))

/-- JOURNAL_SEND (R290): the entry goes SENT and its access is on its way. -/
def execJournalSend (core n : Nat) (s : State) : Result :=
  device s (
    let ctx := s.ctxOf core
    let e := (s.bind ctx core).entry n
    if s.maySend ctx core n then
      let s1 := s.modBind ctx core (fun b => b.modEntry n (fun q => { q with st := .sent }))
      { s1 with
        accs := s1.accs ++ [{
          id := s.nextAcc, core := core, ctx := ctx, thr := e.thr, kind := .store n, st := .flying, va := e.va,
          la := e.la, size := e.size, off := 0, attr := e.attr, node := e.node, eff := e.eff, arr := 0, key := 0, pa := 0,
          ordinal := 0 }]
        nextAcc := s.nextAcc + 1 }
    else s)

/-! ## Holds on frames (R355) -/

/-- Whether a granule store of a group has still to arrive at a frame, or to be issued. -/
def State.partsDue (s : State) (ctx c grp frame : Nat) : Bool :=
  let b := s.bind ctx c
  b.mts.any (fun p => p.2.grp = grp) ||
  b.journal.any (fun p => p.2.grp = grp && p.2.la / 4096 = frame &&
    (p.2.st = .held || (p.2.st = .sent && s.accs.any (fun a => a.core = c && a.ctx = ctx && a.kind = .store p.1 && !a.st.settled))))

/-- Once the last part of a group has arrived at a probed frame, the frame's hold ends and the probe is forgotten. -/
def State.endHolds (s : State) (ctx c grp : Nat) : State :=
  (s.probesOf ctx c grp).foldl (fun (t : State) a =>
    if t.partsDue ctx c grp (a.la / 4096) then t
    else
      let u := t.dropAcc a.id
      if a.st = .done && isMemory a.la then u.modFrame (a.la / 4096) (fun r => { r with hold := r.hold - 1 }) else u) s

/-- The group of the entry that a posted access belongs to; 0 for none. -/
def State.grpOf (s : State) (a : Acc) : Nat :=
  match a.kind with
  | .store n => ((s.bind a.ctx a.core).entry n).grp
  | _ => 0

/-- A posted access has arrived: performed or refused. -/
def State.arrived (s : State) (a : Acc) : State := if s.grpOf a = 0 then s else s.endHolds a.ctx a.core (s.grpOf a)

/-! ## Acknowledgements and refusals (R290, R294) -/

/-- The posted access of a core's journal entry that has reached a final state. -/
def State.postedAt (s : State) (c n : Nat) : Option Acc :=
  s.accs.find? (fun a => a.core = c && a.kind = .store n && a.st.settled)

/-- JOURNAL_ACK (R290): the target's report frees the entry, bound or out (R127). -/
def execJournalAck (core n : Nat) (s : State) : Result :=
  device s (
    match s.postedAt core n with
    | some a => if a.st = .done then (s.dropAcc a.id).modBind a.ctx core (fun b => b.modEntry n (fun _ => JEntry.free)) else s
    | none => s)

/-- An entry is REFUSED with a reason and its cause becomes pending, TVAL the entry's index (R294; log 24). -/
def State.refuseEntry (s : State) (ctx c n reason : Nat) : State :=
  (s.modBind ctx c (fun b =>
    { b.modEntry n (fun e => { e with st := .refused, reason := reason }) with
      cnt := { b.cnt with refusals := b.cnt.refusals + 1 } })).pendCause ctx c (storePend reason) n (w64 n)

/-- The refusal that a probe of an entry's group met (R355). -/
def State.probeRefusal (s : State) (ctx c grp : Nat) : Option Nat :=
  (s.probesOf ctx c grp).findSome? (fun a => match a.st with | .refused r => some r | _ => none)

/-- JOURNAL_REFUSAL (R294, R355): the target refuses the entry's access; a refused probe refuses every entry of its
access. -/
def execJournalRefusal (core n : Nat) (s : State) : Result :=
  device s (
    match s.postedAt core n with
    | some a =>
      match a.st with
      | .refused r => (s.dropAcc a.id).refuseEntry a.ctx core n r
      | _ => s
    | none =>
      let ctx := s.ctxOf core
      let e := (s.bind ctx core).entry n
      match if e.st = .held && e.probe && !(s.bind ctx core).unsure e then s.probeRefusal ctx core e.grp else none with
      | some r =>
        let ns := (List.range 64).filter (fun k =>
          ((s.bind ctx core).entry k).grp = e.grp && ((s.bind ctx core).entry k).st = .held)
        (ns.foldl (fun (t : State) k => t.refuseEntry ctx core k r) s).endHolds ctx core e.grp
      | none => s)

/-! ## PSJE (R293) -/

/-- Write PSJE's selector (R293). -/
def State.psjeSelect (s : State) (c : Nat) (v : Word) : State :=
  s.modCore c (fun k => { k with psje := BitVec.ofNat 9 (fld v 0 8) })

/-- DISMISS: entry SEL is freed when it is REFUSED (R293). -/
def State.psjeDismiss (s : State) (c : Nat) (v : Word) : State :=
  if bit v 8 && ((s.cur c).entry (fld v 0 6)).st = .refused then
    s.modCur c (fun b => b.modEntry (fld v 0 6) (fun _ => JEntry.free))
  else s

def execPsjeSelect (core : Nat) (v : Word) (s : State) : Result := device s (s.psjeSelect core v)

def execPsjeDismiss (core : Nat) (v : Word) (s : State) : Result := device s ((s.psjeDismiss core v).psjeSelect core v)

/-! ## Performing at a target -/

/-- A value is on its way back. -/
def State.answer (s : State) (a : Acc) (bs : List Byte) (poison : Bool) : State :=
  s.modAcc a.id (fun q => { q with st := .valued bs poison false })

/-- The virtual address of a line that an access touches, or of its first byte where it begins there. -/
def Acc.lineVa (a : Acc) (line : Nat) : Word := a.va + w64 (128 * line - a.la)

/-- Where a part of a longer read was refused (R89, R334, R418): at its first line that is lost, or whose target has taken the cut. -/
def State.refusedVa (s : State) (a : Acc) (reason : Nat) : Word :=
  match a.lines.find? (fun l =>
    (reason = 4 && s.lineLost (128 * l)) || (reason = 1 && s.cutAt a.node (s.targetOf (128 * l)))) with
  | some l => a.lineVa l
  | none => a.va

/-- The target refuses an access at an address; a PREFETCH then does nothing (R300). -/
def State.refuseAt (s : State) (a : Acc) (reason : Nat) (va : Word) : State :=
  if a.kind = .prefetch then s.dropAcc a.id
  else (s.modAcc a.id (fun q => { q with st := .refused reason, va := if q.kind = .vload then va else q.va })).arrived a

def State.refuse (s : State) (a : Acc) (reason : Nat) : State := s.refuseAt a reason (s.refusedVa a reason)

/-- A write to a line that the host holds sends a BISnpInv (R408). -/
def State.snoopHost (s : State) (line : Nat) : State :=
  if s.hostPort.hostHeld.contains line then
    { s with hostPort := { s.hostPort with hostHeld := s.hostPort.hostHeld.filter (· ≠ line), snooped := line :: s.hostPort.snooped } }
  else s

/-- What the directory says of other modules' copies of a line of this module (R416). -/
def State.remoteAt (s : State) (line : Nat) : Nat := SMap.get 0 s.remote line

/-- A write to a line that other modules share has its directory invalidate their copies (R307, R416). -/
def State.snoopRemote (s : State) (line : Nat) : State :=
  if s.remoteAt line = 1 then { s with remote := SMap.set 0 s.remote line 0, remoteInv := line :: s.remoteInv } else s

/-- A device write has performed at the home of a line: copies of the host and of other modules are invalidated (R307). -/
def State.snoopCopies (s : State) (line : Nat) : State := (s.snoopHost line).snoopRemote line

/-- The lines that one other module holds alone are recalled from it before the home serves them (R416). -/
def State.recallLines (s : State) (ls : List Nat) : State :=
  ls.foldl (fun (t : State) l => if t.remoteAt l = 2 then { t with remote := SMap.set 0 t.remote l 3 } else t) s

/-- Whether the home must wait for such a recall. -/
def State.heldAway (s : State) (a : Acc) : Bool := a.lines.any (fun l => 2 ≤ s.remoteAt l)

/-- What a proxy slice holds of a line of another module (R416). -/
def State.proxy (s : State) (line : Nat) : Proxy := (SMap.find? s.proxies line).getD ⟨0, false, none, false, false⟩

def State.setProxy (s : State) (line : Nat) (p : Proxy) : State := { s with proxies := SMap.put s.proxies line p }

/-- A write has performed at a proxy that holds the only copy: it is M (R416). -/
def State.proxyWrite (s : State) (line : Nat) : State := s.setProxy line { s.proxy line with st := 3 }

/-- A proxy after a line operation: DISCARD and LASTUSE leave no copy, a FLUSHL leaves a clean one (R301, R416). -/
def State.proxyAfter (s : State) (line op : Nat) : State :=
  let p := s.proxy line
  if op = 3 then (if p.st = 3 then s.setProxy line { p with st := 2 } else s) else s.setProxy line { p with st := 0 }

/-- The write or line operation of a journal entry performs at a memory line or a bank (R284, R296, R300, R365). -/
def State.performStore (s : State) (a : Acc) (n : Nat) : State :=
  let e := (s.bind a.ctx a.core).entry n
  let line := a.la / 128
  let s1 :=
    if e.lineOp = 1 then { s.dropLine line with l2 := SMap.set false s.l2 line false }
    else if e.lineOp = 2 then { (s.writeBack line).dropLine line with l2 := SMap.set false s.l2 line false }
    else if e.lineOp = 3 then s.writeBack line
    else
      let t := s.writeAt a.la e.data
      let u := if e.full then t.setFull a.la e.data.length true else t
      if e.poison then u.setPoison a.la else u
  let s2 :=
    if isAperture a.la then (if e.lineOp = 0 then s1.proxyWrite line else s1.proxyAfter line e.lineOp)
    else if isMemory a.la && e.lineOp ≠ 3 then s1.snoopCopies line else s1
  (s2.modAcc a.id (fun q => { q with st := .done })).arrived a

/-- A scalar, vector or code read performs (R295). -/
def State.performRead (s : State) (a : Acc) : State := s.answer a (s.bytesOf a.la a.blocks) (s.poisonedOf a.la a.blocks)

/-- An AMO performs at a bank or a home slice (R298). -/
def State.performAmo (s : State) (a : Acc) (op : Nat) (b c : Word) : State :=
  let poison := s.poisoned a.la a.size
  let o := s.amoAt a.la a.size (op % 16) b c
  (if isMemory a.la then o.2.snoopCopies (a.la / 128) else o.2).answer a (leBytes a.size o.1) poison

/-- Whether an access writes its line at the home and so waits for leases (R288): stores, DISCARD, LASTUSE and AMOs. -/
def State.writesLine (s : State) (a : Acc) : Bool :=
  match a.kind with
  | .store n => ((s.bind a.ctx a.core).entry n).lineOp ≠ 3
  | .amo _ _ _ => true
  | .engine (some _) _ => true
  | .cxl _ => true
  | _ => false

/-- A write of the host performs at the home slice like a device write (R408): copies of other modules are invalidated, and the host's own
stays its affair. -/
def State.performCxl (s : State) (a : Acc) (bs : List Byte) : State := ((s.snoopRemote (a.la / 128)).writeAt a.la bs).dropAcc a.id

/-- A write of an engine performs (R270, R284, R366): full bits are set; poison lost to class U sets CHKI.LOST. -/
def State.performEngine (s : State) (a : Acc) (bs : List Byte) (poison : Bool) : State :=
  let lost := poison && s.classAt a.la = 2
  let s1 := if isAperture a.la then s.proxyWrite (a.la / 128) else if isMemory a.la then s.snoopCopies (a.la / 128) else s
  let s2 := s1.writeAt a.la bs
  let s3 := if isScratch a.la then s2.setFull a.la bs.length true else s2
  let s4 := if poison then s3.setPoison a.la else s3
  let s5 := if lost then s4.modBind a.ctx a.core (fun b => { b with chki := setBit b.chki chkLost }) else s4
  s5.modAcc a.id (fun q => { q with st := .done })

/-- A flushing read leaves on the stream of its context's function, under the key set in force there (R307, R406). -/
def State.flushOut (s : State) (a : Acc) : State :=
  s.modAcc a.id (fun q => { q with st := .hostOut, key := (s.world (ctxFn a.ctx)).keyset })

/-- Perform an access at its target. -/
def State.perform (s : State) (a : Acc) : State :=
  match a.kind with
  | .store n => s.performStore a n
  | .amo op b c => s.performAmo a op b c
  | .probe _ =>
    (if isMemory a.la then s.modFrame (a.la / 4096) (fun r => { r with hold := r.hold + 1 }) else s).modAcc a.id
      (fun q => { q with st := .done })
  | .flush => s.flushOut a
  | .prefetch => s.dropAcc a.id
  | .engine (some bs) poison => s.performEngine a bs poison
  | .cxl bs => s.performCxl a bs
  | _ => s.performRead a

/-- At the home slice of a memory line (R288): a write waits for the latest lease and for earlier writes, a read for
waiting writes. -/
def State.atHome (s : State) (a : Acc) : State :=
  let line := a.la / 128
  let t := s.touchFrame a.la
  if s.writesLine a then
    if s.ptime < SMap.get 0 s.leases line || s.writeWaiting line then t.waitThere a .leaseWait else t.perform a
  else
    match a.kind with
    | .store _ => t.perform a
    | .probe _ => t.perform a
    | _ => if a.lines.any s.writeWaiting then s else t.perform a

/-- Whether the module reaches the fabric: some port is UP (R414). -/
def State.fabricUp (s : State) : Bool := s.ports.any (fun p => p.2.st = .up)

/-- Whether the module answers new misses with HOMELOST (R414, R420): it reaches no other, or is being drained. -/
def State.fabricShut (s : State) : Bool := !s.fabricUp || fld (s.reg (pfReg 0x1_7010)) 0 3 ≠ 0

/-- A FLUSHL needs no copy: a line that is not held has nothing to write back (R301). -/
def State.flushesLine (s : State) (a : Acc) : Bool :=
  match a.kind with
  | .store n => ((s.bind a.ctx a.core).entry n).lineOp = 3
  | _ => false

/-- Whether a proxy serves an access to a line (R416): a read needs a copy, a write the only one. -/
def State.proxyServes (s : State) (a : Acc) (line : Nat) : Bool :=
  let p := s.proxy line
  if s.writesLine a then 2 ≤ p.st && !p.invWait else (1 ≤ p.st && !p.invWait) || s.flushesLine a

/-- The request of a miss goes to the directory, once for a line (R416). -/
def State.askLine (s : State) (a : Acc) (line : Nat) : State :=
  if (s.proxy line).missing then s else s.sendFabric (some (ctxFn a.ctx)) 2 (128 * line) [128 * line, b2n (s.writesLine a)]

/-- At a proxy slice (R415, R416): a read needs a copy, a write the only copy; otherwise a miss goes to the directory and
the access waits. An AMO travels to the remote home. A probe is answered at once. -/
def State.atProxy (s : State) (a : Acc) : State :=
  match a.kind with
  | .amo _ _ _ =>
    if s.fabricShut then s.refuse a 4
    else (s.sendFabric (some (ctxFn a.ctx)) 2 a.la [a.la, a.size]).modAcc a.id (fun q => { q with st := .hostOut })
  | .probe _ => s.modAcc a.id (fun q => { q with st := .done })
  | _ =>
    match a.lines.find? (fun l => !s.proxyServes a l) with
    | none => s.atHome a
    | some l =>
      if s.fabricShut then s.refuseAt a 4 (a.lineVa l)
      else ((s.askLine a l).setProxy l { s.proxy l with missing := true }).modAcc a.id (fun q => { q with st := .hostWait })

/-- At a scratch bank (R284, R289, R297): full-bit loads are served in the order of their arrival. -/
def State.atBank (s : State) (a : Acc) : State :=
  match a.kind with
  | .fullLoad clear =>
    let g := a.la / 16
    let earlier := s.accs.any (fun q => q.la / 16 = g && q.kind.isFull && q.st = .fullWait && (a.st ≠ .fullWait || q.arr < a.arr))
    if SMap.get false s.full g && !earlier then
      (if clear then s.setFull a.la a.size false else s).performRead a
    else if a.st = .fullWait then s
    else s.waitThere a .fullWait
  | _ => s.perform a

/-! ## The host link (R356-R358, R406, R442) -/

/-- Whether an access needs read, and write, permission (R359). -/
def Acc.needs (a : Acc) : Bool × Bool :=
  match a.kind with
  | .store _ => (false, true)
  | .probe _ => (false, true)
  | .amo _ _ _ => (true, true)
  | .engine (some _) _ => (false, true)
  | _ => (true, false)

/-- The ATC's usable translation of an access (R358): the physical address. -/
def State.atcAddr (s : State) (a : Acc) : Option Nat :=
  let w := s.windowRid a.la
  let h := s.hostAddr a.la
  let n := a.needs
  (s.atc.find? (fun e => e.rid = w.1 && e.pasid = w.2 && e.page ≤ h && h < e.page + e.len &&
    (!n.1 || e.rd) && (!n.2 || e.wr))).map (fun e => e.pa + (h - e.page))

/-- The entry that serves an access becomes the most recently used (R358). -/
def State.touchAtc (s : State) (a : Acc) : State :=
  let w := s.windowRid a.la
  let h := s.hostAddr a.la
  let hit := fun (e : AtcEnt) => e.rid = w.1 && e.pasid = w.2 && e.page ≤ h && h < e.page + e.len
  { s with atc := s.atc.filter (fun e => !hit e) ++ s.atc.filter hit }

/-- The translation that a probe of the same access holds for a page (R360). -/
def State.probedAddr (s : State) (a : Acc) : Option Nat :=
  let g := s.grpOf a
  if g = 0 then none
  else
    ((s.probesOf a.ctx a.core g).find? (fun q => q.st = .done && q.la / 4096 = a.la / 4096 && q.pa ≠ 0)).map
      (fun q => q.pa / 4096 * 4096 + a.la % 4096)

/-- The IDE key set that a new request of a context's window is sent under (R406). -/
def State.ideKey (s : State) (la : Nat) : Nat := (s.world (s.windowRid la).1).keyset

/-- The host port has accepted a write of a thread: a flushing read of the host link must still follow it (R307). -/
def State.oweFlush (s : State) (a : Acc) : State :=
  s.modBind a.ctx a.core (fun b => { b with flushDue := SMap.put b.flushDue a.thr s.nextAcc })

/-- A request leaves on the host link for host address `pa`: a posted write has been accepted by the host port and its
thread owes a flushing read (R307); a non-posted request waits for its completion, under the key set in force (R406). -/
def State.hostSend (s : State) (a : Acc) (pa : Nat) : State :=
  match a.kind with
  | .store n =>
    let e := (s.bind a.ctx a.core).entry n
    let s1 := if e.lineOp = 0 then { s with host := putBytes s.host pa e.data } else s
    ((s1.oweFlush a).modAcc a.id (fun q => { q with st := .done })).arrived a
  | .probe _ => s.modAcc a.id (fun q => { q with st := .done, pa := pa })
  | .engine (some bs) _ =>
    (({ s with host := putBytes s.host pa bs } : State).oweFlush a).modAcc a.id (fun q => { q with st := .done })
  | _ => s.modAcc a.id (fun q => { q with st := .hostOut, pa := pa, key := s.ideKey a.la })

/-- Ask the host for the translation of an access's page unless one is under way (R358): the page and the next three of its window. -/
def State.askTranslation (s : State) (a : Acc) : State :=
  let w := s.windowRid a.la
  let page := s.hostAddr a.la / 4096 * 4096
  let out := fun (p : Nat) => s.treqs.any (fun t => t.rid = w.1 && t.pasid = w.2 && t.page = p)
  if out page then s
  else
    { s with treqs := s.treqs ++ ((((List.range 4).filter (fun k => a.la / 4096 % 2 ^ 28 + k < 2 ^ 28)).map (fun k => page + 4096 * k)).filter
      (fun p => !out p)).map (fun p => ⟨w.1, w.2, p, false, s.ideKey a.la⟩) }

/-- PRIFAIL (R359). -/
def State.prifail (s : State) : Bool := (SMap.get Mxu.reset s.mxus 16).prifail

/-- A host read answered from the replay log (R442). -/
def State.logged (s : State) (a : Acc) : Option (List Byte) :=
  if a.hostRead && s.replaying (ctxFn a.ctx) then s.loggedRead a.ctx a.core a.thr a.ordinal else none

/-- At MXU 16 (R357-R359, R441, R442). `ok` is the host's answer to an untranslated request. -/
def State.atHost (s : State) (a : Acc) (ok : Bool) : State :=
  match s.logged a with
  | some bs => s.answer a bs false
  | none =>
    let t := if a.hostRead && s.replaying (ctxFn a.ctx) then s.logMiss (ctxFn a.ctx) else s
    if a.kind = .flush then s.flushOut a
    else if s.windowMode a.la ≠ 3 then (if ok then t.hostSend a (s.hostAddr a.la) else t.refuse a 2)
    else
      match (s.probedAddr a).orElse (fun _ => s.atcAddr a) with
      | some pa => if ok then (t.touchAtc a).hostSend a pa else t.refuse a 2
      | none =>
        if s.prifail then t.refuse a 2
        else (s.askTranslation a).modAcc a.id (fun q => { q with st := .hostWait })

/-! ## The events of targets -/

/-- Whether an access stands before its target and may be looked at there. -/
def AccSt.arriving : AccSt → Bool
  | .flying => true
  | .fullWait => true
  | _ => false

/-- An access that asks its home for a lease instead (R288). -/
def Acc.leased (a : Acc) : Bool := (a.kind = .load || a.kind = .vload || a.kind = .prefetch) && isMemory a.la && a.attr ≠ 0

/-- Whether an answered probe of the same access holds its frame (R355). -/
def State.heldFor (s : State) (a : Acc) : Bool :=
  s.grpOf a ≠ 0 && (s.probesOf a.ctx a.core (s.grpOf a)).any (fun q => q.st = .done && q.la / 4096 = a.la / 4096)

/-- Whether an access meets a memory frame that is not resident, so that it parks (R342); the parts of an access whose probe
holds the frame come before its eviction (R340, R355). -/
def State.misses (s : State) (a : Acc) : Bool :=
  isMemory a.la && !isAperture a.la && (s.frame (a.la / 4096)).st ≠ .resident && !s.heldFor a

/-- Whether an access released from a park comes behind another released one of its frame (R343). -/
def State.behindReleased (s : State) (a : Acc) : Bool :=
  a.rel ≠ 0 && s.accs.any (fun q => q.rel ≠ 0 && q.rel < a.rel && q.la / 4096 = a.la / 4096 && q.st = .flying)

/-- ACCESS_REACHES_TARGET (R289): performed or refused at a bank, a home slice, a proxy or the host port. A load of an RC
or UO line waits for LEASE_GRANT instead; an access to a frame that is not resident waits for MXU_PARK. -/
def execAccessReachesTarget (acc : Nat) (ok : Bool) (s : State) : Result :=
  device s (
    match s.acc? acc with
    | none => s
    | some a =>
      if !a.st.arriving || s.behindReleased a then s
      else
        match if a.st = .flying && a.kind ≠ .flush then s.refusal a else none with
        | some r => s.refuse a r
        | none =>
          if isScratch a.la then s.atBank a
          else if isHost a.la then (if s.logRoom (ctxFn a.ctx) a.count || !a.hostRead then s.atHost a ok else s)
          else if a.kind = .prefetch && s.misses a then s.dropAcc a.id
          else if a.leased || s.misses a then s
          else if isAperture a.la then s.atProxy a
          else
            if s.heldAway a then s.recallLines a.lines
            else
              let t := s.fetchLines (ctxFn a.ctx) a.lines
              if t.2 then t.1.atHome a else t.1)

/-- LEASE_GRANT (R288): the home slice answers an L1 miss with the line and a lease, unless a write waits there; so it does for every
line of a part of a longer read (R309). -/
def execLeaseGrant (acc : Nat) (s : State) : Result :=
  device s (
    match s.acc? acc with
    | none => s
    | some a =>
      if !(a.leased && a.st = .flying) || s.behindReleased a then s
      else
        match s.refusal a with
        | some r => s.refuse a r
        | none =>
          if a.kind = .prefetch && s.misses a then s.dropAcc a.id
          else if s.misses a || a.lines.any s.writeWaiting then s
          else if isAperture a.la && a.lines.any (fun l => !s.proxyServes a l) then s.atProxy a
          else if s.heldAway a then s.recallLines a.lines
          else
            let t := s.fetchLines (ctxFn a.ctx) a.lines
            if t.2 then (a.lines.foldl (fun (u : State) l => u.leaseTo a.core l) (t.1.touchFrame a.la)).perform a else t.1)

/-- HOME_WRITE_PERFORM (R288): a waiting write performs once the latest lease on its line has expired, in arrival order. At a proxy that
has lost its only copy meanwhile it misses (R416). -/
def execHomeWritePerform (acc : Nat) (s : State) : Result :=
  device s (
    match s.acc? acc with
    | none => s
    | some a =>
      let first := !(s.accs.any (fun q => q.st = .leaseWait && q.la / 128 = a.la / 128 && q.arr < a.arr))
      if a.st = .leaseWait && SMap.get 0 s.leases (a.la / 128) ≤ s.ptime && first then
        (if isAperture a.la && !s.proxyServes a (a.la / 128) then s.atProxy a else s.perform a)
      else s)

/-- L1_LEASE_EXPIRY (R288). -/
def execL1LeaseExpiry (core line : Nat) (s : State) : Result :=
  device s (
    match SMap.find? (s.core core).l1 line with
    | some k => if k.expiry ≤ s.ptime then s.dropL1 core line else s
    | none => s)

/-- BIRSP_ARRIVAL (R408). -/
def execBirspArrival (line : Nat) (s : State) : Result :=
  device s { s with hostPort := { s.hostPort with snooped := s.hostPort.snooped.filter (· ≠ line) } }

end Sys2Proof.Machine
end

