-- ==== Sys2Proof/Machine/Engine.lean ====
section
/-! DEFINITION. What the matrix engine and the copy engine share (R81, R268, R270, R302): their accesses, their statuses,
their starts and their releases. -/
namespace Sys2Proof.Machine

/-- The thread numbers that engine accesses carry. -/
def thrMatrix : Nat := 17
def thrCopy : Nat := 18

/-- The statuses of R269 and R304. -/
def stAccess : Nat := 1
def stFrame : Nat := 2
def stHomelost : Nat := 3
def stKey : Nat := 4
def stPoison : Nat := 5

/-- The status that a refusal's reason gives (R270). -/
def engineStatus (reason : Nat) : Nat := if reason = 4 then stHomelost else if reason = 5 then stFrame else stAccess

/-- Whether the engines of a core may work: its context is bound, and no stop holds the core (R125, R126, R426). -/
def State.engineOn (s : State) (c : Nat) : Bool :=
  (s.core c).ctx.isSome && (s.cur c).st = .bound && !s.stopped c

/-! ## Accesses -/

/-- Whether an access is a write of an engine. -/
def AccKind.engineWrite : AccKind → Bool
  | .engine (some _) _ => true
  | _ => false

def AccKind.engineRead : AccKind → Bool
  | .engine none _ => true
  | _ => false

/-- The access of a command for one piece. -/
def State.engineAcc (s : State) (c thr id : Nat) (write : Bool) (p : Nat × Nat) : Option Acc :=
  s.accs.find? (fun a => a.core = c && a.ctx = s.ctxOf c && a.thr = thr && a.off = id && a.va = w64 p.1 && a.size = p.2 &&
    (if write then a.kind.engineWrite else a.kind.engineRead))

/-- An engine access leaves: at a bank of the own core it performs, or is refused, at once. -/
def State.sendEngine (s : State) (c thr id eff : Nat) (data : Option (List Byte)) (poison : Bool) (va n : Nat) (x : Xlat) : State :=
  let a : Acc := {
    id := s.nextAcc, core := c, ctx := s.ctxOf c, thr := thr, kind := .engine data poison, st := .flying, va := w64 va,
    la := x.la, size := n, off := id, attr := x.attr, node := x.node, eff := eff, arr := 0, key := 0, pa := 0, ordinal := 0 }
  let s1 := { s with accs := s.accs ++ [a], nextAcc := s.nextAcc + 1 }
  if isOwnBank c x.la then
    match s1.refusal a with
    | some r => s1.refuse a r
    | none => s1.perform a
  else s1

/-- Whether an engine may send an access for a piece (R270, R302): mapped, with the right, of a class the command's
activation may touch, and answered by an own bank. -/
def State.engineLook (s : State) (c eff right : Nat) (p : Nat × Nat) : Option Xlat :=
  match s.look c (s.ctxOf c) p.1 with
  | .hit x =>
    let own := match region x.la with
      | .scratch o b off => o ≠ c || (s.bankAnswers o b off p.2 && !s.cutAt x.node (bankTarget o b))
      | .reserved => false
      | _ => true
    if bit x.rights right && classOk eff (s.classAt x.la) x.rights && own then some x else none
  | _ => none

/-- What a command finds of the pieces it needs: it must wait, having sent what was missing; it ends with a status and an
address; or all are there, with their bytes, their poison, and the addresses of pieces that a FRAME answer stands for. -/
inductive Engine where
  | wait (s : State)
  | fail (status : Nat) (addr : Word)
  | ok (bytes : List Byte) (poison : Bool) (frames : List Word)
  deriving DecidableEq, Repr

/-- One piece: its state in flight, and what it has brought. -/
inductive Piece where
  | here (bytes : List Byte) (poison frame : Bool)
  | away
  | ask (x : Xlat)
  | bad (status : Nat)
  deriving DecidableEq, Repr

def State.pieceAt (s : State) (c thr id eff right : Nat) (write : Bool) (p : Nat × Nat) : Piece :=
  match s.engineAcc c thr id write p with
  | some a =>
    match a.st with
    | .valued bs z f => .here bs z f
    | .done => .here [] false false
    | .refused r => .bad (engineStatus r)
    | _ => .away
  | none =>
    match s.engineLook c eff right p with
    | some x => .ask x
    | none => .bad stAccess

/-- The pieces of ranges, cut by 16-byte granules, each with the ordering attribute of its whole range (R309). -/
def State.granuleList (s : State) (c : Nat) (rs : List (Nat × Nat)) : List (Nat × (Nat × Nat)) :=
  rs.flatMap (fun r => (pieces 16 r.1 r.2).map (fun p => (s.strongest c (s.ctxOf c) r.1 r.2, p)))

/-- Whether an SO access of an engine has not performed: the next one waits for it (R308). -/
def State.engineSo (s : State) (c thr : Nat) : Bool :=
  s.accs.any (fun a => a.core = c && a.ctx = s.ctxOf c && a.thr = thr && a.attr = 0 && !a.st.settled)

/-- What a list of pieces comes to; `data` gives the bytes of a write. Pieces ordered as SO leave one at a time, in order. -/
def State.engineAll (s : State) (c thr id eff right : Nat) (data : Option (Nat × Nat → List Byte)) (poison : Bool)
    (ps : List (Nat × (Nat × Nat))) : Engine :=
  let l := ps.map (fun p => (p, s.pieceAt c thr id eff right data.isSome p.2))
  match l.find? (fun q => match q.2 with | .bad _ => true | _ => false) with
  | some (p, .bad st) => .fail st (w64 p.2.1)
  | _ =>
    if l.any (fun q => match q.2 with | .ask _ => true | _ => false) then
      .wait (l.foldl (fun (t : State) q =>
        match q.2 with
        | .ask x =>
          if (q.1.1 = 0 && t.engineSo c thr) || (t.engineAcc c thr id data.isSome q.1.2).isSome then t
          else t.sendEngine c thr id eff (data.map (fun d => d q.1.2)) poison q.1.2.1 q.1.2.2 { x with attr := q.1.1 }
        | _ => t) s)
    else if l.any (fun q => q.2 = .away) then .wait s
    else
      .ok (l.flatMap (fun q => match q.2 with | .here b _ _ => b | _ => []))
        (l.any (fun q => match q.2 with | .here _ z _ => z | _ => false))
        ((l.filter (fun q => match q.2 with | .here _ _ f => f | _ => false)).map (fun q => w64 q.1.2.1))

/-- Read ranges for a command. -/
def State.engineRead (s : State) (c thr id eff right : Nat) (rs : List (Nat × Nat)) : Engine :=
  s.engineAll c thr id eff right none false (s.granuleList c rs)

/-- Write bytes at an address for a command. -/
def State.engineWrite (s : State) (c thr id eff : Nat) (va : Nat) (bs : List Byte) (poison : Bool) : Engine :=
  s.engineAll c thr id eff rWrite (some (fun p => (bs.drop (p.1 - va)).take p.2)) poison (s.granuleList c [(va, bs.length)])

/-- Forget a command's accesses. -/
def State.dropEngine (s : State) (c thr id : Nat) : State :=
  let gone := (s.accs.filter (fun a => a.core = c && a.ctx = s.ctxOf c && a.thr = thr && a.off = id)).map (·.id)
  { s with accs := s.accs.filter (fun a => !gone.contains a.id), parks := s.parks.filter (fun p => !gone.contains p.acc) }

/-- FRAME becomes pending for an address that an engine was answered FRAME at (R270, R302). -/
def State.engineFrames (s : State) (c : Nat) (l : List Word) : State :=
  match l with
  | [] => s
  | v :: _ => s.pendCause (s.ctxOf c) c pFrame (64 + thrMatrix) v

/-! ## Ordering (R81, R268) -/

/-- Whether every access issued before a command has performed (R268): no live journal entry is older. -/
def Bind.olderDone (b : Bind) (seq : Nat) : Bool := !(b.journal.any (fun p => p.2.live && p.2.seq < seq))

/-- Whether a command's release must still wait (R268): at SYSTEM for the host to have what was written, by the command and by the
accesses ordered before it, and for its copies to be invalidated. -/
def State.engineOwes (s : State) (c ord scope : Nat) : Bool :=
  2 ≤ ord && scope = 5 && (!s.hostPort.snooped.isEmpty || !(s.cur c).flushDue.isEmpty)

/-- Send the flushing read that a SYSTEM release of an engine waits for, unless one that covers every write is on its way
(R307). -/
def State.engineFlush (s : State) (c thr : Nat) : State :=
  if (s.cur c).flushDue.all (fun d => s.accs.any (fun a => a.core = c && a.ctx = s.ctxOf c && a.kind = .flush && d.2 ≤ a.id)) then s
  else s.newAcc ⟨c, thr⟩ .flush 0 ⟨0x8000_0000_0000, 0x3F, 1, none, false⟩ 0 0

/-- The acquire of a command at its start (R268). -/
def State.engineAcquire (s : State) (c ord scope : Nat) : State := if ord % 2 = 1 then s.acquire ⟨c, 0⟩ scope else s

/-- The checks of a command that come before its own: the scope (R81, R145). -/
def State.scopeBad (s : State) (c scope : Nat) : Bool := !s.scopeAllowed c scope

end Sys2Proof.Machine
end

