-- ==== Sys2Proof/Machine/Complete.lean ====
section
/-! DEFINITION. What comes back to the cores: values and refusals of loads, atomics, vector loads and fetches, flushing
reads, and what the host answers (R38, R93, R294, R307, R354, R358, R372, R406, R441). -/
namespace Sys2Proof.Machine

/-! ## Waiting threads -/

/-- Whether an access holds its thread until it completes. -/
def AccKind.holds : AccKind → Bool
  | .vload => true
  | .fetch => true
  | .flush => true
  | .fullLoad _ => true
  | .amo _ _ _ => true
  | _ => false

/-- The thread waits for nothing any more unless another access still holds it. -/
def State.unwait (s : State) (f : Focus) : State :=
  if (s.pendOf f).any (·.blocking) ||
      s.accs.any (fun a => a.core = f.core && a.ctx = s.ctxOf f.core && a.thr = f.thr && a.kind.holds) then s
  else s.setWaits f false

/-- The focus of an access of a bound context; an access of a context that is out has none. -/
def Acc.focus (a : Acc) : Focus := ⟨a.core, a.thr⟩

def State.atHand (s : State) (a : Acc) : Bool := (s.core a.core).ctx = some a.ctx

/-! ## Loads and atomics (R93, R295, R297, R298, R354, R372) -/

/-- What a later load must know of a value that has come (R38): the registers it would restore hold that value. -/
def PendLoad.patch (p : PendLoad) (acc : Nat) (v : Word) : PendLoad :=
  match p.snap.pend.find? (fun q => q.1 = acc) with
  | some q =>
    { p with snap := { p.snap with
        regs := if q.2 = 0 then p.snap.regs else SMap.set 0 p.snap.regs q.2 v
        pend := p.snap.pend.filter (fun r => r.1 ≠ acc) } }
  | none => p

def State.patchPend (s : State) (f : Focus) (acc : Nat) (v : Word) : State :=
  if f.thr = 0 then s.modCur f.core (fun b => { b with pend := b.pend.map (fun p => p.patch acc v) })
  else s.modMt f.core (f.thr - 1) (fun m => { m with pend := m.pend.map (fun p => p.patch acc v) })

/-- The CHKI bit of a poisoned value (R372). -/
def chkOf (f : Focus) : AccKind → Nat
  | .amo _ _ _ => chkAmo
  | _ => if f.thr = 0 then chkCtload else chkMtload

/-- The value of a load or atomic reaches its register; an instruction that waited for it retires (R93, R298). One that sets CHKI
waits for the earlier loads of its thread (R38). -/
def State.loadReturns (s : State) (a : Acc) (p : PendLoad) (bs : List Byte) (poison frame : Bool) : State :=
  let f := a.focus
  if (poison || frame) && (s.pendOf f).head?.any (fun q => q.acc ≠ a.id) then s
  else
    let v := extendLoad p.signed p.size (ofLe bs)
    let s1 := ((s.dropAcc a.id).delPend f a.id).patchPend f a.id v
    let s2 := (s1.chkiIf f.core (chkOf f a.kind) poison).frameSeen f (if frame then some a.va else none)
    let s3 := if p.dst = 0 then s2 else s2.wr f p.dst v
    let s4 := match a.kind with
      | .amo op _ _ => s3.acquire f (op / 16)
      | _ => s3
    if p.blocking then s.passClose f ((s4.unwait f).retire f p.len) else s4

/-- The first address that TVAL names for a refused access (R89): of an orphaned line, the line's. -/
def refusedTval (va : Word) (reason : Nat) : Word := if reason = 4 then va &&& ~~~127 else va

/-- A refused load or atomic faults exactly once it is the thread's oldest (R38): everything the thread has done since is
taken back, its later accesses are dropped, and the cause is raised at the load. -/
def State.loadRefused (s : State) (a : Acc) (p : PendLoad) (reason : Nat) : State :=
  let f := a.focus
  ((s.takeBack f p.snap).dropAcc a.id).exact f p.len (loadCause reason) (refusedTval a.va reason)

/-! ## Long reads (R232, R355) -/

/-- The parts of a thread's long read. -/
def State.partsOf (s : State) (f : Focus) : List Acc :=
  s.accs.filter (fun a => a.core = f.core && a.ctx = s.ctxOf f.core && a.thr = f.thr && a.kind = .vload)

/-- A part of a long read has returned: once none is outstanding the read goes on, or its least refused address faults, behind
the earlier loads of the thread (R38). -/
def State.partBack (s : State) (f : Focus) : State :=
  let ps := s.partsOf f
  if !(ps.all (fun a => a.st.settled)) then s
  else
    match leastBy (fun (x y : Acc) => x.va.toNat < y.va.toNat)
        (ps.filter (fun a => match a.st with | .refused _ => true | _ => false)) with
    | none => if ps.isEmpty then s.unwait f else s
    | some a =>
      if !(s.pendOf f).isEmpty then s
      else
        let r := match a.st with | .refused r => r | _ => 0
        let s1 := { s with accs := s.accs.filter (fun q => !(ps.any (fun w => w.id = q.id))) }
        ((s1.setGot f []).unwait f).exact f 4 (loadCause r) (refusedTval a.va r)

/-- A fetch of a thread has failed (R68, R372): the cause is exact, behind the earlier loads of the thread (R38). The recorded
length is that of the halfword before where the fetch was of a second one (R133). -/
def State.fetchFails (s : State) (a : Acc) (code : Nat) (tval : Word) : State :=
  let f := a.focus
  if !(s.pendOf f).isEmpty then s
  else ((s.dropAcc a.id).unwait f).exact f (if a.va = s.pcOf f then 2 else 4) code tval

/-- What a fetch from a host or aperture frame has read is the activation's code from now on (R69): of a host frame as the device knew
it when the activation began, of an aperture line as its proxy first held it (log 96). -/
def State.codeCame (s : State) (a : Acc) : State :=
  if isMemory a.la && !isAperture a.la then s
  else
    s.modBind a.ctx a.core (fun b =>
      { b with
        code := if isHost a.la then putBytes b.code a.la ((List.range a.size).map (fun k => SMap.get 0 b.codeHost (a.pa + k))) else b.code
        codeGot := a.la :: b.codeGot })

/-! ## Completions -/

/-- A value reaches its thread. A fetch that meets a FRAME answer makes FRAME pending and its thread stays there (R354). -/
def State.deliver (s : State) (a : Acc) (bs : List Byte) (poison frame : Bool) : State :=
  let f := a.focus
  match a.kind with
  | .vload =>
    ((s.dropAcc a.id).setGot f (s.gotOf f ++ [⟨a.off, bs, poison, frame, a.hostRead⟩])).partBack f
  | .fetch =>
    if frame then (s.dropAcc a.id).pendCause a.ctx a.core pFrame (64 + f.thr) a.va
    else if poison then s.fetchFails a cAccess a.va
    else ((s.dropAcc a.id).codeCame a).unwait f
  | .load | .fullLoad _ | .amo _ _ _ =>
    match (s.pendOf f).find? (fun p => p.acc = a.id) with
    | some p => s.loadReturns a p bs poison frame
    | none => s.dropAcc a.id
  | .prefetch => s.dropAcc a.id
  | _ => s

/-- A refusal reaches its thread. -/
def State.deliverRefusal (s : State) (a : Acc) (reason : Nat) : State :=
  let f := a.focus
  match a.kind with
  | .vload => s.partBack f
  | .fetch => s.fetchFails a (loadCause reason) (refusedTval a.va reason)
  | .flush => (s.dropAcc a.id).unwait f
  | .load | .fullLoad _ | .amo _ _ _ =>
    match s.pendOf f with
    | [] => s.dropAcc a.id
    | p :: t =>
      if p.acc = a.id then s.loadRefused a p reason
      else if t.any (fun q => q.acc = a.id) then s
      else s.dropAcc a.id
  | .prefetch => s.dropAcc a.id
  | _ => s

/-- A flushing read has returned: the host has seen every write that the host port had accepted before it left (R307). -/
def State.flushed (s : State) (a : Acc) : State :=
  ((s.dropAcc a.id).modBind a.ctx a.core (fun b => { b with flushDue := b.flushDue.filter (fun d => a.id < d.2) })).unwait a.focus

/-- What a read of the host has brought, byte by byte. -/
def Acc.hostBytes (a : Acc) (bs : List Byte) : List (Nat × Byte) :=
  a.blocks.zipIdx.flatMap (fun r => ((bs.drop (a.planes * r.2)).take r.1.2).zipIdx.map (fun x => (a.pa + r.1.1 + x.2, x.1)))

/-- Host memory is known to hold what a read of it has brought; so it held when the activations that run began, but where the device has
stored since (R69, log 96). -/
def State.learnHost (s : State) (a : Acc) (bs : List Byte) : State :=
  let l := a.hostBytes bs
  let learn := fun (m : SMap Byte) => l.foldl (fun m x => if SMap.get 0 m x.1 = SMap.get 0 s.host x.1 then SMap.set 0 m x.1 x.2 else m) m
  { s with
    host := l.foldl (fun m x => SMap.set 0 m x.1 x.2) s.host
    binds := s.binds.map (fun p => (p.1, if p.2.act.isSome then { p.2 with codeHost := learn p.2.codeHost } else p.2)) }

/-- The host, or the remote home of a line of another module, answers a non-posted request (R289, R298, R357, R406, R416,
R441): a value, which for a host frame enters the replay log and which host memory is known to hold, or a refusal. -/
def State.hostReturn (s : State) (a : Acc) (ok : Bool) (data : List Byte) : State :=
  let bs := fitBytes a.count data
  if !ok then s.modAcc a.id (fun q => { q with st := .refused 2 })
  else if !isHost a.la then s.modAcc a.id (fun q => { q with st := .valued bs false false })
  else
    let s1 := s.learnHost a bs
    let s2 :=
      match a.kind with
      | .amo op b c =>
        let old := ofLe bs
        let new := amoResult (op % 16) a.size old (b.toNat % 2 ^ (8 * a.size)) (c.toNat % 2 ^ (8 * a.size))
        { s1 with host := putBytes s1.host a.pa (leBytes a.size new) }
      | _ => s1
    let s3 := if a.hostRead then s2.logHostRead a.ctx a.core a.thr a.ordinal a.va bs else s2
    s3.modAcc a.id (fun q => { q with st := .valued bs false false })

/-- Deliver what an access has come back with. -/
def State.comeBack (s : State) (id : Nat) : State :=
  match s.acc? id with
  | none => s
  | some a =>
    if !s.atHand a then s
    else
      match a.st with
      | .valued bs z fr => s.deliver a bs z fr
      | .refused r => s.deliverRefusal a r
      | _ => s

/-- The function whose IDE stream a request on the host link went by (R406). -/
def State.streamOf (s : State) (a : Acc) : Nat := if a.kind = .flush then ctxFn a.ctx else (s.windowRid a.la).1

/-- Whether a request went by the host link, and not to another module. -/
def Acc.byHost (a : Acc) : Bool := a.kind = .flush || isHost a.la

/-- NON_POSTED_COMPLETION (R360, R406). `ok` and `data` are the host's answer to a request on the host link; the completions
of a stopped IDE stream are discarded. -/
def execNonPostedCompletion (acc : Nat) (ok : Bool) (data : List Byte) (s : State) : Result :=
  device s (
    match s.acc? acc with
    | none => s
    | some a =>
      if a.st ≠ .hostOut then s.comeBack acc
      else if a.byHost && (s.world (s.streamOf a)).stopped then s
      else if a.hostRead && !s.logRoom (ctxFn a.ctx) a.count then s
      else
        (if a.kind = .flush then (if ok then s.flushed a else (s.dropAcc a.id).unwait a.focus)
         else (s.hostReturn a ok data).comeBack a.id).retireSet (s.streamOf a))

/-- PCIE_COMPLETION_TIMEOUT (R406): the request is refused at its target, and its key set may be retired. -/
def execPcieCompletionTimeout (acc : Nat) (s : State) : Result :=
  device s (
    match s.acc? acc with
    | none => s
    | some a =>
      if a.st = .hostOut then
        (s.modAcc acc (fun q => { q with st := .refused 2 })).retireSet (s.streamOf a)
      else s)

end Sys2Proof.Machine
end

