-- ==== Sys2Proof/Machine/Vector.lean ====
section
/-! DEFINITION. Vector registers and the arithmetic, conversion, reduction and move instructions over them (chapter 11). -/
namespace Sys2Proof.Machine

/-! ## Tags, elements and shapes (R55, R223-R225) -/

def VReg.fmt (v : VReg) : Nat := fld v.tag 0 4
def VReg.planes (v : VReg) : Nat := fld v.tag 4 3
def VReg.scaled (v : VReg) : Bool := bit v.tag 7
def VReg.poison (v : VReg) : Bool := bit v.tag 8

/-- A tag from its fields (R55). -/
def mkTag (fmt planes : Nat) (scaled poison : Bool) : BitVec 16 :=
  BitVec.ofNat 16 (fmt + 16 * planes + 128 * b2n scaled + 256 * b2n poison)

/-- elem(V, r, j) of elements of `w` bytes (R223). -/
def VReg.elem (v : VReg) (w r j : Nat) : Nat := ofLe ((List.range w).map (fun k => v.byte (64 * r + w * j + k)))

/-- Byte r of the scale column as the signed exponent (R59). -/
def VReg.scaleOf (v : VReg) (r : Nat) : Int := toSigned 8 (v.scaleByte r).toNat

/-- The exponent that applies to a row: 0 when the register is not scaled (R59). -/
def VReg.rowScale (v : VReg) (r : Nat) : Int := if v.scaled then v.scaleOf r else 0

/-- The exact value of an element (R54). -/
def VReg.value (v : VReg) (r j : Nat) : ExactNum :=
  (elemValue v.fmt (v.planes + 1) (v.elem (fmtBytes v.fmt) r j)).scale (v.rowScale r)

/-- The register with element (r, j) of `w` bytes equal to `e r j` where `e` gives one, and its other bytes kept. -/
def VReg.fill (v : VReg) (w : Nat) (e : Nat → Nat → Option Nat) : VReg :=
  { v with data := SMap.ofFn 0 (fun k =>
      match e (k / 64) (k % 64 / w) with
      | some x => BitVec.ofNat 8 (x / 2 ^ (8 * (k % 64 % w)))
      | none => v.byte k) 0 2048 }

/-- The register with scale byte r equal to `e r` where `e` gives one. -/
def VReg.fillScale (v : VReg) (e : Nat → Option Byte) : VReg :=
  { v with scale := SMap.ofFn 0 (fun r => (e r).getD (v.scaleByte r)) 0 32 }

/-- Active rows, and active columns of a format (R224, R225). -/
def Mt.rows (m : Mt) : Nat := fld m.shape 0 5 + 1
def Mt.cols (m : Mt) (fmt : Nat) : Nat := min (fld m.shape 8 6 + 1) (fmtEpr fmt)

/-- The micro-thread that executes. -/
def State.mtOf (s : State) (f : Focus) : Mt := (s.cur f.core).mt (f.thr - 1)

/-- Write a vector register; a paired core folds it (R383). -/
def State.setV (s : State) (f : Focus) (n : Nat) (v : VReg) : State :=
  (s.modMt f.core (f.thr - 1) (fun m => { m with v := SMap.set VReg.zero m.v n v })).fold f
    (if (s.core f.core).pair.folds then
      leBytes 1 n ++ (List.range 2048).map v.byte ++ (List.range 32).map v.scaleByte ++ leBytes 2 v.tag.toNat
    else [])

/-- The POISON of a destination (R58, R225): the sources', and its own old one when some of its 2048 bytes stay. -/
def VReg.poisonAfter (old : VReg) (sources : Bool) (written : Nat) : Bool := sources || (written < 2048 && old.poison)

/-- FORMAT, TVAL naming a vector register (R57, R89). -/
def State.badFormat (s : State) (f : Focus) (n : Nat) : State := s.raise f 4 cFormat (w64 n)

/-- The first register of a list of checks that fails. -/
def firstBad (l : List (Nat × Bool)) : Option Nat := (l.find? (fun p => !p.2)).map (·.1)

/-- A vector instruction whose sources are checked first (R57, R227), then its result. -/
def vectorOp (i : Instr) (checks : State → Focus → List (Nat × Bool)) (go : State → Focus → State) (s : State) : Result :=
  run i s (fun f =>
    match firstBad (checks s f) with
    | some n => s.badFormat f n
    | none => (go s f).retire f 4)

/-! ## VALU (R226, R229) -/

/-- The second operand: a register, a scalar register, an immediate; or none. -/
inductive VSrc where
  | vv (b : VNum)
  | vx (b : Reg)
  | vi (i : BitVec 5)
  | none
  deriving DecidableEq, Repr

/-- The scalar operand of a vx or vi form in a format (R226); `k` planes for NI8. -/
def State.scalarOf (s : State) (f : Focus) (fmt k : Nat) : VSrc → Nat
  | .vx b =>
    let v := (s.rd f b.toNat).toNat % 2 ^ fmtWidth fmt
    if fmt = 1 then v / 2 ^ (8 - k) * 2 ^ (8 - k) else v
  | .vi i => (sext i).toNat % 2 ^ fmtWidth fmt
  | _ => 0

/-- Element (r, j) of the second operand of vA's format. -/
def State.operandAt (s : State) (f : Focus) (va : VReg) (src : VSrc) (r j : Nat) : Nat :=
  match src with
  | .vv b => ((s.mtOf f).vreg b.toNat).elem (fmtBytes va.fmt) r j
  | x => s.scalarOf f va.fmt (va.planes + 1) x

/-- The check of vB in a vv form: vA's format, unscaled, for NI8 the same planes (R57). -/
def Mt.sameAs (m : Mt) (va : VReg) : VSrc → List (Nat × Bool)
  | .vv b =>
    let vb := m.vreg b.toNat
    [(b.toNat, vb.fmt = va.fmt && !vb.scaled && (va.fmt ≠ 1 || vb.planes = va.planes))]
  | _ => []

def Mt.srcPoison (m : Mt) : VSrc → Bool
  | .vv b => (m.vreg b.toNat).poison
  | _ => false

/-- The VALU operations of R229 by their code of R77 (0 VADD .. 14 VCMPLT): the result on `w` bits. -/
def valu (code w a b : Nat) : Nat :=
  let sa := toSigned w a
  let sb := toSigned w b
  match code with
  | 0 => (a + b) % 2 ^ w
  | 1 => (a + 2 ^ w - b) % 2 ^ w
  | 2 => a * b % 2 ^ w
  | 3 => if sa ≤ sb then a else b
  | 4 => if sb ≤ sa then a else b
  | 5 => Nat.land a b
  | 6 => Nat.lor a b
  | 7 => Nat.xor a b
  | 8 => a * 2 ^ (b % w) % 2 ^ w
  | 9 => a / 2 ^ (b % w)
  | 10 => wrapTo w (sa / 2 ^ (b % w))
  | 11 => wrapTo w sa.natAbs
  | 12 => wrapTo w (-sa)
  | 13 => if a = b then 0xFF else 0
  | _ => if sa < sb then 0xFF else 0

/-- Write the active elements of vD: format `fd`, `w` bytes each, with the poison rule of R225. -/
def State.writeActive (s : State) (f : Focus) (d : VNum) (fd planes : Nat) (scaled : Bool) (cols : Nat) (poison : Bool)
    (e : Nat → Nat → Nat) : State :=
  let m := s.mtOf f
  let old := m.vreg d.toNat
  let w := fmtBytes fd
  s.setV f d.toNat
    { old.fill w (fun r j => if r < m.rows && j < cols then some (e r j) else none) with
      tag := mkTag fd planes scaled (old.poisonAfter poison (m.rows * cols * w)) }

/-- A VALU instruction but VSEL. -/
def valuOp (i : Instr) (code : Nat) (src : VSrc) (a d : VNum) (s : State) : Result :=
  vectorOp i
    (fun s f =>
      let m := s.mtOf f
      let va := m.vreg a.toNat
      (a.toNat, (isIntFmt va.fmt || (5 ≤ code && code ≤ 7 && va.fmt = 10)) && !va.scaled) :: m.sameAs va src)
    (fun s f =>
      let m := s.mtOf f
      let va := m.vreg a.toNat
      let fmt := va.fmt
      s.writeActive f d (if code = 13 || code = 14 then 10 else fmt) 0 false (m.cols fmt) (va.poison || m.srcPoison src)
        (fun r j => valu code (fmtWidth fmt) (va.elem (fmtBytes fmt) r j) (s.operandAt f va src r j))) s

/-- Whether a format has a vi form (R226). -/
def viForm (fmt : Nat) : Bool := isIntFmt fmt || fmt = 10

/-- VSEL (R226, R229): the selector in v0 counts as a source. -/
def vselOp (i : Instr) (src : VSrc) (a d : VNum) (s : State) : Result :=
  vectorOp i
    (fun s f =>
      let m := s.mtOf f
      let va := m.vreg a.toNat
      let v0 := m.vreg 0
      (a.toNat, 1 ≤ va.fmt && va.fmt ≤ 9 && !va.scaled) :: (a.toNat, match src with | .vi _ => viForm va.fmt | _ => true) ::
        (m.sameAs va src ++ [(0, v0.fmt = 10 && !v0.scaled)]))
    (fun s f =>
      let m := s.mtOf f
      let va := m.vreg a.toNat
      let v0 := m.vreg 0
      s.writeActive f d va.fmt va.planes false (m.cols va.fmt) (va.poison || v0.poison || m.srcPoison src)
        (fun r j => if v0.byte (64 * r + j) ≠ 0 then va.elem (fmtBytes va.fmt) r j else s.operandAt f va src r j)) s

def execVaddVv (b a d : VNum) (s : State) : Result := valuOp (.vaddVv b a d) 0 (.vv b) a d s
def execVaddVx (b : Reg) (a d : VNum) (s : State) : Result := valuOp (.vaddVx b a d) 0 (.vx b) a d s
def execVaddVi (i : BitVec 5) (a d : VNum) (s : State) : Result := valuOp (.vaddVi i a d) 0 (.vi i) a d s
def execVsubVv (b a d : VNum) (s : State) : Result := valuOp (.vsubVv b a d) 1 (.vv b) a d s
def execVsubVx (b : Reg) (a d : VNum) (s : State) : Result := valuOp (.vsubVx b a d) 1 (.vx b) a d s
def execVsubVi (i : BitVec 5) (a d : VNum) (s : State) : Result := valuOp (.vsubVi i a d) 1 (.vi i) a d s
def execVmulVv (b a d : VNum) (s : State) : Result := valuOp (.vmulVv b a d) 2 (.vv b) a d s
def execVmulVx (b : Reg) (a d : VNum) (s : State) : Result := valuOp (.vmulVx b a d) 2 (.vx b) a d s
def execVmulVi (i : BitVec 5) (a d : VNum) (s : State) : Result := valuOp (.vmulVi i a d) 2 (.vi i) a d s
def execVminVv (b a d : VNum) (s : State) : Result := valuOp (.vminVv b a d) 3 (.vv b) a d s
def execVminVx (b : Reg) (a d : VNum) (s : State) : Result := valuOp (.vminVx b a d) 3 (.vx b) a d s
def execVminVi (i : BitVec 5) (a d : VNum) (s : State) : Result := valuOp (.vminVi i a d) 3 (.vi i) a d s
def execVmaxVv (b a d : VNum) (s : State) : Result := valuOp (.vmaxVv b a d) 4 (.vv b) a d s
def execVmaxVx (b : Reg) (a d : VNum) (s : State) : Result := valuOp (.vmaxVx b a d) 4 (.vx b) a d s
def execVmaxVi (i : BitVec 5) (a d : VNum) (s : State) : Result := valuOp (.vmaxVi i a d) 4 (.vi i) a d s
def execVandVv (b a d : VNum) (s : State) : Result := valuOp (.vandVv b a d) 5 (.vv b) a d s
def execVandVx (b : Reg) (a d : VNum) (s : State) : Result := valuOp (.vandVx b a d) 5 (.vx b) a d s
def execVandVi (i : BitVec 5) (a d : VNum) (s : State) : Result := valuOp (.vandVi i a d) 5 (.vi i) a d s
def execVorVv (b a d : VNum) (s : State) : Result := valuOp (.vorVv b a d) 6 (.vv b) a d s
def execVorVx (b : Reg) (a d : VNum) (s : State) : Result := valuOp (.vorVx b a d) 6 (.vx b) a d s
def execVorVi (i : BitVec 5) (a d : VNum) (s : State) : Result := valuOp (.vorVi i a d) 6 (.vi i) a d s
def execVxorVv (b a d : VNum) (s : State) : Result := valuOp (.vxorVv b a d) 7 (.vv b) a d s
def execVxorVx (b : Reg) (a d : VNum) (s : State) : Result := valuOp (.vxorVx b a d) 7 (.vx b) a d s
def execVxorVi (i : BitVec 5) (a d : VNum) (s : State) : Result := valuOp (.vxorVi i a d) 7 (.vi i) a d s
def execVshlVv (b a d : VNum) (s : State) : Result := valuOp (.vshlVv b a d) 8 (.vv b) a d s
def execVshlVx (b : Reg) (a d : VNum) (s : State) : Result := valuOp (.vshlVx b a d) 8 (.vx b) a d s
def execVshlVi (i : BitVec 5) (a d : VNum) (s : State) : Result := valuOp (.vshlVi i a d) 8 (.vi i) a d s
def execVshrVv (b a d : VNum) (s : State) : Result := valuOp (.vshrVv b a d) 9 (.vv b) a d s
def execVshrVx (b : Reg) (a d : VNum) (s : State) : Result := valuOp (.vshrVx b a d) 9 (.vx b) a d s
def execVshrVi (i : BitVec 5) (a d : VNum) (s : State) : Result := valuOp (.vshrVi i a d) 9 (.vi i) a d s
def execVsraVv (b a d : VNum) (s : State) : Result := valuOp (.vsraVv b a d) 10 (.vv b) a d s
def execVsraVx (b : Reg) (a d : VNum) (s : State) : Result := valuOp (.vsraVx b a d) 10 (.vx b) a d s
def execVsraVi (i : BitVec 5) (a d : VNum) (s : State) : Result := valuOp (.vsraVi i a d) 10 (.vi i) a d s
def execVcmpeqVv (b a d : VNum) (s : State) : Result := valuOp (.vcmpeqVv b a d) 13 (.vv b) a d s
def execVcmpeqVx (b : Reg) (a d : VNum) (s : State) : Result := valuOp (.vcmpeqVx b a d) 13 (.vx b) a d s
def execVcmpeqVi (i : BitVec 5) (a d : VNum) (s : State) : Result := valuOp (.vcmpeqVi i a d) 13 (.vi i) a d s
def execVcmpltVv (b a d : VNum) (s : State) : Result := valuOp (.vcmpltVv b a d) 14 (.vv b) a d s
def execVcmpltVx (b : Reg) (a d : VNum) (s : State) : Result := valuOp (.vcmpltVx b a d) 14 (.vx b) a d s
def execVcmpltVi (i : BitVec 5) (a d : VNum) (s : State) : Result := valuOp (.vcmpltVi i a d) 14 (.vi i) a d s
def execVabs (a d : VNum) (s : State) : Result := valuOp (.vabs a d) 11 .none a d s
def execVneg (a d : VNum) (s : State) : Result := valuOp (.vneg a d) 12 .none a d s
def execVselVv (b a d : VNum) (s : State) : Result := vselOp (.vselVv b a d) (.vv b) a d s
def execVselVx (b : Reg) (a d : VNum) (s : State) : Result := vselOp (.vselVx b a d) (.vx b) a d s
def execVselVi (i : BitVec 5) (a d : VNum) (s : State) : Result := vselOp (.vselVi i a d) (.vi i) a d s

/-! ## VFP (R50, R65, R230) -/

/-- The VFP operations by their code of R77: vA, vB, vD to an element of the format. -/
def vfp (code : Nat) (p : FpFmt) (a b c : Nat) : Nat :=
  let x := p.value a
  let y := p.value b
  match code with
  | 0 => p.round (x.add y)
  | 1 => p.round (x.add y.negate)
  | 2 => p.round (x.mul y)
  | 3 => p.round ((x.mul y).add (p.value c))
  | 4 => p.round (x.minOf y)
  | 5 => p.round (x.maxOf y)
  | 6 => p.fnExp2 x
  | 7 => p.fnLog2 x
  | 8 => p.fnRcp x
  | 9 => p.fnRsq x
  | 10 => if x.lt y then 0xFF else 0
  | _ => if x.eqv y then 0xFF else 0

/-- A VFP instruction (R230). VFMA, code 3, also reads vD. -/
def vfpOp (i : Instr) (code : Nat) (src : VSrc) (a d : VNum) (s : State) : Result :=
  vectorOp i
    (fun s f =>
      let m := s.mtOf f
      let va := m.vreg a.toNat
      let vd := m.vreg d.toNat
      (a.toNat, isFpFmt va.fmt && !va.scaled) :: m.sameAs va src ++
        (if code = 3 then [(d.toNat, vd.fmt = va.fmt && !vd.scaled)] else []))
    (fun s f =>
      let m := s.mtOf f
      let va := m.vreg a.toNat
      let vd := m.vreg d.toNat
      let fmt := va.fmt
      let w := fmtBytes fmt
      match fpFmt fmt with
      | some p =>
        s.writeActive f d (if 10 ≤ code then 10 else fmt) 0 false (m.cols fmt)
          (va.poison || m.srcPoison src || (code = 3 && vd.poison))
          (fun r j => vfp code p (va.elem w r j) (s.operandAt f va src r j) (vd.elem w r j))
      | none => s) s

def execVfaddVv (b a d : VNum) (s : State) : Result := vfpOp (.vfaddVv b a d) 0 (.vv b) a d s
def execVfaddVx (b : Reg) (a d : VNum) (s : State) : Result := vfpOp (.vfaddVx b a d) 0 (.vx b) a d s
def execVfsubVv (b a d : VNum) (s : State) : Result := vfpOp (.vfsubVv b a d) 1 (.vv b) a d s
def execVfsubVx (b : Reg) (a d : VNum) (s : State) : Result := vfpOp (.vfsubVx b a d) 1 (.vx b) a d s
def execVfmulVv (b a d : VNum) (s : State) : Result := vfpOp (.vfmulVv b a d) 2 (.vv b) a d s
def execVfmulVx (b : Reg) (a d : VNum) (s : State) : Result := vfpOp (.vfmulVx b a d) 2 (.vx b) a d s
def execVfmaVv (b a d : VNum) (s : State) : Result := vfpOp (.vfmaVv b a d) 3 (.vv b) a d s
def execVfmaVx (b : Reg) (a d : VNum) (s : State) : Result := vfpOp (.vfmaVx b a d) 3 (.vx b) a d s
def execVfminVv (b a d : VNum) (s : State) : Result := vfpOp (.vfminVv b a d) 4 (.vv b) a d s
def execVfminVx (b : Reg) (a d : VNum) (s : State) : Result := vfpOp (.vfminVx b a d) 4 (.vx b) a d s
def execVfmaxVv (b a d : VNum) (s : State) : Result := vfpOp (.vfmaxVv b a d) 5 (.vv b) a d s
def execVfmaxVx (b : Reg) (a d : VNum) (s : State) : Result := vfpOp (.vfmaxVx b a d) 5 (.vx b) a d s
def execVfcmpltVv (b a d : VNum) (s : State) : Result := vfpOp (.vfcmpltVv b a d) 10 (.vv b) a d s
def execVfcmpltVx (b : Reg) (a d : VNum) (s : State) : Result := vfpOp (.vfcmpltVx b a d) 10 (.vx b) a d s
def execVfcmpeqVv (b a d : VNum) (s : State) : Result := vfpOp (.vfcmpeqVv b a d) 11 (.vv b) a d s
def execVfcmpeqVx (b : Reg) (a d : VNum) (s : State) : Result := vfpOp (.vfcmpeqVx b a d) 11 (.vx b) a d s
def execVfexp2 (a d : VNum) (s : State) : Result := vfpOp (.vfexp2 a d) 6 .none a d s
def execVflog2 (a d : VNum) (s : State) : Result := vfpOp (.vflog2 a d) 7 .none a d s
def execVfrcp (a d : VNum) (s : State) : Result := vfpOp (.vfrcp a d) 8 .none a d s
def execVfrsq (a d : VNum) (s : State) : Result := vfpOp (.vfrsq a d) 9 .none a d s

/-! ## Conversions, scales and tags (R234-R237) -/

/-- Columns that a conversion covers: bounded by both formats (R234). -/
def Mt.cvtCols (m : Mt) (fs fd : Nat) : Nat := min (m.cols fs) (m.cols fd)

/-- The element a conversion of vA into vD delivers (R54, R61, R234): NI8 with `p + 1` planes. -/
def cvtElem (va vd : VReg) (fd p r j : Nat) : Nat :=
  if fd = 1 then quantise (p + 1) ((va.value r j).scale (-(vd.rowScale r))) else convertTo fd 0 (va.value r j)

/-- VCVT into vD (R234). -/
def State.convertV (s : State) (f : Focus) (p fd : Nat) (a d : VNum) : State :=
  let m := s.mtOf f
  let va := m.vreg a.toNat
  let vd := m.vreg d.toNat
  s.writeActive f d fd (if fd = 1 then p else 0) (fd = 1 && vd.scaled) (m.cvtCols va.fmt fd) va.poison
    (fun r j => cvtElem va vd fd p r j)

def execVcvt (p : BitVec 3) (q : BitVec 4) (a d : VNum) (s : State) : Result :=
  vectorOp (.vcvt p q a d)
    (fun s f =>
      let va := (s.mtOf f).vreg a.toNat
      [(a.toNat, 1 ≤ va.fmt && va.fmt ≤ 9), (d.toNat, 1 ≤ q.toNat && q.toNat ≤ 9)])
    (fun s f => s.convertV f p.toNat q.toNat a d) s

/-- The residual of one element (R235): x − value(hi), rounded once; an infinite hi gives the opposite infinity. -/
def residual (p : FpFmt) (x hi : ExactNum) : Nat :=
  match x, hi with
  | .nan, _ => p.canonNan
  | _, .inf neg => p.round (.inf (!neg))
  | y, h => p.round (y.add h.negate)

/-- VSPLIT (R235). -/
def execVsplit (p : BitVec 3) (q : BitVec 4) (a d : VNum) (s : State) : Result :=
  vectorOp (.vsplit p q a d)
    (fun s f =>
      let va := (s.mtOf f).vreg a.toNat
      let fd := q.toNat
      [(a.toNat, isFpFmt va.fmt && !va.scaled), (d.toNat, fd = 1 || (5 ≤ fd && fd ≤ 8))])
    (fun s f =>
      let m := s.mtOf f
      let va := m.vreg a.toNat
      let s1 := s.convertV f p.toNat q.toNat a d
      let hi := (s1.mtOf f).vreg d.toNat
      let cols := m.cvtCols va.fmt q.toNat
      match fpFmt va.fmt with
      | some pf =>
        s1.setV f a.toNat
          { va.fill (fmtBytes va.fmt) (fun r j =>
              if r < m.rows && j < cols then some (residual pf (va.value r j) (hi.value r j)) else none) with
            tag := mkTag va.fmt 0 false (va.poison || hi.poison) }
      | none => s1) s

/-- VSCALE (R236). -/
def execVscale (b : Reg) (a d : VNum) (s : State) : Result :=
  run (.vscale b a d) s (fun f =>
    let m := s.mtOf f
    let va := m.vreg a.toNat
    let vd := m.vreg d.toNat
    let w := s.rd f b.toNat
    let mode := fld w 8 3
    let c := fld w 0 6
    let num := 1 ≤ va.fmt && va.fmt ≤ 9
    let sums := (List.range m.rows).map (fun r => va.scaleOf r + toSigned 8 (fld w 0 8))
    let checks : List (Nat × Bool) :=
      match mode with
      | 0 => [(a.toNat, num)]
      | 1 => [(a.toNat, va.scaled && sums.all (fun x => -128 ≤ x && x ≤ 127))]
      | 2 => [(a.toNat, va.fmt = 2 && !va.scaled), (d.toNat, 1 ≤ vd.fmt && vd.fmt ≤ 9)]
      | _ => [(a.toNat, va.fmt ≠ 0)]
    if 5 ≤ mode then s.raise f 4 cIllegal (encodeWord (.vscale b a d))
    else
      match firstBad checks with
      | some n => s.badFormat f n
      | none =>
        let act := fun (g : Nat → Byte) (r : Nat) => if r < m.rows then some (g r) else none
        let v : VReg :=
          match mode with
          | 0 => { va.fillScale (act (fun _ => BitVec.ofNat 8 (fld w 0 8))) with tag := mkTag va.fmt va.planes true va.poison }
          | 1 => { va.fillScale (act (fun r => BitVec.ofInt 8 (sums.getD r 0))) with tag := va.tag }
          | 2 =>
            { vd.fillScale (act (fun r => va.byte (64 * r + c))) with
              tag := mkTag vd.fmt vd.planes true (va.poison || vd.poison) }
          | 3 =>
            { vd.fill 1 (fun r j => if r < m.rows && j = c then some (va.scaleByte r).toNat else none) with
              tag := mkTag 2 0 false (va.poison || vd.poison) }
          | _ => { va with tag := mkTag va.fmt va.planes false va.poison }
        (s.setV f d.toNat v).retire f 4)

/-- VTAG (R237). -/
def execVtag (a : Reg) (d : VNum) (s : State) : Result :=
  run (.vtag a d) s (fun f =>
    let t := fld (s.rd f a.toNat) 0 16
    let vd := (s.mtOf f).vreg d.toNat
    if badTag t then s.badFormat f d.toNat
    else
      (s.setV f d.toNat { vd with tag := mkTag (t % 16) (t / 16 % 8) (nbit t 7) (vd.poison || nbit t 8) }).retire f 4)

/-! ## Reductions (R64, R238) -/

/-- The running values of a fold over a list, the first element as it stands. -/
def runs (step : Nat → Nat → Nat) : Nat → List Nat → List Nat
  | acc, [] => [acc]
  | acc, x :: t => acc :: runs step (step acc x) t

/-- The running values of a reduction along a list of elements of format `fs` (R64): `op` 0 sum, 1 max, 2 min, 3 scan.
Sums run in I32 or FP32; extremes in the format itself. -/
def reduceRuns (op fs : Nat) (l : List Nat) : List Nat :=
  let f32 : FpFmt := ⟨8, 23, 127, true⟩
  match l with
  | [] => []
  | x :: t =>
    if isIntFmt fs then
      let w := fmtWidth fs
      if op = 0 || op = 3 then
        runs (fun acc y => (acc + y) % 2 ^ 32) (wrapTo 32 (toSigned w x)) (t.map (fun y => wrapTo 32 (toSigned w y)))
      else if op = 1 then runs (fun acc y => if toSigned w acc < toSigned w y then y else acc) x t
      else runs (fun acc y => if toSigned w y < toSigned w acc then y else acc) x t
    else
      match fpFmt fs with
      | none => []
      | some p =>
        if op = 0 || op = 3 then
          runs (fun acc y => f32.round ((f32.value acc).add (f32.value y))) (f32.round (p.value x))
            (t.map (fun y => f32.round (p.value y)))
        else if op = 1 then runs (fun acc y => p.round ((p.value acc).maxOf (p.value y))) (p.round (p.value x)) t
        else runs (fun acc y => p.round ((p.value acc).minOf (p.value y))) (p.round (p.value x)) t

/-- The destination format (R238). -/
def reduceFmt (op fs : Nat) : Nat := if op = 0 && isIntFmt fs then 4 else fs

/-- out(acc): a running value in the destination format (R64, R238). -/
def reduceOut (op fs acc : Nat) : Nat :=
  if op = 0 || op = 3 then
    (if isIntFmt fs then satTo (fmtWidth (reduceFmt op fs)) (toSigned 32 acc)
     else convertTo fs 0 (elemValue 9 0 acc))
  else acc

/-- VRSUM, VRMAX, VRMIN, VSCAN along rows or columns (R238). -/
def reduceOp (i : Instr) (op : Nat) (col : Bool) (a d : VNum) (s : State) : Result :=
  vectorOp i
    (fun s f =>
      let va := (s.mtOf f).vreg a.toNat
      [(a.toNat, (isIntFmt va.fmt || isFpFmt va.fmt) && !va.scaled)])
    (fun s f =>
      let m := s.mtOf f
      let va := m.vreg a.toNat
      let fs := va.fmt
      let fd := reduceFmt op fs
      let w := fmtBytes fd
      let rows := m.rows
      let cols := m.cols fs
      let lines := if col then (List.range cols).map (fun j => (List.range rows).map (fun r => va.elem (fmtBytes fs) r j))
        else (List.range rows).map (fun r => (List.range cols).map (fun j => va.elem (fmtBytes fs) r j))
      let res := lines.map (fun l => (reduceRuns op fs l).map (reduceOut op fs))
      let old := m.vreg d.toNat
      let e : Nat → Nat → Option Nat :=
        if op = 3 then
          fun r j => if r < rows && j < cols then some ((res.getD (if col then j else r) []).getD (if col then r else j) 0) else none
        else if col then
          fun r j => if r * fmtEpr fd + j < cols then some (((res.getD (r * fmtEpr fd + j) []).getLast?).getD 0) else none
        else fun r j => if r < rows && j = 0 then some (((res.getD r []).getLast?).getD 0) else none
      let written := if op = 3 then rows * cols * w else if col then cols * w else rows * w
      s.setV f d.toNat { old.fill w e with tag := mkTag fd 0 false (old.poisonAfter va.poison written) }) s

def execVrsumRow (a d : VNum) (s : State) : Result := reduceOp (.vrsumRow a d) 0 false a d s
def execVrsumCol (a d : VNum) (s : State) : Result := reduceOp (.vrsumCol a d) 0 true a d s
def execVrmaxRow (a d : VNum) (s : State) : Result := reduceOp (.vrmaxRow a d) 1 false a d s
def execVrmaxCol (a d : VNum) (s : State) : Result := reduceOp (.vrmaxCol a d) 1 true a d s
def execVrminRow (a d : VNum) (s : State) : Result := reduceOp (.vrminRow a d) 2 false a d s
def execVrminCol (a d : VNum) (s : State) : Result := reduceOp (.vrminCol a d) 2 true a d s
def execVscanRow (a d : VNum) (s : State) : Result := reduceOp (.vscanRow a d) 3 false a d s
def execVscanCol (a d : VNum) (s : State) : Result := reduceOp (.vscanCol a d) 3 true a d s

/-! ## Moves and element access (R239-R243) -/

/-- VSHAPE (R239). -/
def execVshape (a : Reg) (s : State) : Result :=
  run (.vshape a) s (fun f =>
    let w := s.rd f a.toNat
    (s.modMt f.core (f.thr - 1) (fun m => { m with shape := w64 (fld w 0 5 + 2 ^ 8 * fld w 8 6) })).retire f 4)

/-- The check that vA holds some format. -/
def someFmt (a : VNum) (s : State) (f : Focus) : List (Nat × Bool) := [(a.toNat, ((s.mtOf f).vreg a.toNat).fmt ≠ 0)]

/-- VMOV (R240): the whole register. -/
def execVmov (a d : VNum) (s : State) : Result :=
  vectorOp (.vmov a d) (someFmt a) (fun s f => s.setV f d.toNat ((s.mtOf f).vreg a.toNat)) s

/-- VBCR and VBCC (R241): element (r, j) of the active part from row `src r` and column `col j` of vA, each row with the
scale byte of its source row. -/
def State.broadcast (s : State) (f : Focus) (a d : VNum) (row col : Nat → Nat) : State :=
  let m := s.mtOf f
  let va := m.vreg a.toNat
  let w := fmtBytes va.fmt
  let s1 := s.writeActive f d va.fmt va.planes va.scaled (m.cols va.fmt) va.poison (fun r j => va.elem w (row r) (col j))
  s1.setV f d.toNat (((s1.mtOf f).vreg d.toNat).fillScale (fun r => if r < m.rows then some (va.scaleByte (row r)) else none))

def execVbcr (b : Reg) (a d : VNum) (s : State) : Result :=
  vectorOp (.vbcr b a d) (someFmt a) (fun s f => s.broadcast f a d (fun _ => fld (s.rd f b.toNat) 0 5) id) s

def execVbcc (b : Reg) (a d : VNum) (s : State) : Result :=
  vectorOp (.vbcc b a d) (someFmt a)
    (fun s f => s.broadcast f a d id (fun _ => fld (s.rd f b.toNat) 0 6 % fmtEpr ((s.mtOf f).vreg a.toNat).fmt)) s

/-- VTRN (R242): elements whose transposed place falls outside the register are dropped. -/
def execVtrn (a d : VNum) (s : State) : Result :=
  vectorOp (.vtrn a d)
    (fun s f => let va := (s.mtOf f).vreg a.toNat; [(a.toNat, va.fmt ≠ 0 && !va.scaled)])
    (fun s f =>
      let m := s.mtOf f
      let va := m.vreg a.toNat
      let old := m.vreg d.toNat
      let w := fmtBytes va.fmt
      let cols := m.cols va.fmt
      let written := min cols 32 * min m.rows (fmtEpr va.fmt) * w
      s.setV f d.toNat
        { old.fill w (fun r j => if r < cols && j < m.rows then some (va.elem w j r) else none) with
          tag := mkTag va.fmt va.planes false (old.poisonAfter va.poison written) }) s

/-- VINS (R243). -/
def execVins (b a : Reg) (d : VNum) (s : State) : Result :=
  vectorOp (.vins b a d) (someFmt d)
    (fun s f =>
      let vd := (s.mtOf f).vreg d.toNat
      let w := s.rd f b.toNat
      let c := fld w 0 6 % fmtEpr vd.fmt
      let x := (s.rd f a.toNat).toNat % 2 ^ fmtWidth vd.fmt
      let y := if vd.fmt = 1 then x / 2 ^ (7 - vd.planes) * 2 ^ (7 - vd.planes) else x
      s.setV f d.toNat (vd.fill (fmtBytes vd.fmt) (fun r j => if r = fld w 8 5 && j = c then some y else none))) s

/-- The register value that VEXT delivers (R243). -/
def extracted (v : VReg) (e : Nat) : Word :=
  if v.fmt = 1 then wInt (ni8Value (v.planes + 1) e)
  else if isIntFmt v.fmt then wInt (toSigned (fmtWidth v.fmt) e) else w64 e

/-- VEXT (R58, R243, R372); one that sets CHKI waits for the earlier loads of its thread (R38). -/
def execVext (b : Reg) (a : VNum) (d : Reg) (s : State) : Result :=
  run (.vext b a d) s (fun f =>
    let va := (s.mtOf f).vreg a.toNat
    let w := s.rd f b.toNat
    if va.fmt = 0 then s.badFormat f a.toNat
    else if va.poison && !(s.pendOf f).isEmpty then s
    else
      (s.chkiIf f.core chkVext va.poison).finish f 4 d.toNat
        (extracted va (va.elem (fmtBytes va.fmt) (fld w 8 5) (fld w 0 6 % fmtEpr va.fmt))))

end Sys2Proof.Machine
end

