-- ==== Sys2Proof/Machine/VectorMem.lean ====
section
/-! DEFINITION. The vector loads and stores (R231-R233): the whole check first, then parts that return, or granules that
leave one by one. -/
namespace Sys2Proof.Machine

/-- The first cause that the checks of a read or write of several ranges give, in the order of R90: GATE on any range,
MISALIGN of the base, ACCESS at the lowest address refused. -/
def State.rangesCause (s : State) (c ctx va align : Nat) (rs : List (Nat × Nat)) (right kind : Nat) (tombOk : Bool) :
    Option (Nat × Word) :=
  if rs.any (fun r => s.gateRefused c ctx r.1 r.2 kind) then some (cGate, 0xFFFF_FFFF_FFFF_FFFF)
  else if va % align ≠ 0 then some (cMisalign, w64 va)
  else (rs.findSome? (fun r => s.refusedByte c ctx r.1 r.2 right tombOk)).map (fun a => (cAccess, w64 a))

/-- A vector load of some ranges: the checks, a watchpoint, the parts; `done` writes the register from the bytes and their
poison. Parts that have returned already were checked when they left. -/
def vectorLoad (s : State) (f : Focus) (va align planes : Nat) (rs : List (Nat × Nat)) (done : State → List Byte → Bool → State) : State :=
  match if (s.gotOf f).isEmpty then s.rangesCause f.core (s.ctxOf f.core) va align rs rRead kRead false else none with
  | some (code, tv) => s.raise f 4 code tv
  | none =>
    match rs.findSome? (fun r => s.watchHit f r.1 r.2 0) with
    | some (k, w) => if (s.pendOf f).isEmpty then s.stopEvent f 4 2 k w else s
    | none =>
      match s.gatherAll f va planes rs with
      | .wait t => t
      | .bad v => (s.setGot f []).raise f 4 cAccess v
      | .done bs poison frame => (done ((s.setGot f []).frameSeen f frame) bs poison).retire f 4

/-- VLD (R231, R232). -/
def execVld (q : BitVec 5) (a : Reg) (d : VNum) (s : State) : Result :=
  run (.vld q a d) s (fun f =>
    let m := s.mtOf f
    let fmt := q.toNat
    let w := fmtBytes fmt
    let cols := m.cols fmt
    let va := (s.rd f a.toNat).toNat
    vectorLoad s f va w 0 [(va, m.rows * cols * w)] (fun t bs poison =>
      t.writeActive f d fmt (if fmt = 1 then 7 else 0) false cols poison (fun r j => ofLe ((bs.drop ((r * cols + j) * w)).take w))))

/-- Bit (p, e) of a plane-major row (R43, R233). -/
def planeBit (row : List Byte) (p e : Nat) : Bool := nbit (row.getD (16 * (7 - p) + e / 8) 0).toNat (e % 8)

/-- The byte of element e of a plane-major row read to k planes (R44, R233). -/
def planeByte (row : List Byte) (k e : Nat) : Nat :=
  (List.range k).foldl (fun n q => n + b2n (planeBit row (8 - k + q) e) * 2 ^ (8 - k + q)) 0

/-- VLDP (R233). -/
def execVldp (k : BitVec 5) (a : Reg) (d : VNum) (s : State) : Result :=
  run (.vldp k a d) s (fun f =>
    let m := s.mtOf f
    let va := (s.rd f a.toNat).toNat
    let n := 16 * k.toNat
    vectorLoad s f va 128 n ((List.range ((m.rows + 1) / 2)).map (fun q => (va + 128 * q, n))) (fun t bs poison =>
      t.writeActive f d 1 (k.toNat - 1) false 64 poison
        (fun r j => planeByte ((bs.drop (n * (r / 2))).take n) k.toNat (64 * (r % 2) + j))))

/-! ## Stores -/

/-- The frames that a range touches, each with its first piece (R355). -/
def State.framesOf (s : State) (c ctx va n : Nat) : List (Nat × Nat × Xlat) :=
  (pieces 32 va n).foldl (fun l p =>
    match s.look c ctx p.1 with
    | .hit x => if l.any (fun q => q.2.2.la / 4096 = x.la / 4096) then l else l ++ [(p.1, p.2, x)]
    | _ => l) []

/-- A store that touches more than one frame sends a probe to each frame of memory and of the host (R355). -/
def State.sendProbes (s : State) (f : Focus) (attr va n : Nat) : State :=
  let fs := s.framesOf f.core (s.ctxOf f.core) va n
  if fs.length ≤ 1 then s.modMt f.core (f.thr - 1) (fun m => { m with grp := 0 })
  else
    let g := s.nextAcc + 1
    (fs.foldl (fun (t : State) q =>
      if isScratch q.2.2.la then t else t.newAcc f (.probe g) (w64 q.1) { q.2.2 with attr := attr } q.2.1 0) s).modMt f.core
      (f.thr - 1) (fun m => { m with grp := g })

/-- One granule store has been issued. -/
def State.granuleOut (s : State) (f : Focus) (va : Nat) (bs : List Byte) : State :=
  (s.foldStore f (w64 va) bs).modMt f.core (f.thr - 1) (fun m => { m with prog := m.prog + 1 })

/-- What has become of the granules of a vector store: all issued, or one must wait. -/
inductive Granules where
  | out (s : State)
  | wait (s : State)
  deriving DecidableEq, Repr

/-- Whether an own-bank granule of a store that sent probes must wait for them (R232, R355), and whether one was refused, so that
nothing is written. -/
def State.probesOpen (s : State) (f : Focus) (grp : Nat) : Bool :=
  grp ≠ 0 && (s.probesOf (s.ctxOf f.core) f.core grp).any (fun a => !a.st.settled)

def State.probesBad (s : State) (f : Focus) (grp : Nat) : Bool :=
  grp ≠ 0 && (s.probesOf (s.ctxOf f.core) f.core grp).any (fun a => match a.st with | .refused _ => true | _ => false)

/-- Issue granule stores in ascending order until one must wait (R232, R244, R267, R355). A granule of the core's own bank performs
at once, behind the probes, the claims and the earlier loads of its thread; one whose bank has taken the cut of its page meanwhile is
refused as a tombstoned one is (R324, R332). -/
def State.granules (f : Focus) (attr grp : Nat) (poison : Bool) : List (Nat × List Byte) → State → Granules
  | [], s => .out s
  | (va, bs) :: t, s =>
    let refused := fun (reason : Nat) =>
      match s.refusedStore f reason { JEntry.free with va := w64 va, data := bs, size := bs.length, grp := grp } with
      | some u => State.granules f attr grp poison t (u.granuleOut f va bs)
      | none => .wait (s.waitHeld f (fun _ => true))
    match s.look f.core (s.ctxOf f.core) va with
    | .hit x =>
      let s1 := s.chkiIf f.core chkLost (poison && s.classAt x.la = 2)
      if s.claimed f.core x.la bs.length || (poison && s.classAt x.la = 2 && !(s.pendOf f).isEmpty) then .wait s
      else if s.storesAtOnce f.core x.la then
        if attr = 0 && s.soBusy f then .wait (s.waitHeld f (JEntry.soOf f.thr))
        else if !(s.pendOf f).isEmpty || s.probesOpen f grp then .wait s
        else if s.cutAt x.node (s.targetOf x.la) then refused 1
        else if s.frameShut (s.ctxOf f.core) x.la then refused 2
        else if s.probesBad f grp then State.granules f attr grp poison t (s.granuleOut f va bs)
        else State.granules f attr grp poison t ((s1.localStore x.la bs false poison).granuleOut f va bs)
      else
        match s1.post1 f (w64 va) { x with attr := attr } bs false poison grp with
        | some u => State.granules f attr grp poison t (u.granuleOut f va bs)
        | none => .wait (s.waitHeld f (fun _ => true))
    | _ => refused 1

/-- The vector store of a thread has issued every granule: its group needs no more probes held for it (R355). -/
def State.storeOut (s : State) (f : Focus) : State :=
  let g := (s.mtOf f).grp
  let t := s.modMt f.core (f.thr - 1) (fun m => { m with prog := 0, grp := 0 })
  if g = 0 then t else t.endHolds (s.ctxOf f.core) f.core g

/-- A vector store of some bytes at `va` (R232, R355): checks before the first granule, probes, granules, and the
instruction retires when the last has been issued. -/
def vectorStore (s : State) (f : Focus) (va align : Nat) (bs : List Byte) (poison : Bool) (formatOk : Bool) (d : Nat) : State :=
  let c := f.core
  let ctx := s.ctxOf c
  let n := bs.length
  let m := s.mtOf f
  let attr := s.strongest c ctx va n
  let parts := (pieces 16 va n).map (fun p => (p.1, (bs.drop (p.1 - va)).take p.2))
  let go := fun (t : State) =>
    match State.granules f attr (t.mtOf f).grp poison (parts.drop (t.mtOf f).prog) t with
    | .out u => (u.storeOut f).retire f 4
    | .wait u => u
  if m.prog ≠ 0 || m.grp ≠ 0 then go s
  else if s.gateRefused c ctx va n kWrite then s.raise f 4 cGate 0xFFFF_FFFF_FFFF_FFFF
  else if !formatOk then s.badFormat f d
  else
    match s.accessCause c ctx va n align rWrite kWrite true with
    | some (code, tv) => s.raise f 4 code tv
    | none =>
      match s.watchHit f va n 1 with
      | some (k, w) => if (s.pendOf f).isEmpty then s.stopEvent f 4 2 k w else s
      | none => if attr = 0 && s.soBusy f then s.waitHeld f (JEntry.soOf f.thr) else go (s.sendProbes f attr va n)

/-- VST (R231, R232). -/
def execVst (a : Reg) (d : VNum) (s : State) : Result :=
  run (.vst a d) s (fun f =>
    let m := s.mtOf f
    let v := m.vreg d.toNat
    let w := fmtBytes v.fmt
    let span := m.cols v.fmt * w
    vectorStore s f (s.rd f a.toNat).toNat (max w 1)
      ((List.range m.rows).flatMap (fun r => (List.range span).map (fun k => v.byte (64 * r + k)))) v.poison (v.fmt ≠ 0) d.toNat)

/-- The 128 bytes of a plane-major row of the stored bytes `e 0 .. e 127` (R43, R45). -/
def planeRow (e : Nat → Nat) : List Byte :=
  (List.range 128).map (fun m =>
    BitVec.ofNat 8 ((List.range 8).foldl (fun n b => n + b2n (nbit (e (8 * (m % 16) + b)) (7 - m / 16)) * 2 ^ b) 0))

/-- VSTP (R233). -/
def execVstp (k : BitVec 5) (a : Reg) (d : VNum) (s : State) : Result :=
  run (.vstp k a d) s (fun f =>
    let m := s.mtOf f
    let v := m.vreg d.toNat
    let bs := (List.range ((m.rows + 1) / 2)).flatMap (fun q =>
      planeRow (fun e => ni8Fill k.toNat (v.byte (64 * (2 * q + e / 64) + e % 64)).toNat))
    vectorStore s f (s.rd f a.toNat).toNat 128 bs v.poison (v.fmt = 1 && k.toNat ≤ v.planes + 1) d.toNat)

end Sys2Proof.Machine
end

