-- ==== Sys2Proof/Machine/Xts.lean ====
section
/-! DEFINITION. Compartment keys: the XTS units of keyed frames (R389, R393, R394). -/
namespace Sys2Proof.Machine

/-- Bytes combined with exclusive or. -/
def xorBytes (a b : List Byte) : List Byte := List.zipWith (· ^^^ ·) a b

/-- A list cut or padded to one block of 16 bytes. -/
def block16 (l : List Byte) : List Byte := (l ++ List.replicate 16 0).take 16

/-- One multiplication by α in GF(2^128) as IEEE 1619 gives it (R393): the block as a little-endian number. -/
def mulAlpha (t : List Byte) : List Byte :=
  let n := ofLe t * 2
  leBytes 16 (if n < 2 ^ 128 then n else Nat.xor (n - 2 ^ 128) 0x87)

/-- The enciphered tweak of block `j` of a line (R393). -/
def blockTweak (key2 : List Byte) (line : Nat) : Nat → List Byte
  | 0 => block16 (Config.aes256 key2 (leBytes 16 line))
  | j + 1 => mulAlpha (blockTweak key2 line j)

/-- Encipher and decipher the 16-byte block at a logical address under a key pair (R393). -/
def xtsEncipher (key : List Byte) (la : Nat) (b : List Byte) : List Byte :=
  let t := blockTweak (key.drop 32) (la / 128) (la / 16 % 8)
  xorBytes (block16 (Config.aes256 (key.take 32) (xorBytes b t))) t

def xtsDecipher (key : List Byte) (la : Nat) (b : List Byte) : List Byte :=
  let t := blockTweak (key.drop 32) (la / 128) (la / 16 % 8)
  xorBytes (block16 (Config.aes256Inv (key.take 32) (xorBytes b t))) t

/-- A run of whole blocks from a logical address, enciphered or deciphered. -/
def xtsBlocks (f : Nat → List Byte → List Byte) (la : Nat) (bs : List Byte) : List Byte :=
  (List.range (bs.length / 16)).flatMap (fun k => f (la + 16 * k) ((bs.drop (16 * k)).take 16))

/-- A frame's bytes enciphered and deciphered under a key pair; without one they stand as they are. -/
def encipherFrame (key : List Byte) (frame : Nat) (bs : List Byte) : List Byte :=
  if key.isEmpty then bs else xtsBlocks (xtsEncipher key) (frame * 4096) bs

def decipherFrame (key : List Byte) (frame : Nat) (bs : List Byte) : List Byte :=
  if key.isEmpty then bs else xtsBlocks (xtsDecipher key) (frame * 4096) bs

/-- The key pair that a world's DO lines are enciphered under now (R394); none where it has none. -/
def State.doKey (s : State) (vf : Nat) : List Byte :=
  if (s.world vf).doslot = 0xFF then [] else (s.keySlot (s.world vf).doslot).key

/-- The key pair that the MXU applies to a frame now: the DO key of its world (R394); MO lines and others stand as they are. -/
def State.frameKey (s : State) (frame : Nat) : List Byte :=
  if (s.frame frame).comp = 2 then s.doKey (s.frame frame).vf else []

/-- From now on the MXU deciphers a frame under another key pair (R394): its ciphertext stays, and what is read of it changes.
A frame that is not resident has no ciphertext here. -/
def State.rekeyFrame (s : State) (frame : Nat) (key : List Byte) : State :=
  let old := (s.frame frame).ckey
  if old = key || (s.frame frame).st = .nonres then s
  else
    let turn := fun (m : SMap Byte) =>
      putBytes m (frame * 4096)
        (decipherFrame key frame (encipherFrame old frame ((List.range 4096).map (fun k => SMap.get 0 m (frame * 4096 + k)))))
    { s with mem := turn s.mem, dram := turn s.dram }.modFrame frame (fun f => { f with ckey := key })

/-- A world's DO key has been installed: its DO frames are read under it (R394). -/
def State.rekeyWorld (s : State) (vf : Nat) : State :=
  (s.frames.filter (fun p => p.2.comp = 2 && p.2.vf = vf && isMemory (p.1 * 4096))).foldl
    (fun (t : State) p => t.rekeyFrame p.1 (t.doKey vf)) s

end Sys2Proof.Machine
end

