-- ==== Sys2Proof/Machine/Matrix.lean ====
section
/-! DEFINITION. The matrix engine (chapter 13): its commands at issue, the load port, the stream path, forwards, tokens. -/
namespace Sys2Proof.Machine

/-! ## Macros and tiles (R260-R262) -/

/-- The swap of R260: the old active half becomes a FREE shadow. -/
def Cim.swap (k : Cim) : Cim :=
  if k.act = 0 then { act := 1, h0 := Half.zero, h1 := { k.h1 with ready := false } }
  else { act := 0, h0 := { k.h0 with ready := false }, h1 := Half.zero }

/-- The tag of an accumulator tile (R262): I32. -/
def tileI32 : Nat := 4

def Tile.fmt (t : Tile) : Nat := fld t.tag 0 4
/-! ## Command records (R263) -/

/-- WIDE (R273). -/
def MtxCmd.wide (k : MtxCmd) : Bool := (k.op = 1 || k.op = 2) && bit k.e2 15

/-- The macros, and the tiles, that a product uses: (macro, tile). -/
def MtxCmd.uses (k : MtxCmd) : List (Nat × Nat) :=
  if k.wide then (List.range 4).map (fun m => (m, m)) else [(k.mac, k.tile)]

/-- Rows of a product, of a load, or of a drain's window. -/
def MtxCmd.count (k : MtxCmd) : Nat :=
  match k.op with
  | 0 => fld k.e2 8 7 + 1
  | 1 => fld k.e2 0 7 + 1
  | 2 => fld k.e2 0 7 + 1
  | 3 => fld k.e1 40 7 + 1
  | _ => 0

/-- The planes of the operand read: PB of an MLDB, PA of a product. -/
def MtxCmd.planes (k : MtxCmd) : Nat := if k.op = 0 then fld k.e2 0 4 else fld k.e2 16 4

/-- Row `i` of the operand read, of an MLDB or a product: address and bytes. -/
def MtxCmd.row (k : MtxCmd) (i : Nat) : Nat × Nat := ((k.e0 + w64 i * k.e1).toNat, 16 * k.planes)

/-- Where row `i` of A is forwarded (R273). -/
def MtxCmd.fwdRow (k : MtxCmd) (i : Nat) : Nat × Nat := ((k.e3 + w64 i * k.e1).toNat, 16 * k.planes)

def MtxCmd.isOpen (k : MtxCmd) : Bool := k.st ≠ .complete

def Bind.modCmd (b : Bind) (seq : Nat) (f : MtxCmd → MtxCmd) : Bind :=
  { b with cmds := b.cmds.map (fun k => if k.seq = seq then f k else k) }

/-! ## Drains (R63, R275) -/

def MtxCmd.dFmt (k : MtxCmd) : Nat := fld k.e1 24 4
def MtxCmd.dStride (k : MtxCmd) : Nat := fld k.e1 0 24
def MtxCmd.dRow0 (k : MtxCmd) : Nat := fld k.e1 32 7
def MtxCmd.dCol0 (k : MtxCmd) : Nat := fld k.e1 48 7
def MtxCmd.dCols (k : MtxCmd) : Nat := fld k.e1 56 7 + 1

/-- Window row `r` in memory: address and bytes. -/
def MtxCmd.dRow (k : MtxCmd) (r : Nat) : Nat × Nat :=
  ((k.e0 + w64 (r * k.dStride)).toNat, k.dCols * fmtBytes k.dFmt)

/-- The scale bytes that window row `r` needs: one of sA, and the window's columns of sB. -/
def MtxCmd.scaleRanges (k : MtxCmd) (r : Nat) : List (Nat × Nat) :=
  (if k.e2 = 0 then [] else [((k.e2 + w64 (k.dRow0 + r)).toNat, 1)]) ++
  (if k.e3 = 0 then [] else [((k.e3 + w64 k.dCol0).toNat, k.dCols)])

/-- All the scale bytes a drain uses. -/
def MtxCmd.allScales (k : MtxCmd) : List (Nat × Nat) :=
  (if k.e2 = 0 then [] else [((k.e2 + w64 k.dRow0).toNat, k.count)]) ++
  (if k.e3 = 0 then [] else [((k.e3 + w64 k.dCol0).toNat, k.dCols)])

/-! ## Issue (R81, R263, R270-R276) -/

/-- What the field limits of a command's operands refuse (R272, R273, R275). -/
def MtxCmd.badFields (k : MtxCmd) : Bool :=
  match k.op with
  | 0 => !(2 ≤ fld k.e2 0 4 && fld k.e2 0 4 ≤ 8) || k.e1.toNat % 128 ≠ 0
  | 3 =>
    let w := fmtBytes k.dFmt
    !(2 ≤ k.dFmt && k.dFmt ≤ 9) || k.dStride % w ≠ 0 || k.dStride < k.dCols * w || 128 < k.dRow0 + k.count ||
      128 < k.dCol0 + k.dCols
  | 4 => false
  | _ =>
    !(2 ≤ fld k.e2 16 4 && fld k.e2 16 4 ≤ 8) || k.e1.toNat % 128 ≠ 0 || 128 < fld k.e2 8 7 + k.count ||
      (k.wide && (k.tile ≠ 0 || k.mac ≠ 0))

/-- A macro as it will stand when the next command on it starts (R273): whether its active half holds a tile, whether that is
invalid, and its source address; queued loads and products of the list are taken to do their work, but for a load that has failed. -/
def foreseen (m : Nat) (act shd : Option (Bool × Word)) : List MtxCmd → Option (Bool × Word)
  | [] => if shd.isSome then shd else act
  | k :: t =>
    if k.isOpen && k.op = 0 && k.mac = m then
      foreseen m act (if k.fwd || k.stop then shd else some (false, k.e0)) t
    else if k.isProduct && k.st = .queued && k.uses.any (fun u => u.1 = m) then
      (if shd.isSome then foreseen m shd none t else foreseen m act none t)
    else foreseen m act shd t

/-- The active half that a product on macro `m` will use: whether it is invalid, and its source. -/
def Bind.foresee (b : Bind) (m : Nat) : Option (Bool × Word) :=
  let k := b.cim m
  foreseen m (if k.active.loaded then some (k.active.invalid, k.active.va) else none)
    (if k.shadow.ready then some (k.shadow.invalid, k.shadow.va) else none) b.cmds

/-- Whether a tile will be I32 (R273): it is, or a queued MZERO makes it so. -/
def Bind.willBeI32 (b : Bind) (t : Nat) : Bool :=
  (b.tile t).fmt = tileI32 || b.cmds.any (fun k => k.isOpen && k.op = 4 && k.tile = t)

/-- The first FORMAT of a command: TVAL (R89, R273, R275). -/
def Bind.formatTval (b : Bind) (k : MtxCmd) : Option Nat :=
  if k.isProduct then
    match k.uses.find? (fun u => (b.foresee u.1).isNone) with
    | some u => some (0x20 + u.1)
    | none => (k.uses.find? (fun u => !(b.willBeI32 u.2))).map (fun u => 0x10 + u.2)
  else if k.op = 3 then (if b.willBeI32 k.tile then none else some (0x10 + k.tile))
  else none

/-- What a command reads and writes as its issue checks it: ranges, right and passage kind (R272, R273, R275, R396). -/
def MtxCmd.access (k : MtxCmd) : List ((Nat × Nat) × Nat × Nat) :=
  match k.op with
  | 0 => (List.range k.count).map (fun i => (k.row i, rRead, kWload))
  | 1 => (List.range k.count).map (fun i => (k.row i, rRead, kWload))
  | 2 =>
    (List.range k.count).map (fun i => (k.row i, rRead, kWload)) ++
    (if k.e3 = 0 then [] else (List.range k.count).map (fun i => (k.fwdRow i, rWrite, kWrite)))
  | 3 => (List.range k.count).map (fun i => (k.dRow i, rWrite, kWrite)) ++ k.allScales.map (fun r => (r, rRead, kRead))
  | _ => []

/-- The address that breaks a command's alignment. -/
def MtxCmd.misaligned (k : MtxCmd) : Option Word :=
  match k.op with
  | 0 => if k.e0.toNat % 128 ≠ 0 then some k.e0 else none
  | 1 => if k.e0.toNat % 128 ≠ 0 then some k.e0 else none
  | 2 => if k.e0.toNat % 128 ≠ 0 then some k.e0 else if k.e3.toNat % 128 ≠ 0 then some k.e3 else none
  | 3 => if k.e0.toNat % fmtBytes k.dFmt ≠ 0 then some k.e0 else none
  | _ => none

/-- The torus group of an MMROT: absent when the core is no member or the group has no torus shape (R273). -/
def State.torusOk (s : State) (c : Nat) (k : MtxCmd) : Bool :=
  let g := fld k.e2 24 8
  k.op ≠ 2 || (s.member c g && (s.group (s.ctxOf c) c g).torus)

/-- The exact cause of a command at issue, in the order of R90. -/
def State.mtxCause (s : State) (c : Nat) (i : Instr) (k : MtxCmd) : Option (Nat × Word) :=
  let ctx := s.ctxOf c
  let b := s.cur c
  if k.badFields then some (cIllegal, encodeWord i)
  else if !s.torusOk c k then some (cGroup, w64 (fld k.e2 24 8))
  else if s.scopeBad c k.scope then some (cScope, w64 k.scope)
  else if k.access.any (fun a => s.gateRefused c ctx a.1.1 a.1.2 a.2.2) then some (cGate, 0xFFFF_FFFF_FFFF_FFFF)
  else
    match b.formatTval k with
    | some t => some (cFormat, w64 t)
    | none =>
      match k.misaligned with
      | some v => some (cMisalign, v)
      | none =>
        match if k.isProduct then k.uses.findSome? (fun u => match b.foresee u.1 with | some (true, v) => some v | _ => none) else none with
        | some v => some (cAccess, v)
        | none => (k.access.findSome? (fun a => s.refusedByte c ctx a.1.1 a.1.2 a.2.1 false)).map (fun v => (cAccess, w64 v))

/-- Places of command records (R263). -/
def mtxRecords : Nat := 4

/-- Issue of a matrix command (R263, R272-R276): its faults, a free record, a forced close of a pair (R383), and the record. -/
def mtxOp (i : Instr) (op : Nat) (t m : BitVec 2) (x : BitVec 3) (o : BitVec 2) (g : BitVec 5) (s : State) : Result :=
  run i s (fun f =>
    let c := f.core
    let b := s.cur c
    let k : MtxCmd := {
      op := op, tile := t.toNat, mac := m.toNat, ord := o.toNat, scope := x.toNat, tag := g.toNat, e0 := s.rdE f 0,
      e1 := s.rdE f 1, e2 := s.rdE f 2, e3 := s.rdE f 3, rows := 0, st := .queued, fwd := false, accepted := 0, stop := false, status := 0,
      addr := 0, eff := s.effClass c, seq := b.jseq }
    match s.mtxCause c i k with
    | some (code, tv) => s.exact f 4 code tv
    | none =>
      if mtxRecords ≤ b.cmds.length then s
      else s.afterClose f ((s.modCur c (fun b => { b with cmds := b.cmds ++ [k], jseq := b.jseq + 1 })).retire f 4))

def execMldb (m : BitVec 2) (x : BitVec 3) (o : BitVec 2) (g : BitVec 5) (s : State) : Result :=
  mtxOp (.mldb m x o g) 0 0 m x o g s
def execMmul (t m : BitVec 2) (x : BitVec 3) (o : BitVec 2) (g : BitVec 5) (s : State) : Result :=
  mtxOp (.mmul t m x o g) 1 t m x o g s
def execMmrot (t m : BitVec 2) (x : BitVec 3) (o : BitVec 2) (g : BitVec 5) (s : State) : Result :=
  mtxOp (.mmrot t m x o g) 2 t m x o g s
def execMdrain (t : BitVec 2) (x : BitVec 3) (o : BitVec 2) (g : BitVec 5) (s : State) : Result :=
  mtxOp (.mdrain t x o g) 3 t 0 x o g s
def execMzero (t : BitVec 2) (x : BitVec 3) (o : BitVec 2) (g : BitVec 5) (s : State) : Result :=
  mtxOp (.mzero t x o g) 4 t 0 x o g s

/-- MWAIT (R277). -/
def execMwait (s : State) : Result :=
  run .mwait s (fun f => if (s.cur f.core).cmds.all (fun k => !k.isOpen) then s.retire f 4 else s)

/-- The MSTAT instruction (R277). -/
def execMstat (d : Reg) (s : State) : Result :=
  run (.mstat d) s (fun f => s.finish f 4 d.toNat (s.cur f.core).mstat)

/-! ## Starts (R264, R270, R273) -/

/-- Whether the load port of a core of a context reads for an MLDB or a forwarded tile. -/
def State.portBusy (s : State) (ctx c : Nat) : Bool :=
  (s.bind ctx c).cmds.any (fun k => k.op = 0 && k.st = .running && !k.fwd && !k.stop) ||
    s.net.any (fun p => p.dst = c && p.ctx = ctx && (match p.body with | .tile _ _ _ _ t => t | _ => false))

/-- Whether a queued command may start now (R263, R264, R268); `port` tells that the load port is busy. -/
def Bind.mayStart (b : Bind) (port : Bool) (n : Nat) (k : MtxCmd) : Bool :=
  let before := b.cmds.take n
  k.st = .queued && b.olderDone k.seq &&
    (if k.op = 0 then
      !port && before.all (fun q => q.op ≠ 0 || q.fwd || !q.isOpen) &&
        before.all (fun q => !(q.isProduct && q.st = .queued && q.uses.any (fun u => u.1 = k.mac))) &&
        !(b.cim k.mac).shadow.loading
    else
      before.all (fun q => !q.isStream || !q.isOpen) &&
        (!k.isProduct || before.all (fun q => q.op ≠ 0 || q.fwd || !q.isOpen || !(k.uses.any (fun u => u.1 = q.mac)))))

/-- The neighbour to the north of a member of a torus (R207). -/
def Group.north (g : Group) (c : Nat) : Nat :=
  coreAddr (c % 64) (g.toy + (c / 64 - g.toy + g.th - 1) % (max g.th 1))

/-- The token of a command (R269). -/
def MtxCmd.token (k : MtxCmd) : Word :=
  w64 (k.tag + 2 ^ 5 * k.op + 2 ^ 8 * k.status + 2 ^ 16 * k.tile + 2 ^ 18 * k.mac +
    2 ^ 24 * (if k.isProduct || k.op = 3 then k.rows else 0) + 2 ^ 32 * (if k.status = 0 then 0 else k.addr.toNat % 2 ^ 32))

/-- A completed command leaves: its record goes with its token in q2 once that fits, after those that wait already (R269). -/
def Bind.cmdLeaves (b : Bind) (k : MtxCmd) : Bind :=
  let rest := b.cmds.filter (fun q => q.seq ≠ k.seq)
  if k.tag = 0 then { b with cmds := rest }
  else if b.q2.length < tokenDepth && rest.all (fun q => q.isOpen) then { b with q2 := b.q2 ++ [k.token], cmds := rest, wfe := true }
  else { b with cmds := rest ++ [k] }

/-- A command ends: its status, its failing address, MSTAT.ERR, and its accesses are forgotten; a record whose token does not
fit stands last among those that have completed (R263, R269, R270). -/
def State.endCmd (s : State) (c : Nat) (k : MtxCmd) : State :=
  (s.dropEngine c thrMatrix k.seq).modCur c (fun b =>
    { b with mErr := b.mErr || k.status ≠ 0 }.cmdLeaves { k with st := .complete })

/-- A command whose writes have performed ends once its release has (R268). -/
def State.releaseCmd (s : State) (c : Nat) (k : MtxCmd) : State :=
  if s.engineOwes c k.ord k.scope then s.engineFlush c thrMatrix else s.endCmd c k

/-- A command fails (R270): a failed MLDB leaves its half invalid and READY; the command ends once its release has performed. -/
def State.failCmd (s : State) (c : Nat) (k : MtxCmd) (status : Nat) (addr : Word) : State :=
  let s1 := if k.op = 0 then
      s.modCur c (fun b =>
        let q := b.cim k.mac
        b.setCim k.mac (q.setShadow { q.shadow with loading := false, ready := true, invalid := true, loaded := true }))
    else s
  let q := { k with stop := true, st := .running, status := status, addr := addr }
  ((s1.dropEngine c thrMatrix k.seq).modCur c (fun b => b.modCmd k.seq (fun _ => q))).releaseCmd c q

/-- MATRIX_COMMAND_START (R260, R264, R273, R274). -/
def execMatrixCommandStart (core n : Nat) (s : State) : Result :=
  device s (
    let b := s.cur core
    match b.cmds[n]? with
    | none => s
    | some k =>
      if !(s.engineOn core && b.mayStart (s.portBusy (s.ctxOf core) core) n k) then s
      else
        let s1 := s.engineAcquire core k.ord k.scope
        if k.op = 0 then
          let h : Half := { Half.zero with va := k.e0, stride := k.e1, pb := k.planes, kk := k.count, loading := true }
          s1.modCur core (fun b => (b.setCim k.mac ((b.cim k.mac).setShadow h)).modCmd k.seq (fun q => { q with st := .running }))
        else if !k.isProduct then s1.modCur core (fun b => b.modCmd k.seq (fun q => { q with st := .running }))
        else
          let s2 := s1.modCur core (fun b =>
            let swaps := b2n (k.uses.any (fun u => (b.cim u.1).shadow.ready))
            { k.uses.foldl (fun (b : Bind) u =>
                let q := b.cim u.1
                if q.shadow.ready then b.setCim u.1 q.swap else b) b with
              cnt := { b.cnt with stream := b.cnt.stream + swaps } })
          match k.uses.find? (fun u => !((s2.cur core).cim u.1).active.loaded || ((s2.cur core).cim u.1).active.invalid) with
          | some u => s2.failCmd core k stAccess ((s2.cur core).cim u.1).active.va
          | none =>
            let s3 :=
              if k.op = 2 then
                let g := s2.group (s2.ctxOf core) core (fld k.e2 24 8)
                k.uses.foldl (fun (t : State) u =>
                  t.post ⟨core, g.north core, t.ctxOf core, .tile u.1 { ((s2.cur core).cim u.1).active with plain := [] } core k.seq false⟩) s2
              else s2
            s3.modCur core (fun b => b.modCmd k.seq (fun q => { q with st := .running, fwd := k.op = 2 })))

/-! ## The load port (R260, R272, R274) -/

/-- The key slot and the logical address of an operand row as the load port finds them (R272, R394): slot 0xFF for plaintext. -/
def State.loadKey (s : State) (c : Nat) (va : Nat) : Nat × Nat :=
  match s.laOf (s.ctxOf c) va with
  | some la =>
    let fr := s.frame (la / 4096)
    (if !isHost la && fr.comp = 1 then (s.world fr.vf).moslot else 0xFF, la)
  | none => (0xFF, 0)

/-- The key slot and the logical address of each row of a half (R272, R394): a row is deciphered when its own page is MO
ciphertext. -/
def State.rowKeys (s : State) (c : Nat) (h : Half) : List (Nat × Nat) :=
  (List.range h.kk).map (fun r => s.loadKey c (h.va + w64 r * h.stride).toNat)

/-- The address of the first of some rows of a half whose key slot is retired or not held (R270). -/
def State.keyMissing (s : State) (h : Half) (keys : List (Nat × Nat)) : Option Word :=
  ((List.range keys.length).find? (fun r =>
    (keys.getD r (0xFF, 0)).1 ≠ 0xFF && !s.keyHeld (keys.getD r (0xFF, 0)).1)).map (fun r => h.va + w64 r * h.stride)

/-- A half with its rows, each as read and as the load port deciphers it with the key slot and logical address given (R272, R394);
its descriptor names the key slot used, or 0xFF (R261). -/
def State.halfFrom (s : State) (keys : List (Nat × Nat)) (h : Half) (bs : List Byte) (poison : Bool) : Half :=
  let n := 16 * h.pb
  let rows := (List.range h.kk).map (fun r => (r, (bs.drop (n * r)).take n))
  let plain := rows.map (fun r =>
    let k := keys.getD r.1 (0xFF, 0)
    (r.1, if k.1 = 0xFF then r.2 else xtsBlocks (xtsDecipher (s.keySlot k.1).key) k.2 r.2))
  { h with
    loaded := true, ready := true, loading := false, invalid := false, poison := poison
    slot := ((keys.map (·.1)).find? (· ≠ 0xFF)).getD 0xFF
    rowsAt := keys
    raw := rows.foldl (fun m r => putBytes m (128 * r.1) r.2) []
    plain := plain.foldl (fun m r => putBytes m (128 * r.1) r.2) [] }

/-- The bytes of a half as its load port read them, row after row. -/
def Half.rawBytes (h : Half) : List Byte :=
  (List.range h.kk).flatMap (fun r => (List.range (16 * h.pb)).map (fun j => SMap.get 0 h.raw (128 * r + j)))

/-- MLDB_LOAD_DONE (R260, R261, R270): the load port has read every row of the MLDB; an access it needs is sent first. -/
def execMldbLoadDone (core n : Nat) (s : State) : Result :=
  device s (
    let b := s.cur core
    match b.cmds[n]? with
    | none => s
    | some k =>
      if !(s.engineOn core && k.op = 0 && k.st = .running && !k.fwd && !k.stop) then s
      else
        let q := b.cim k.mac
        let keys := s.rowKeys core q.shadow
        match s.keyMissing q.shadow keys with
        | some v => s.failCmd core k stKey v
        | none =>
          match s.engineRead core thrMatrix k.seq k.eff rRead ((List.range k.count).map k.row) with
          | .wait t => t
          | .fail st v => s.failCmd core k st v
          | .ok bs poison frames =>
            let s1 := (s.dropEngine core thrMatrix k.seq).engineFrames core frames
            s1.modCur core (fun b =>
              { (b.setCim k.mac (q.setShadow (s.halfFrom keys q.shadow bs poison))).modCmd k.seq
                  (fun r => { r with fwd := true, status := if frames.isEmpty then 0 else stFrame, addr := frames.headD 0 }) with
                cnt := { b.cnt with loadPort := b.cnt.loadPort + ceilDiv (k.count * k.planes) 4 } }))

/-- A forwarded half has been accepted by its receiver, or refused for its key, which the sender's token then tells with the
half's address (R269, R270, R274); the record in its save area tells it too (R278). -/
def State.tileTaken (s : State) (ctx sender cmd status : Nat) (va : Word) : State :=
  let take := fun (b : Bind) => b.modCmd cmd (fun k =>
    if k.fwd then
      { k with accepted := k.accepted + 1, status := if status = 0 then k.status else status, addr := if status = 0 then k.addr else va }
    else k)
  { s.modBind ctx sender take with
    areas := s.areas.map (fun p => (p.1, if p.1 = bindKey ctx sender then take p.2 else p.2)) }

/-- A forwarded tile that its receiver has still to load from memory: a READY descriptor (R274, R278). -/
def Half.descriptor (h : Half) : Half := { h with loaded := true, ready := true, loading := false, plain := [] }

/-- A tile for a binding that is SAVING or OUT (R274): its descriptor is a READY shadow of the save area, once that half is
FREE there. A RESTORING binding is taken as OUT, and its restore still loads the tile (DESIGN CHOICE, log 121). -/
def State.tileToArea (s : State) (ctx c m : Nat) (h : Half) : Option State :=
  let b := s.bind ctx c
  let put := fun (load : Bool) (b : Bind) => b.setCim m ((b.cim m).setShadow { h.descriptor with loading := load })
  if !(b.cim m).shadow.ready && !(b.cim m).shadow.loading then
    some { s.modBind ctx c (put (b.st = .restoring)) with
           areas := s.areas.map (fun p => (p.1, if p.1 = bindKey ctx c then put false p.2 else p.2)) }
  else none

/-- The packet of a forwarded tile is marked as taken up by the load port. -/
def State.takeTile (s : State) (k : Nat) (p : Packet) (m : Nat) (h : Half) (sender cmd : Nat) : State :=
  { s with net := setAt s.net k { p with body := .tile m h sender cmd true } }

/-- TILE_FORWARD_ARRIVAL (R260, R270, R274): at a bound core the load port takes the tile up once the macro's shadow is FREE, which
is LOADING from then on; when the port has loaded it, and deciphered it by what the sender's load port read it with, the shadow is READY, or invalid where its key slot is
retired or not held. For a binding that is out the descriptor goes to its save area. -/
def execTileForwardArrival (k : Nat) (s : State) : Result :=
  device s (
    match s.net[k]? with
    | some p =>
      match p.body with
      | .tile m h sender cmd taken =>
        let b := s.bind p.ctx p.dst
        let q := b.cim m
        if !(s.exists? p.ctx) then s.unpost k
        else if b.st ≠ .bound then
          match (s.unpost k).tileToArea p.ctx p.dst m h with
          | some t => t.tileTaken p.ctx sender cmd 0 0
          | none => s
        else if !s.engineOn p.dst then s
        else if taken then
          let bad := h.slot ≠ 0xFF && ((s.keyMissing h h.rowsAt).isSome || h.slot ≠ (s.world (ctxFn p.ctx)).moslot)
          let h1 := if bad then { h.descriptor with invalid := true } else s.halfFrom h.rowsAt h h.rawBytes h.poison
          ((s.unpost k).modBind p.ctx p.dst (fun b => b.setCim m (q.setShadow h1))).tileTaken p.ctx sender cmd
            (if bad then stKey else 0) h.va
        else if q.shadow.ready || q.shadow.loading || s.portBusy p.ctx p.dst then s
        else
          (s.takeTile k p m h sender cmd).modBind p.ctx p.dst (fun b =>
            b.setCim m (q.setShadow { h with loaded := false, ready := false, loading := true }))
      | _ => s
    | none => s)

/-- A tile that the load port of a core had taken up when the core is saved (R278): the half keeps the arriving descriptor, as
READY, and the sender counts it as accepted. -/
def State.stopTiles (s : State) (c : Nat) : State :=
  let n := s.ctxOf c
  let mine := fun (p : Packet) => p.dst = c && p.ctx = n && (match p.body with | .tile _ _ _ _ t => t | _ => false)
  (s.net.filter mine).foldl (fun (t : State) p =>
    match p.body with
    | .tile m h sender cmd _ =>
      (t.modBind n c (fun b => b.setCim m ((b.cim m).setShadow h.descriptor))).tileTaken n sender cmd 0 0
    | _ => t) { s with net := s.net.filter (fun p => !mine p) }

/-! ## The stream path (R62, R63, R266, R273, R275) -/

/-- The NI8 values of a plane-major row read to `k` planes (R42, R43). -/
def rowValues (row : List Byte) (k n : Nat) : List Int := (List.range n).map (fun e => ni8Value k (planeByte row k e))

/-- The values of B: row k of a half (R266). -/
def Half.values (h : Half) : List (List Int) :=
  (List.range h.kk).map (fun r => rowValues ((List.range (16 * h.pb)).map (fun j => SMap.get 0 h.plain (128 * r + j))) h.pb 128)

/-- One step of a product into a tile (R62, R266): the tile, and whether an element wrapped. -/
def Tile.step (t : Tile) (h : Half) (row : Nat) (a : List Byte) (pa : Nat) (poison : Bool) : Tile × Bool :=
  let va := rowValues a pa h.kk
  let vb := h.values
  let sums := (List.range 128).map (fun n =>
    (toSigned 32 (SMap.get 0 t.acc (128 * row + n)).toNat) + ((List.range h.kk).map (fun k => va.getD k 0 * (vb.getD k []).getD n 0)).sum)
  ({ acc := (List.range 128).foldl (fun m n => SMap.set 0 m (128 * row + n) (BitVec.ofInt 32 (sums.getD n 0))) t.acc
     tag := BitVec.ofNat 16 (tileI32 + 256 * b2n (t.poison || poison || h.poison)) },
   sums.any (fun x => satOverflows 32 x))

/-- One A row of a product is accumulated into every tile used. -/
def State.accumulate (s : State) (c : Nat) (k : MtxCmd) (a : List Byte) (poison : Bool) : State :=
  s.modCur c (fun b =>
    let b1 := k.uses.foldl (fun (b : Bind) u =>
      let r := (b.tile u.2).step (b.cim u.1).active (fld k.e2 8 7 + k.rows) a k.planes poison
      { b.setTile u.2 r.1 with movf := b.movf || r.2 }) b
    { b1.modCmd k.seq (fun q => { q with rows := q.rows + 1 }) with
      cnt := { b1.cnt with stream := b1.cnt.stream + k.planes + (if k.rows = 0 then 8 else 0) } })

/-- The bytes of one window row of a drain, and whether an element overflowed (R63, R275): `sa` is the row's scale, `sb` the
columns'. -/
def Tile.drainRow (t : Tile) (k : MtxCmd) (sa : Int) (sb : Nat → Int) : List Byte × Bool :=
  let w := fmtBytes k.dFmt
  let x := fun (c : Nat) =>
    (ExactNum.ofInt (toSigned 32 (SMap.get 0 t.acc (128 * (k.dRow0 + k.rows) + k.dCol0 + c)).toNat)).scale (sa + sb c)
  ((List.range k.dCols).flatMap (fun c => leBytes w (convertTo k.dFmt 0 (x c))),
   (List.range k.dCols).any (fun c => convertOverflows k.dFmt (x c)))

/-- Record a FRAME answer in a command that goes on (R270). -/
def State.noteFrames (s : State) (c : Nat) (k : MtxCmd) (frames : List Word) : State :=
  match frames with
  | [] => s
  | v :: _ => (s.engineFrames c frames).modCur c (fun b => b.modCmd k.seq (fun q =>
      if q.status = 0 then { q with status := stFrame, addr := v } else q))

/-- The next row of a product: read, forwarded, accumulated. True when the row is done. -/
def State.productRow (s : State) (c : Nat) (k : MtxCmd) : State × Bool :=
  match s.engineRead c thrMatrix k.seq k.eff rRead [k.row k.rows] with
  | .wait t => (t, false)
  | .fail st v => (s.failCmd c k st v, false)
  | .ok bs poison frames =>
    match if k.op = 2 && k.e3 ≠ 0 then s.engineWrite c thrMatrix k.seq k.eff (k.fwdRow k.rows).1 bs poison else .ok [] false [] with
    | .wait t => (t, false)
    | .fail st v => (s.failCmd c k st v, false)
    | .ok _ _ _ => (((s.dropEngine c thrMatrix k.seq).noteFrames c k frames).accumulate c k bs poison, true)

/-- Stream cycles of the first rows of a drain (R265). -/
def MtxCmd.drainCycles (k : MtxCmd) (rows : Nat) : Nat := 4 + ceilDiv (rows * k.dCols * fmtWidth k.dFmt) 512

/-- The next row of a drain. -/
def State.drainStep (s : State) (c : Nat) (k : MtxCmd) : State × Bool :=
  match s.engineRead c thrMatrix k.seq k.eff rRead (k.scaleRanges k.rows) with
  | .wait t => (t, false)
  | .fail st v => (s.failCmd c k st v, false)
  | .ok bs _ frames =>
    let sa : Int := if k.e2 = 0 then 0 else toSigned 8 (bs.getD 0 0).toNat
    let sb := fun (j : Nat) => if k.e3 = 0 then (0 : Int) else toSigned 8 (bs.getD ((if k.e2 = 0 then 0 else 1) + j) 0).toNat
    let t := (s.cur c).tile k.tile
    let r := t.drainRow k sa sb
    match s.engineWrite c thrMatrix k.seq k.eff (k.dRow k.rows).1 r.1 t.poison with
    | .wait u => (u, false)
    | .fail st v => (s.failCmd c k st v, false)
    | .ok _ _ _ =>
      (((s.dropEngine c thrMatrix k.seq).noteFrames c k frames).modCur c (fun b =>
        { b.modCmd k.seq (fun q => { q with rows := q.rows + 1 }) with
          movf := b.movf || r.2
          cnt := { b.cnt with stream := b.cnt.stream + k.drainCycles (k.rows + 1) - (if k.rows = 0 then 0 else k.drainCycles k.rows) } }), true)

/-- The end of a command whose rows are done (R268, R273): its forwards have been accepted and its release has performed. -/
def State.finishCmd (s : State) (c : Nat) (k : MtxCmd) : State :=
  if k.op = 2 && !k.stop && k.accepted < k.uses.length then s
  else if k.op = 4 && !k.stop then
    let q := { k with stop := true }
    (s.modCur c (fun b =>
      { (b.setTile k.tile ⟨[], BitVec.ofNat 16 tileI32⟩).modCmd k.seq (fun _ => q) with
        cnt := { b.cnt with stream := b.cnt.stream + 32 } })).releaseCmd c q
  else s.releaseCmd c k

/-- Run a command on, at most `fuel` rows. -/
def State.advance (s : State) (c seq : Nat) : Nat → State
  | 0 => s
  | fuel + 1 =>
    match (s.cur c).cmds.find? (fun k => k.seq = seq && k.st = .running) with
    | none => s
    | some k =>
      if k.stop then s.releaseCmd c k
      else if k.op = 0 then (if k.fwd then s.finishCmd c k else s)
      else if k.rows < k.count then
        let r := if k.isProduct then s.productRow c k else s.drainStep c k
        if r.2 then r.1.advance c seq fuel else r.1
      else s.finishCmd c k

/-- MATRIX_COMMAND_COMPLETE (R266, R268, R270): a started command runs on for at most `rows` rows, and completes when its last
write has performed. -/
def execMatrixCommandComplete (core n rows : Nat) (s : State) : Result :=
  device s (
    match (s.cur core).cmds[n]? with
    | some k => if s.engineOn core then s.advance core k.seq (rows + 1) else s
    | none => s)

/-- MATRIX_TOKEN_PLACE (R269): the completed command that has waited longest places its token once q2 has room. -/
def execMatrixTokenPlace (core n : Nat) (s : State) : Result :=
  device s (
    let b := s.cur core
    match b.cmds[n]? with
    | some k =>
      if k.st = .complete && s.engineOn core && (b.cmds.take n).all (fun q => q.isOpen) && b.q2.length < tokenDepth then
        s.modCur core (fun b => { b with q2 := b.q2 ++ [k.token], cmds := dropAt b.cmds n, wfe := true })
      else s
    | none => s)

end Sys2Proof.Machine
end

