-- ==== Sys2Proof/Machine/Tree.lean ====
section
/-! DEFINITION. The mapping tree and the space maps (R319-R325): extents, Loci, making, splitting and freeing nodes,
tombstones, and MAP, GRANT, UNMAP, MQUERY, RELEASE and ACCEPT as the core executes them (R326, R330, R331, R336, R339). -/
namespace Sys2Proof.Machine

/-! ## Loci and extents (R321, R322) -/

/-- A run of a request's range: its place in the range, its bytes (`stripeLen` for a whole stripe), its logical address
and the sender's node that maps it (none in the physical function's root space). -/
structure Run where
  off  : Nat
  len  : Nat
  la   : Nat
  node : Option Nat
  deriving DecidableEq, Repr

/-- The pieces of a run within frames: place, logical address, bytes. -/
def Run.parts (r : Run) : List (Nat × Nat × Nat) :=
  if r.len = stripeLen then stripeOffs.map (fun k => (r.off + k, r.la + k, 4096)) else [(r.off, r.la, r.len)]

/-- The bytes that a run covers. -/
def Run.bytes (r : Run) : Nat := if r.len = stripeLen then 32 * 4096 else r.len

/-- A node's extent as a run from its virtual base. -/
def Node.run (n : Node) : Run := ⟨0, n.len, n.lbase, none⟩

/-- Whether two extents share a logical byte. -/
def Run.meetsLa (r q : Run) : Bool := r.parts.any (fun p => q.parts.any (fun w => meets p.2.1 p.2.2 w.2.1 w.2.2))

/-- Whether an extent lies in a logical range. -/
def Run.inside (r : Run) (a n : Nat) : Bool := r.parts.all (fun p => a ≤ p.2.1 && p.2.1 + p.2.2 ≤ a + n)

/-- The runs of a virtual range that a node maps (R322): a stripe as one run when the range covers all of its 2 MiB. -/
def Node.runs (n : Node) (k a b : Nat) : List Run :=
  if n.len = stripeLen then
    if a ≤ n.stripeBase && n.stripeBase + stripeLen ≤ a + b then [⟨n.vbase - a, stripeLen, n.lbase, some k⟩]
    else
      (stripeOffs.filter (fun j => meets (n.vbase + j) 4096 a b)).map (fun j =>
        let lo := max a (n.vbase + j)
        let hi := min (a + b) (n.vbase + j + 4096)
        ⟨lo - a, hi - lo, n.lbase + j + (lo - (n.vbase + j)), some k⟩)
  else if meets n.vbase n.len a b then
    let lo := max a n.vbase
    let hi := min (a + b) (n.vbase + n.len)
    [⟨lo - a, hi - lo, n.lbase + (lo - n.vbase), some k⟩]
  else []

/-- The runs of a logical range in the physical function's root space (R319, R322). -/
def rootRuns (a b : Nat) : List Run :=
  ((pieces stripeLen a b).filter (fun p => region p.1 ≠ .reserved)).flatMap (fun p =>
    if p.2 = stripeLen && isMemory p.1 then
      (List.range 16).map (fun l => ⟨p.1 + 4096 * l - a, stripeLen, p.1 + 4096 * l, none⟩)
    else (pieces 4096 p.1 p.2).map (fun q => ⟨q.1 - a, q.2, q.1, none⟩))

/-- A run of the root space without the frames of reserved memory, which nothing maps (R320; log 113). -/
def State.openRuns (s : State) (q : Run) : List Run :=
  if q.parts.any (fun p => isMemory p.2.1 && s.isResv (p.2.1 / 4096)) then
    (q.parts.filter (fun p => !s.isResv (p.2.1 / 4096))).map (fun p => ⟨p.1, p.2.2, p.2.1, none⟩)
  else [q]

/-- The runs of a range of a context's space. -/
def State.runs (s : State) (ctx a b : Nat) : List Run :=
  if isRoot ctx then (rootRuns a b).flatMap s.openRuns
  else s.nodes.flatMap (fun p => if p.2.maps && p.2.holder = ctx then p.2.runs p.1 a b else [])

/-- Whether a range of the root space has a byte that Locus `l` keeps (R321). -/
def rootHas (a b l : Nat) : Bool :=
  if l < 16 then
    let f := a / 4096 + (l + 16 - a / 4096 % 16) % 16
    f * 4096 < a + b && f * 4096 < 2 ^ 47
  else
    (l = 16 && meets a b (2 ^ 47) (scratchBase - 2 ^ 47)) ||
    (List.range 1984).any (fun c => locusOf (scratchLa c 0 0) = l && meets a b (scratchLa c 0 0) (2 ^ 21))

/-- The elements of a list without repeats, in order of first appearance. -/
def dedup : List Nat → List Nat
  | [] => []
  | a :: t => a :: (dedup t).filter (· ≠ a)

/-! ## Nodes and tombstones (R320, R323, R324) -/

/-- The most nodes there can be (R320). -/
def nodeLimit : Nat := 64 * 2 ^ 20

/-- The lowest free place for a node. -/
def State.freeNode (s : State) : Nat := ((List.range (s.nodes.length + 1)).find? (fun k => (s.node k).st = .free)).getD 0

/-- The nodes in use. -/
def State.nodesUsed (s : State) : Nat := (s.nodes.filter (fun p => p.2.st ≠ .free)).length

/-- The number of no node: what named a node that has been freed names this one (R320, R333). -/
def goneNode : Nat := 2 ^ 40

/-- Free a node: its generation rises (R320, R323), and no access that was translated through it is one of the node that next
has its place. -/
def State.freeOne (s : State) (k : Nat) : State :=
  let t := s.modNode k (fun n => { Node.free with gen := (n.gen + 1) % 2 ^ 16 })
  { t with
    accs := t.accs.map (fun a => if a.node = some k then { a with node := some goneNode } else a)
    binds := t.binds.map (fun p => (p.1, { p.2 with
      journal := p.2.journal.map (fun e => (e.1, if e.2.node = some k then { e.2 with node := some goneNode } else e.2)) })) }

/-- Take a range out of a list of tombstones. -/
def cutTombs (a n : Nat) (l : List Tomb) : List Tomb :=
  l.flatMap (fun t =>
    if meets a n t.va t.len then
      (if t.va < a then [⟨t.va, a - t.va⟩] else []) ++ (if a + n < t.va + t.len then [⟨a + n, t.va + t.len - (a + n)⟩] else [])
    else [t])

/-- The holder's translations through a node become tombstones (R324, R332). -/
def State.tombNode (s : State) (n : Node) : State :=
  s.modCtx n.holder (fun k => { k with tombs := n.vaParts.foldl (fun l p => cutTombs p.1 p.2 l ++ [⟨p.1, p.2⟩]) k.tombs })

/-- The holder maps a node's range: tombstones there go, and entries of its pages made before are made again (R324). -/
def State.untombNode (s : State) (n : Node) : State :=
  let t := s.modCtx n.holder (fun k => { k with tombs := n.vaParts.foldl (fun l p => cutTombs p.1 p.2 l) k.tombs })
  n.vaParts.foldl (fun (u : State) p => u.dropVa n.holder p.1 p.2) t

/-- The children of a node, or, with `none`, of the root space. -/
def State.kids (s : State) (k : Option Nat) : List Nat :=
  (s.nodes.filter (fun p => p.2.st ≠ .free && p.2.parent = k)).map (·.1)

/-- A subtree in pre-order; no tree is deeper than 32 (R320). -/
def State.subtree (s : State) : Nat → Nat → List Nat
  | 0, k => [k]
  | fuel + 1, k => k :: (s.kids (some k)).flatMap (s.subtree fuel)

/-! ## Splitting (R330) -/

/-- A node has been cut into pieces: what names it and lies in the piece of node `j`, at `la` and `n` bytes long, is of
that piece now. -/
def State.renode (s : State) (k j la n : Nat) : State :=
  let inside := fun (x : Nat) => la ≤ x && x < la + n
  { s with
    accs := s.accs.map (fun a => if a.node = some k && inside a.la then { a with node := some j } else a)
    binds := s.binds.map (fun p => (p.1, { p.2 with
      journal := p.2.journal.map (fun e => (e.1, if e.2.node = some k && inside e.2.la then { e.2 with node := some j } else e.2)) })) }

/-- Translations made from a node leave every TLB. -/
def State.flushNode (s : State) (k : Nat) : State :=
  { s with cores := s.cores.map (fun p => (p.1, { p.2 with tlb := p.2.tlb.filter (fun e => !e.nodes.any (fun q => q.2 = k)) })) }

/-- Cut a node of granules at logical address `l` within it; its children are cut with it. The upper part is a new node. -/
def State.splitAt (s : State) : Nat → Nat → Nat → State
  | 0, _, _ => s
  | fuel + 1, k, l =>
    let n := s.node k
    if !(n.lbase < l && l < n.lbase + n.len) then s
    else
      let s1 := (s.kids (some k)).foldl (fun (t : State) c => t.splitAt fuel c l) s
      let j := s1.freeNode
      let up := { n with vbase := n.vbase + (l - n.lbase), lbase := l, len := n.lbase + n.len - l, gen := (s1.node j).gen }
      let s2 := (s1.modNode k (fun n => { n with len := l - n.lbase })).modNode j (fun _ => up)
      let s3 := (s2.kids (some k)).foldl (fun (t : State) c => if l ≤ (t.node c).lbase then t.modNode c (fun q => { q with parent := some j }) else t) s2
      (s3.renode k j l up.len).flushNode k

/-- Cut a stripe into its 32 frames, and the stripes beneath it as well. -/
def State.unstripe (s : State) : Nat → Nat → State
  | 0, _ => s
  | fuel + 1, k =>
    let n := s.node k
    if n.len ≠ stripeLen then s
    else
      let s1 := (s.kids (some k)).foldl (fun (t : State) c => t.unstripe fuel c) s
      let s2 := s1.modNode k (fun n => { n with len := 4096 })
      ((stripeOffs.drop 1).foldl (fun (t : State) o =>
        let j := t.freeNode
        let t1 := t.modNode j (fun q => { n with vbase := n.vbase + o, lbase := n.lbase + o, len := 4096, gen := q.gen })
        ((t1.kids (some k)).foldl (fun (u : State) c =>
          if (u.node c).lbase / 4096 = (n.lbase + o) / 4096 then u.modNode c (fun q => { q with parent := some j }) else u) t1).renode
          k j (n.lbase + o) 4096) s2).flushNode k

/-- Make a run the whole of a node: the sender's node is cut at the run's ends. -/
def State.isolate (s : State) (r : Run) : State :=
  match r.node with
  | none => s
  | some k =>
    if r.len = stripeLen then s
    else
      let s1 := s.unstripe 33 k
      let va := (s.node k).vbase + (r.la - (s.node k).lbase)
      let at1 := fun (t : State) (l : Nat) =>
        match List.find? (fun (p : Nat × Node) => p.2.maps && p.2.holder = (s.node k).holder && p.2.len ≠ stripeLen &&
            p.2.vbase ≤ va && va < p.2.vbase + p.2.len) t.nodes with
        | some (j, _) => t.splitAt 33 j l
        | none => t
      at1 (at1 s1 r.la) (r.la + r.len)

/-! ## MQUERY (R339) -/

/-- The result of MQUERY (R339). -/
def State.mquery (s : State) (ctx va : Nat) : Word :=
  let word := fun (x : Xlat) (gran : Nat) =>
    let depth := match x.node with | some k => (s.node k).depth | none => 0
    w64 (2 ^ 62 + x.attr * 2 ^ 60 + s.classAt x.la * 2 ^ 58 + b2n (s.bigPage ctx va) * 2 ^ 57 + gran * 2 ^ 56 + depth * 2 ^ 48 +
      x.rights.toNat)
  match s.walk ctx va with
  | .hit x => word x 1
  | .tomb => w64 (2 ^ 63)
  | .unmapped =>
    match List.find? (fun (p : Nat × Node) => p.2.maps && p.2.holder = ctx && !isRoot ctx &&
        p.2.vaParts.any (fun w => w.1 / 4096 = va / 4096)) s.nodes with
    | some (k, n) => word ⟨n.lbase / 4096 * 4096 + va % 4096, n.rights, n.attr, some k, false⟩ 0
    | none => 0

def execMquery (a d : Reg) (s : State) : Result :=
  run (.mquery a d) s (fun f => s.finish f 4 d.toNat (s.mquery (s.ctxOf f.core) (s.rd f a.toNat).toNat))

/-! ## Forming requests (R326) -/

/-- The request of an instruction at issue: its stamp, and what its first byte translates to (R326). -/
def State.formReq (s : State) (f : Focus) (op : Nat) (a b : Word) (rights : BitVec 6) : MapReq :=
  let c := f.core
  let ctx := s.ctxOf c
  let q : MapReq := { op := op, ctx := ctx, core := c, a := a, b := b, rights := rights, e0 := s.rdE f 0, e1 := s.rdE f 1, e2 := s.rdE f 2,
                      e3 := s.rdE f 3, stamp := s.sendStamp c, saddr := c, node := none, gen := 0, status := 0,
                      home := 0xFFFF_FFFF, keysel := 0, cmd := none }
  match s.look c ctx a.toNat with
  | .hit x => { q with node := x.node, gen := match x.node with | some k => (s.node k).gen | none => 0 }
  | .tomb => { q with status := 1 }
  | .unmapped => { q with status := 2 }

/-- MAP, GRANT, UNMAP, RELEASE, ACCEPT (R326, R330, R331, R336): the request is held in the outbox, and its stamp goes to
the destination register. -/
def reqOp (i : Instr) (op : Nat) (len : Focus → Word) (rights : BitVec 6) (a d : Reg) (s : State) : Result :=
  run i s (fun f =>
    let va := s.rd f a.toNat
    if outboxSize ≤ (s.cur f.core).outbox.length then s.exact f 4 cAccess va
    else
      let q := s.formReq f op va (len f) rights
      (s.modCur f.core (fun b => { b with outbox := b.outbox ++ [OutItem.req q] })).finish f 4 d.toNat (w64 q.stamp))

def execMap (r : BitVec 6) (b a d : Reg) (s : State) : Result := reqOp (.map r b a d) 0 (fun f => s.rd f b.toNat) r a d s
def execGrant (r : BitVec 6) (b a d : Reg) (s : State) : Result := reqOp (.grant r b a d) 1 (fun f => s.rd f b.toNat) r a d s
def execUnmap (a d : Reg) (s : State) : Result := reqOp (.unmap a d) 2 (fun f => s.rdE f 0) 0 a d s
def execRelease (a : Reg) (s : State) : Result := reqOp (.release a) 4 (fun f => s.rdE f 0) 0 a 0 s
def execAccept (a d : Reg) (s : State) : Result := reqOp (.accept a d) 5 (fun f => s.rdE f 0) 0 a d s

end Sys2Proof.Machine
end

