-- ==== Sys2Proof/Machine/Locus.lean ====
section
/-! DEFINITION. The Locus engines (R327-R338, R456): requests in stamp order, statuses, replies and notices, making nodes,
and the four phases of a withdrawal. -/
namespace Sys2Proof.Machine

/-! ## Loci and requests -/

def State.locus (s : State) (n : Nat) : Locus := SMap.get Locus.idle s.loci n

def State.modLocus (s : State) (n : Nat) (f : Locus → Locus) : State :=
  { s with loci := SMap.set Locus.idle s.loci n (f (s.locus n)) }

def State.modReq (s : State) (k : Nat) (f : ReqRec → ReqRec) : State :=
  match SMap.find? s.reqs k with
  | some r => { s with reqs := SMap.put s.reqs k (f r) }
  | none => s

/-- Whether the range of a request is within the limits of R330, R331 and R336; the length of a MAPROOT is whole frames (R159). -/
def MapReq.inLimits (r : MapReq) : Bool :=
  r.op = 8 || (r.a.toNat % 32 = 0 && r.b.toNat % (if r.cmd.isSome then 4096 else 32) = 0 && 32 ≤ r.b.toNat && r.b.toNat ≤ 2 ^ 40)

/-- The Locus that keeps the first byte of a request. -/
def State.firstLocus (s : State) (r : MapReq) : Nat :=
  match s.walk r.ctx r.a.toNat with
  | .hit x => locusOf x.la
  | _ => match r.node with
    | some k => locusOf (s.node k).lbase
    | none => locusOf r.a.toNat

/-- The Loci of a request, the first byte's first (R326); of a destroyed context, those that keep its nodes (R115). DESIGN CHOICE
(log 124): the Loci of a range are those that keep what the sender maps there when the request leaves its core. -/
def State.lociOf (s : State) (r : MapReq) : List Nat :=
  if r.op = 8 then dedup ((s.nodes.filter (fun p => p.2.st ≠ .free && p.2.holder = r.ctx)).map (fun p => locusOf p.2.lbase))
  else
    let l0 := s.firstLocus r
    if isRoot r.ctx then l0 :: (List.range 18).filter (fun l => l ≠ l0 && rootHas r.a.toNat r.b.toNat l)
    else dedup (l0 :: (s.runs r.ctx r.a.toNat r.b.toNat).map (fun q => locusOf q.la))

/-- A request is held at its Loci (R326, R327). -/
def State.holdReq (s : State) (r : MapReq) : State :=
  let k := s.nextReq
  let ls := s.lociOf r
  let s1 := { s with nextReq := k + 1, reqs := SMap.put s.reqs k ⟨r, ls, ls, [], 0, ls, [], false⟩ }
  ls.foldl (fun (t : State) l => t.modLocus l (fun q => { q with held := q.held ++ [⟨k, r.stamp, r.saddr, k, false⟩] })) s1

/-- The request of a MAPROOT of function `fn` for context `ctx` from its ARGS (R159, R392): the reply has no message, the
outcome goes to command `cmd`. -/
def State.mapRootReq (s : State) (fn ctx stamp cmd : Nat) (args : List Byte) : MapReq :=
  let f := fun (o n : Nat) => ofLe ((args.drop o).take n)
  let src := rootCtx fn
  let q : MapReq := {
    op := 0, ctx := src, core := 2047, a := w64 (f 0 8), b := w64 (f 16 8), rights := BitVec.ofNat 6 (f 24 1), e0 := w64 ctx
    e1 := w64 (f 8 8), e2 := w64 (f 25 1), e3 := 0, stamp := stamp, saddr := 0xFFFE, node := none, gen := 0, status := 0
    home := f 28 4, keysel := f 26 1, cmd := some cmd }
  match s.walk src (f 0 8) with
  | .hit x => { q with node := x.node, gen := match x.node with | some k => (s.node k).gen | none => 0 }
  | _ => q

/-! ## Destination words, replies and notices (R327, R328) -/

/-- The root space of a virtual function, which has no cores and no actors (R319). -/
def isVfRoot (ctx : Nat) : Bool := !isRoot ctx && ctx % 2 ^ 24 = 0xFF_FFFF

/-- Whether a sender may name a context: its own, one of its world, or any for a host-root sender (R328). -/
def mayName (sender ctx : Nat) : Bool := isRoot sender || ctx = sender || (ctxFn ctx = ctxFn sender && !isRoot ctx)

/-- The context that a destination word names; 0xFFFF_FFFF is the sender in a reply word (R328). -/
def destCtx (sender : Nat) (w : Word) (reply : Bool) : Nat :=
  if reply && fld w 0 32 = 0xFFFF_FFFF then sender else fld w 0 32

/-- The core that a destination word names. -/
def destCore (w : Word) : Nat := coreAddr (fld w 32 8) (fld w 40 8)

/-- Whether a destination word passes its check (R328) for context `ctx`. -/
def State.destOk (s : State) (sender ctx : Nat) (w : Word) : Bool :=
  fld w 55 9 = 0 &&
    (!bit w 54 || ((s.ctx ctx).st = .live && mayName sender ctx && s.holdsArea ctx (fld w 32 8) (fld w 40 8)))

/-- The reply destination's check, before anything else (R328); a MAPROOT has no reply message. -/
def State.replyOk (s : State) (r : MapReq) : Bool :=
  r.cmd.isSome || r.op = 8 || s.destOk r.ctx (destCtx r.ctx r.e3 true) r.e3

/-- The 32 bytes of a reply or notice (R328). -/
def locusPayload (op kind status rights nodes base len stamp : Nat) : List Byte :=
  leBytes 1 op ++ leBytes 1 kind ++ leBytes 1 status ++ leBytes 1 rights ++ leBytes 4 nodes ++ leBytes 8 base ++ leBytes 8 len ++
    leBytes 8 stamp

/-- A Locus sends a reply or notice, stamped s + 64 and numbered by its own counter (R327); it is discarded when its
context is no longer LIVE (R328). -/
def State.locusSend (s : State) (n ctx : Nat) (w : Word) (stamp : Nat) (bs : List Byte) : State :=
  if (s.ctx ctx).st = .live then
    let m := mkMsg (stamp + 64) s.ptime (s.locus n).seq (0xFF80 + n) 0xFF 0 (fld w 48 4) (fld w 52 2) 0 bs
    (s.modLocus n (fun q => { q with seq := q.seq + 1 })).post ⟨0xFF80 + n, destCore w, ctx, .msg m⟩
  else s

/-- The answer of the network interface to a request whose source address was unmapped or tombstoned at issue (R326). -/
def State.niAnswer (s : State) (r : MapReq) : State :=
  let ctx := destCtx r.ctx r.e3 true
  if !s.destOk r.ctx ctx r.e3 then s.ctxErr r.ctx r.core 0
  else if !bit r.e3 54 then s
  else
    let bs := locusPayload r.op 0 r.status r.rights.toNat 0 r.a.toNat r.b.toNat r.stamp
    let m := mkMsg (r.stamp + 64) s.ptime (2 ^ 62 + (s.bind r.ctx r.core).seqAns) r.core 0xFF 0 (fld r.e3 48 4) (fld r.e3 52 2) 0 bs
    (s.modBind r.ctx r.core (fun b => { b with seqAns := b.seqAns + 1 })).post ⟨r.core, destCore r.e3, ctx, .msg m⟩

/-! ## Completing requests (R161, R326, R330) -/

/-- The status of a request: the first nonzero one in ascending Locus number (R326). -/
def ReqRec.status (k : ReqRec) : Nat := ((k.statuses.map (·.2)).find? (· ≠ 0)).getD 0

/-- The lowest Locus among the parts (R326). -/
def ReqRec.lowest (k : ReqRec) : Nat := k.loci.foldl min 17

/-- The outcome of a MAPROOT goes to its command (R159, R161). -/
def State.mapOutcome (s : State) (seq status : Nat) : State :=
  match SMap.find? s.journal seq with
  | some c => { s with journal := SMap.put s.journal seq { c with status := if status = 0 then 0 else 5, result := w64 status, ready := true } }
  | none => s

/-- A request has a reply or a notice that may still be sent (R327); parts that have not completed may yet make nodes. -/
def ReqRec.unsent (k : ReqRec) : Bool :=
  !k.notices.isEmpty || (k.req.cmd.isNone && k.req.op ≠ 8 && !k.dead &&
    (bit k.req.e3 54 || (k.req.op ≤ 1 && (k.nodes ≠ 0 || !k.left.isEmpty) && bit k.req.e0 54)))

/-- Every part has completed: the mapped notice, once when nodes were made, and the reply, unless its destination has failed its
check (R326, R328, R330). -/
def State.finishReq (s : State) (id : Nat) : State :=
  match SMap.find? s.reqs id with
  | none => s
  | some k =>
    let r := k.req
    let n := k.lowest
    let s0 := { s with reqs := SMap.del s.reqs id }
    match r.cmd with
    | some seq => s0.mapOutcome seq k.status
    | none =>
      if r.op = 8 then s0.modCtx r.ctx (fun q => { q with freed := q.freed + k.nodes })
      else
        let s1 :=
          if r.op ≤ 1 && k.nodes ≠ 0 && bit r.e0 54 then
            s0.locusSend n (destCtx r.ctx r.e0 false) r.e0 r.stamp
              (locusPayload r.op 1 0 r.rights.toNat k.nodes r.e1.toNat r.b.toNat r.stamp)
          else s0
        if bit r.e3 54 && !k.dead then
          s1.locusSend n (destCtx r.ctx r.e3 true) r.e3 r.stamp
            (locusPayload r.op 0 k.status r.rights.toNat k.nodes r.a.toNat r.b.toNat r.stamp)
        else s1

/-- The notices of a request, by holder and then virtual base (R456). -/
def sortNotices : List Notice → List Notice
  | [] => []
  | a :: t => insert a (sortNotices t)
where
  insert (a : Notice) : List Notice → List Notice
    | [] => [a]
    | b :: t => if a.holder < b.holder || (a.holder = b.holder && a.base ≤ b.base) then a :: b :: t else b :: insert a t

/-- A part has reached the point at which it would send its notices; with the last one, they are sent (R326, R456). -/
def State.drained (s : State) (id n : Nat) : State :=
  match SMap.find? s.reqs id with
  | none => s
  | some k =>
    let left := k.undrained.filter (· ≠ n)
    if left.isEmpty && !k.undrained.isEmpty then
      (sortNotices k.notices).foldl (fun (t : State) w =>
        t.locusSend k.lowest w.holder w.dest k.req.stamp
          (locusPayload (if k.req.op = 4 then 4 else 2) 2 0 w.rights.toNat w.nodes w.base (w.top - w.base) k.req.stamp))
        (s.modReq id (fun q => { q with undrained := [], notices := [] }))
    else s.modReq id (fun q => { q with undrained := left })

/-- A part of a request has completed at Locus `n` with a status and a number of nodes (R326). -/
def State.partDone (s : State) (id n status nodes : Nat) : State :=
  let s1 := (s.drained id n).modReq id (fun q =>
    { q with left := q.left.filter (· ≠ n), statuses := SMap.put q.statuses n status, nodes := q.nodes + nodes })
  match SMap.find? s1.reqs id with
  | some k => if k.left.isEmpty then s1.finishReq id else s1
  | none => s1

/-! ## Taking up a request (R169, R327) -/

/-- The order in which a Locus processes its requests (R327). -/
def LPart.before (a b : LPart) : Bool :=
  a.stamp < b.stamp || (a.stamp = b.stamp && (a.saddr < b.saddr || (a.saddr = b.saddr && a.order < b.order)))

/-- The request that a Locus may take up now (R327, R332): its earliest, stamped no later than FLOOR, once the one before
it has completed. -/
def State.nextPart (s : State) (n : Nat) : Option LPart :=
  let l := s.locus n
  if l.work.isSome then none
  else
    match leastBy LPart.before l.held with
    | some p => if p.stamp ≤ s.floor then some p else none
    | none => none

/-- The next request of a Locus, when it is one of the operations given and its function has budget there (R169). -/
def State.takePart (s : State) (n : Nat) (ops : List Nat) : Option (LPart × ReqRec) :=
  match s.nextPart n with
  | some p =>
    if p.relay then none
    else
      match SMap.find? s.reqs p.req with
      | some k => if ops.contains k.req.op && s.locOk (ctxFn k.req.ctx) n && !s.halted &&
            !(s.dbg.vstop && (s.reg (pfReg 0x3_8018)).toNat < p.stamp) then some (p, k) else none
      | none => none
  | none => none

def State.unhold (s : State) (n : Nat) (p : LPart) : State := s.modLocus n (fun q => { q with held := q.held.erase p })

/-- The cycles that a Locus works on a request that withdraws nothing (R169; log 97). -/
def State.chargeWork (s : State) (n : Nat) (r : MapReq) (nodes : Nat) : State := s.spendLoc (ctxFn r.ctx) n (Config.locusCycles r.op nodes)

/-- Take up a request at a Locus: a failed reply destination leaves it without effect, with an error record (R328). -/
def State.process (s : State) (n : Nat) (ops : List Nat) (f : LPart → ReqRec → State → State) : State :=
  match s.takePart n ops with
  | none => s
  | some (p, k) =>
    let s1 := s.unhold n p
    if s1.replyOk k.req then f p k s1
    else
      let s1 := s1.chargeWork n k.req 0
      let s2 := if k.dead then s1 else (s1.ctxErr k.req.ctx k.req.core 0).modReq p.req (fun q => { q with dead := true })
      s2.partDone p.req n 0 0

/-! ## Statuses (R329) -/

/-- The runs of a request that Locus `n` keeps. -/
def State.partRuns (s : State) (r : MapReq) (n : Nat) : List Run :=
  (s.runs r.ctx r.a.toNat r.b.toNat).filter (fun q => locusOf q.la = n)

/-- REVOKED and UNMAPPED (R329). Bytes of the range that nothing maps belong to the part of the first byte. -/
def State.sourceStatus (s : State) (k : ReqRec) (n : Nat) (rs : List Run) : Nat :=
  let r := k.req
  let head := k.loci.head? = some n
  let stale := match r.node with
    | some j => head && ((s.node j).st ≠ .valid || (s.node j).gen ≠ r.gen)
    | none => false
  let tomb := head && !isRoot r.ctx && (s.ctx r.ctx).tombs.any (fun t => meets t.va t.len r.a.toNat r.b.toNat)
  let lost := rs.any (fun q => match q.node with | some j => (s.node j).st ≠ .valid | none => false)
  let hole := head && (s.runs r.ctx r.a.toNat r.b.toNat).foldl (fun m q => m + q.bytes) 0 < r.b.toNat
  if stale || tomb || lost then 1 else if hole then 2 else 0

/-- A legal home attribute (R285). -/
def homeLegal (a : Nat) : Bool :=
  if nbit a 31 then
    let z := fun (lo n : Nat) => a / 2 ^ lo % 2 ^ n
    z 30 1 = 0 && z 22 2 = 0 && z 13 3 = 0 && z 5 3 = 0 && z 24 6 ≤ z 16 6 && z 8 5 ≤ z 0 5 && z 0 5 ≤ 30
  else a < 1984

/-- The home attribute of a frame that a request leaves, where R325 allows the request. -/
def State.homeFor (s : State) (r : MapReq) (la : Nat) : Option Nat :=
  if !isMemory la then some 0
  else
    match (s.frame (la / 4096)).home with
    | some h => if r.home = 0xFFFF_FFFF || r.home = h then some h else none
    | none => if r.home ≠ 0xFFFF_FFFF && homeLegal r.home && isRoot r.ctx then some r.home else none

/-- The source's rights, attribute and depth behind a run. -/
def State.sourceRights (s : State) (q : Run) : BitVec 6 := match q.node with | some j => (s.node j).rights | none => 0x3F
def State.sourceDepth (s : State) (q : Run) : Nat := match q.node with | some j => (s.node j).depth | none => 0

/-- Whether a run's destination meets what its context already maps, other than by tombstones (R329 OVERLAP). -/
def State.overlaps (s : State) (d e1 : Nat) (q : Run) : Bool :=
  isRoot d || q.parts.any (fun p => s.nodes.any (fun m => m.2.maps && m.2.holder = d &&
    m.2.vaParts.any (fun w => meets w.1 w.2 (e1 + p.1) p.2.2)))

/-- Whether a run would share a destination page with a node of another frame, other rights or another attribute (R322). -/
def State.conflicts (s : State) (r : MapReq) (d : Nat) (q : Run) : Bool :=
  q.parts.any (fun p =>
    let page := (r.e1.toNat + p.1) / 4096
    s.nodes.any (fun m => m.2.maps && m.2.holder = d && m.2.run.parts.any (fun w => (m.2.vbase + w.1) / 4096 = page &&
      (w.2.1 / 4096 ≠ p.2.1 / 4096 || m.2.rights ≠ r.rights || m.2.attr ≠ fld r.e2 0 2))))

/-- A frame's world does not admit a context (R392). -/
def State.worldBars (s : State) (d la : Nat) : Bool :=
  let fr := s.frame (la / 4096)
  !isHost la && fr.comp ≠ 0 && (isRoot d || fr.vf ≠ ctxFn d)

/-- How many nodes a part makes (R320, R330): one for each run, and of a GRANT those that its source nodes are cut into. -/
def State.nodesMade (s : State) (op : Nat) (rs : List Run) : Nat :=
  rs.length + (if op = 1 then (rs.foldl (fun (t : State) q => t.isolate q) s).nodesUsed - s.nodesUsed else 0)

/-- The status of a MAP, GRANT or MAPROOT part, in the order of R329. With ENABLE 0 nothing of e0 is checked but its bits [63:55], although
its CTXID names the receiving context (R328; log 108). -/
def State.mapStatus (s : State) (k : ReqRec) (n : Nat) (rs : List Run) : Nat :=
  let r := k.req
  let d := destCtx r.ctx r.e0 false
  let src := s.sourceStatus k n rs
  if src ≠ 0 then src
  else if rs.any (fun q => !(bit (s.sourceRights q) (if r.op = 1 then rGrant else rMap)) || r.rights &&& ~~~(s.sourceRights q) ≠ 0 ||
      q.parts.any (fun p => s.worldBars d p.2.1)) then 3
  else if !(s.destOk r.ctx d r.e0 && s.destOk r.ctx d ((r.e2 &&& ~~~0xFFFF_FFFF) ||| w64 d)) then 4
  else if rs.any (s.overlaps d r.e1.toNat) then 5
  else if rs.any (s.conflicts r d) then 6
  else if rs.any (fun q => 32 ≤ s.sourceDepth q && r.op ≠ 1) then 7
  else if nodeLimit < s.nodesUsed + s.nodesMade r.op rs then 8
  else if !r.inLimits || fld r.e2 0 2 = 3 || fld r.e2 2 30 ≠ 0 ||
      (r.e1 - r.a).toNat % 4096 ≠ 0 ||
      rs.any (fun q => match q.node with | some j => (s.node j).attr < fld r.e2 0 2 | none => false) then 9
  else if rs.any (fun q => q.parts.any (fun p => (s.homeFor r p.2.1).isNone)) then 10
  else 0

/-! ## MAP and GRANT (R330) -/

/-- Whether a context belongs to a compartment of a world with compartments, so that its nodes carry CONF (R334). -/
def State.confCtx (s : State) (d : Nat) : Bool := !isRoot d && (s.world (ctxFn d)).st ≠ .isOpen

/-- The frames of a run that leave the physical function's root space for the first time take their home and key (R325,
R392, R394); a scratch frame has no home, and its mark tells that it has left. -/
def State.fixFrames (s : State) (r : MapReq) (d : Nat) (q : Run) : State :=
  if isRoot r.ctx then
    q.parts.foldl (fun (t : State) p =>
      let fr := p.2.1 / 4096
      if !isHost p.2.1 && (t.frame fr).home.isNone then
        let u := t.modFrame fr (fun f =>
          { f with home := some (if isMemory p.2.1 then r.home else 0), comp := r.keysel, vf := if r.keysel = 0 then 0 else ctxFn d })
        if r.keysel = 2 && isMemory p.2.1 && !isAperture p.2.1 then u.rekeyFrame fr (u.doKey (ctxFn d)) else u
      else t) s
  else s

/-- Make the receiving node of a run beneath `parent` (R320, R330). -/
def State.makeNode (s : State) (r : MapReq) (q : Run) (parent : Option Nat) (depth : Nat) : State :=
  let d := destCtx r.ctx r.e0 false
  let s0 := s.fixFrames r d q
  let j := s0.freeNode
  let n : Node :=
    { st := .valid, holder := d, vbase := r.e1.toNat + q.off, lbase := q.la, len := q.len, rights := r.rights, attr := fld r.e2 0 2,
      home := (s0.homeFor r q.la).getD 0, parent := parent, depth := depth, gen := (s0.node j).gen,
      notice := if bit r.e2 54 then (r.e2 &&& ~~~0xFFFF_FFFF) ||| w64 d else 0, conf := s0.confCtx d, tombed := false }
  (s0.modNode j (fun _ => n)).untombNode n

/-- LOCUS_MAP (R330): a MAP or MAPROOT is processed in its turn. -/
def execLocusMap (n : Nat) (s : State) : Result :=
  device s (s.process n [0] (fun p k t =>
    let rs := t.partRuns k.req n
    let u := t.chargeWork n k.req rs.length
    match t.mapStatus k n rs with
    | 0 => (rs.foldl (fun (u : State) q => u.makeNode k.req q q.node (1 + u.sourceDepth q)) u).partDone p.req n 0 rs.length
    | st => u.partDone p.req n st 0))

/-! ## Withdrawals (R332) -/

/-- The targets of an extent: home slices, scratch banks and MXUs (R332). -/
def State.targets (s : State) (q : Run) : List Nat :=
  q.parts.flatMap (fun p => (pieces 128 p.2.1 p.2.2).flatMap (fun w =>
    match region w.1 with
    | .scratch c b _ => [bankTarget c b]
    | .memory => [homeTarget (s.homeCore w.1), mxuTarget (mxuOf w.1)]
    | _ => [mxuTarget (mxuOf w.1)]))

/-- A context of a world with compartments loses a node that it holds: forced reclaim (R115, R334). -/
def State.forceReclaim (s : State) (ctx : Nat) : State :=
  if (s.ctx ctx).st = .live || (s.ctx ctx).st = .faulted then
    s.destroy ctx (fun k => { k with forced := true })
  else s

/-- Begin a withdrawal at a Locus: the roots become REVOKING and their targets are sent the cut (R332 phase 1); one that is
RELEASED holds no rights, and only phase 4 reaches it (R323). Holders of
nodes that carry CONF are destroyed (R334), but not for the nodes that a RELEASE or a GRANT of their own gives up (R330,
R403). -/
def State.beginCut (s : State) (n id op : Nat) (roots nodes : List Nat) : State :=
  let live := roots.filter (fun k => (s.node k).st ≠ .released)
  let cuts := dedup (live.flatMap (fun k => s.targets (s.node k).run))
  let s1 := live.foldl (fun (t : State) k => t.modNode k (fun q => { q with st := .revoking })) s
  let s2 :=
    nodes.foldl (fun (t : State) k =>
      if (s.node k).conf && (s.node k).st ≠ .released && !((op = 1 || op = 4) && roots.contains k) then
        t.forceReclaim (s.node k).holder
      else t) s1
  s2.modLocus n (fun q => { q with work := some ⟨id, roots, nodes, 1, cuts, [], [], s.ptime, none, s.ptime, false⟩ })

/-- Count a withdrawn node in the notice of its holder and destination (R456). -/
def addNotice (l : List Notice) (n : Node) : List Notice :=
  let top := n.vaParts.foldl (fun m p => max m (p.1 + p.2)) 0
  if l.any (fun w => w.holder = n.holder && w.dest = n.notice) then
    l.map (fun w =>
      if w.holder = n.holder && w.dest = n.notice then
        { w with nodes := w.nodes + 1, base := min w.base n.vbase, top := max w.top top,
                 rights := if n.vbase < w.base then n.rights else w.rights }
      else w)
  else l ++ [⟨n.holder, n.notice, 1, n.vbase, top, n.rights⟩]

/-- Phase 2: every node of the subtrees is REVOKING, its holder's translations are tombstones, and shoot-downs go to the
holder's cores; the notices are counted (R332, R456). -/
def State.markAll (s : State) (n : Nat) (w : Withdraw) (notify : Bool) : State :=
  let live := w.nodes.filter (fun k => (s.node k).st ≠ .released)
  let s1 := live.foldl (fun (t : State) k => (t.modNode k (fun q => { q with st := .revoking, tombed := true })).tombNode (s.node k)) s
  let s2 := if notify then s1.modReq w.req (fun r =>
      { r with notices := live.foldl (fun l k => if bit (s.node k).notice 54 then addNotice l (s.node k) else l) r.notices }) else s1
  let cores := dedup (live.flatMap (fun k => s.areaCores (s.node k).holder))
  s2.modLocus n (fun q => { q with work := some { w with phase := 2, shoots := cores } })

/-- A GRANT's receiving node of a source node stands beside it (R330). -/
def State.makePlace (s : State) (r : MapReq) (k : Nat) : State :=
  let n := s.node k
  s.makeNode r ⟨n.vbase - r.a.toNat, n.len, n.lbase, some k⟩ n.parent n.depth

/-- LOCUS_GRANT (R330): the sender's nodes are cut at the ends of the range, the receiving nodes are made, and the sender's are
withdrawn; the receiving nodes take over their children when the withdrawal ends (log 114). From the root space, which keeps every right
(R319), GRANT acts as MAP. -/
def execLocusGrant (n : Nat) (s : State) : Result :=
  device s (s.process n [1] (fun p k t =>
    let rs := t.partRuns k.req n
    match t.mapStatus k n rs with
    | 0 =>
      if isRoot k.req.ctx then (rs.foldl (fun (u : State) q => u.makeNode k.req q q.node 1) (t.chargeWork n k.req rs.length)).partDone p.req n 0 rs.length
      else
        let u := rs.foldl (fun (u : State) q => u.isolate q) t
        let ks := (u.partRuns k.req n).filterMap (·.node)
        (ks.foldl (fun (v : State) j => v.makePlace k.req j) u).beginCut n p.req 1 ks ks
    | st => (t.chargeWork n k.req 0).partDone p.req n st 0))

/-- The roots that an UNMAP withdraws at a Locus: every child of the sender's nodes that meets the range (R331). -/
def State.unmapRoots (s : State) (r : MapReq) (n : Nat) (rs : List Run) : List Nat :=
  if isRoot r.ctx then
    (s.kids none).filter (fun j => locusOf (s.node j).lbase = n &&
      (s.node j).run.parts.any (fun p => meets p.2.1 p.2.2 r.a.toNat r.b.toNat))
  else
    dedup (rs.flatMap (fun q => match q.node with
      | some k => (s.kids (some k)).filter (fun j => (s.node j).run.meetsLa q)
      | none => []))

/-- The roots that a destroyed context leaves at a Locus: its own nodes but those it has released (R115). -/
def State.goneRoots (s : State) (ctx n : Nat) : List Nat :=
  (s.nodes.filter (fun p => p.2.holder = ctx && (p.2.st = .valid || p.2.st = .revoking) && locusOf p.2.lbase = n)).map (·.1)

/-- The subtrees of some roots, each node once. -/
def State.subtrees (s : State) (roots : List Nat) : List Nat := dedup (roots.flatMap (fun k => s.subtree 33 k))

/-- LOCUS_UNMAP (R331): an UNMAP, or the withdrawal of a destroyed context's space (R115), begins. -/
def execLocusUnmap (n : Nat) (s : State) : Result :=
  device s (s.process n [2, 8] (fun p k t =>
    let r := k.req
    let rs := if isRoot r.ctx then [] else t.partRuns r n
    let st := if r.op = 8 || isRoot r.ctx then 0 else t.sourceStatus k n rs
    if st ≠ 0 then (t.chargeWork n r 0).partDone p.req n st 0
    else if !r.inLimits then (t.chargeWork n r 0).partDone p.req n 9 0
    else
      let roots := if r.op = 8 then t.goneRoots r.ctx n else t.unmapRoots r n rs
      if roots.isEmpty then (t.chargeWork n r 0).partDone p.req n 0 0 else t.beginCut n p.req r.op roots (t.subtrees roots)))

/-- LOCUS_RELEASE (R338): the sender's own nodes, which the range must cover whole, are cut with what lies beneath them. -/
def execLocusRelease (n : Nat) (s : State) : Result :=
  device s (s.process n [4] (fun p k t =>
    let r := k.req
    let rs := if isRoot r.ctx then [] else t.partRuns r n
    let st := if isRoot r.ctx then 0 else t.sourceStatus k n rs
    let whole := rs.all (fun q => match q.node with | some j => (t.node j).len = q.len | none => false)
    if st ≠ 0 then (t.chargeWork n r 0).partDone p.req n st 0
    else if !r.inLimits || isRoot r.ctx || !whole then (t.chargeWork n r 0).partDone p.req n 9 0
    else
      let roots := rs.filterMap (·.node)
      if roots.isEmpty then (t.chargeWork n r 0).partDone p.req n 0 0 else t.beginCut n p.req 4 roots (t.subtrees roots)))

/-- The RELEASED nodes that an ACCEPT frees at a Locus (R337): in the range, children of the sender's nodes, or any for a
host-root sender, and held by the context named. -/
def State.acceptable (s : State) (r : MapReq) (n : Nat) (rs : List Run) : List Nat :=
  (s.nodes.filter (fun p =>
    p.2.st = .released && locusOf p.2.lbase = n && (fld r.e1 0 32 = 0xFFFF_FFFF || fld r.e1 0 32 = p.2.holder) &&
      (if isRoot r.ctx then p.2.run.inside r.a.toNat r.b.toNat
       else rs.any (fun q => q.node = p.2.parent && q.node.isSome &&
         p.2.run.parts.all (fun w => q.parts.any (fun v => v.2.1 ≤ w.2.1 && w.2.1 + w.2.2 ≤ v.2.1 + v.2.2)))))).map (·.1)

/-- LOCUS_ACCEPT (R337). -/
def execLocusAccept (n : Nat) (s : State) : Result :=
  device s (s.process n [5] (fun p k t =>
    let r := k.req
    let rs := if isRoot r.ctx then [] else t.partRuns r n
    let st := if isRoot r.ctx then 0 else t.sourceStatus k n rs
    if st ≠ 0 then (t.chargeWork n r 0).partDone p.req n st 0
    else if !r.inLimits then (t.chargeWork n r 0).partDone p.req n 9 0
    else
      let ks := t.acceptable r n rs
      if ks.isEmpty then (t.chargeWork n r 0).partDone p.req n 11 0
      else (ks.foldl (fun (u : State) j => u.freeOne j) (t.chargeWork n r ks.length)).partDone p.req n 0 ks.length))

/-! ## Cuts, shoot-downs and phases (R332-R334, R343) -/

/-- REVOKE_CUT (R334, R343): a target takes the cut; an MXU first refuses the parked accesses within it. -/
def execRevokeCut (n target : Nat) (s : State) : Result :=
  device s (
    match (s.locus n).work with
    | none => s
    | some w =>
      if !w.cuts.contains target then s
      else
        let s1 := s.modLocus n (fun q => { q with work := some { w with cuts := w.cuts.filter (· ≠ target) } })
        let gone := s1.accs.filter (fun a => (a.st = .parked || ((a.st = .hostWait || a.st = .parkWait) && isHost a.la)) && mxuTarget (mxuOf a.la) = target &&
          (match a.node with | some k => w.nodes.contains k | none => false))
        gone.foldl (fun (t : State) a => ({ t with parks := t.parks.filter (fun p => p.acc ≠ a.id) }).refuse a 1) s1)

/-- SHOOTDOWN (R324, R333): the core drops the translations made from the nodes and its copies of their lines. -/
def execShootdown (n core : Nat) (s : State) : Result :=
  device s (
    match (s.locus n).work with
    | none => s
    | some w =>
      if !w.shoots.contains core then s
      else
        let ext := w.nodes.map (fun k => (s.node k).run)
        let s1 := s.modCore core (fun q => { q with
          tlb := q.tlb.filter (fun e => !e.nodes.any (fun p => w.nodes.contains p.2))
          l1 := q.l1.filter (fun e => !ext.any (fun x => x.meetsLa ⟨0, 128, e.1 * 128, none⟩)) })
        s1.modLocus n (fun q => { q with work := some { w with shoots := w.shoots.filter (· ≠ core), acks := core :: w.acks, shot := some (w.shot.getD s.ptime) } }))

/-- Whether a core still has an access through one of the nodes on its way (R333). What has come back for a context that is not
bound there waits for it and is on its way no longer. -/
def State.stillOut (s : State) (core : Nat) (nodes : List Nat) : Bool :=
  s.accs.any (fun a => a.core = core && (match a.node with | some k => nodes.contains k | none => false) &&
    !((match a.kind with | .probe _ => true | _ => false) && a.st = .done) &&
    !(a.st.settled && (s.core core).ctx ≠ some a.ctx))

/-- SHOOTDOWN_ACK (R333). -/
def execShootdownAck (n core : Nat) (s : State) : Result :=
  device s (
    match (s.locus n).work with
    | none => s
    | some w =>
      if w.acks.contains core && !s.stillOut core w.nodes then
        s.modLocus n (fun q => { q with work := some { w with acks := w.acks.filter (· ≠ core), acked := s.ptime } })
      else s)

/-- The number that stands for the Locus engines among the issuers of engine writes. -/
def thrLocus : Nat := 32

/-- The engine writes of a scrub: zeros over every line of the released extents (R338). -/
def State.sendScrub (s : State) (n : Nat) (w : Withdraw) : State :=
  (w.roots.flatMap (fun k => (s.node k).run.parts.map (fun p => ((s.node k).holder, p.2.1, p.2.2)))).foldl (fun (t : State) e =>
    (pieces 128 e.2.1 e.2.2).foldl (fun (u : State) p =>
      { u with
        accs := u.accs ++ [{
          id := u.nextAcc, core := 2047, ctx := e.1, thr := thrLocus, kind := .engine (some (List.replicate p.2 0)) false,
          st := .flying, va := 0, la := p.1, size := p.2, off := n, attr := 1, node := none, eff := 2, arr := 0, key := 0,
          pa := 0, ordinal := 0 }]
        nextAcc := u.nextAcc + 1 }) t) s

/-- The writes of a Locus's scrub. -/
def State.scrubs (s : State) (n : Nat) : List Acc := s.accs.filter (fun a => a.thr = thrLocus && a.off = n && a.core = 2047)

/-- The scrub has ended: its writes leave, and no granule of the extents stays poisoned, in its slice or in main memory (R338). -/
def State.endScrub (s : State) (n : Nat) (w : Withdraw) : State :=
  let clean := fun (m : SMap Bool) => (w.roots.flatMap (fun k => (s.node k).run.parts.map (fun p => (p.2.1, p.2.2)))).foldl (fun m e =>
      (pieces 16 e.1 e.2).foldl (fun m p => SMap.set false m (p.1 / 16) false) m) m
  { s with
    accs := s.accs.filter (fun a => !(a.thr = thrLocus && a.off = n && a.core = 2047))
    poison := clean s.poison, dpoison := clean s.dpoison }

/-- The receiving node that a GRANT has made for a source node. -/
def State.placeOf (s : State) (r : MapReq) (k : Nat) : Option Nat :=
  let n := s.node k
  (List.find? (fun (p : Nat × Node) => p.1 ≠ k && p.2.st = .valid && p.2.holder = destCtx r.ctx r.e0 false && p.2.lbase = n.lbase &&
    p.2.len = n.len && p.2.parent = n.parent && p.2.vbase = r.e1.toNat + (n.vbase - r.a.toNat)) s.nodes).map (·.1)

/-- A GRANT's receiving node takes the place of a cut source: its children are the receiving node's (R330). -/
def State.takePlace (s : State) (r : MapReq) (k : Nat) : State :=
  let j := (s.placeOf r k).orElse (fun _ => (s.node k).parent)
  ((s.kids (some k)).foldl (fun (t : State) c => t.modNode c (fun x => { x with parent := j })) s).freeOne k

/-- The Locus cycles of a withdrawal (R456): 8 ns for each node, and the time from the first shoot-down to the last
acknowledgement. -/
def Withdraw.cycles (w : Withdraw) : Nat := 12 * w.nodes.length + (match w.shot with | some t => (w.acked - t) * 3 / 2 | none => 0)

/-- Phase 4: nodes become FREE, the roots of a RELEASE RELEASED without rights, and the sources of a GRANT give way to the
receiving nodes (R323, R330, R332, R338). The work is charged (R169, R456). -/
def State.freeAll (s : State) (n : Nat) (w : Withdraw) (k : ReqRec) : State :=
  let s0 := (s.modLocus n (fun q => { q with work := none })).spendLoc (ctxFn k.req.ctx) n w.cycles
  match k.req.op with
  | 1 => (w.nodes.foldl (fun (t : State) j => t.takePlace k.req j) s0).partDone w.req n 0 w.nodes.length
  | 4 =>
    let s1 := w.nodes.foldl (fun (t : State) j => if w.roots.contains j then t else t.freeOne j) s0
    (w.roots.foldl (fun (t : State) j => t.modNode j (fun q => { q with st := .released, rights := 0 })) s1).partDone w.req n 0 w.nodes.length
  | _ => (w.nodes.foldl (fun (t : State) j => t.freeOne j) s0).partDone w.req n 0 w.nodes.length

/-- LOCUS_PHASE_END (R332, R456): the phase of a withdrawal ends when its work is done; a RELEASE scrubs before phase 4,
and a scrub that finds no frame gives NOSPACE. DESIGN CHOICE: such a RELEASE leaves every node of the subtrees RELEASED and unscrubbed (log
122), and the cut of a GRANT's source sends no revocation notice (log 123). -/
def execLocusPhaseEnd (n : Nat) (s : State) : Result :=
  device s (
    match (s.locus n).work with
    | none => s
    | some w =>
      match SMap.find? s.reqs w.req with
      | none => s
      | some k =>
        let advance := fun (t : State) (p : Nat) => t.modLocus n (fun q => { q with work := some { w with phase := p } })
        match w.phase with
        | 1 => if w.cuts.isEmpty then s.markAll n w (k.req.op ≠ 1) else s
        | 2 => if w.shoots.isEmpty then advance s 3 else s
        | 3 => if w.acks.isEmpty then advance (s.drained w.req n) 4 else s
        | _ =>
          if k.req.op = 4 && !w.scrub then
            (s.sendScrub n w).modLocus n (fun q => { q with work := some { w with scrub := true } })
          else if !(s.scrubs n).all (fun a => a.st.settled) || s.ptime < w.since + 8 * w.nodes.length then s
          else if (s.scrubs n).any (fun a => a.st ≠ .done) then
            let s1 := s.endScrub n { w with roots := [] }
            let s2 := w.nodes.foldl (fun (t : State) j => t.modNode j (fun q => { q with st := .released, rights := 0 })) s1
            (((s2.modLocus n (fun q => { q with work := none })).spendLoc (ctxFn k.req.ctx) n w.cycles).ctxErr k.req.ctx k.req.core 0).partDone w.req n 8 0
          else (if k.req.op = 4 then s.endScrub n w else s).freeAll n w k)

end Sys2Proof.Machine
end

