-- ==== Sys2Proof/Machine/Residency.lean ====
section
/-! DEFINITION. Frames and their DRAM slots, parks and fault records, residency commands, accounts and FRAME answers, and
the host's translations (chapter 17, R362). -/
namespace Sys2Proof.Machine

/-! ## DRAM slots (R362) -/

/-- Slots of a class in one cell. -/
def cellSlots (cls : Nat) : Nat := if cls = 1 then 39 else if cls = 2 then 40 else 32

/-- Cells of a link, and the key of one. -/
def cellCount : Nat := 2 ^ 20
def cellKey (link n : Nat) : Nat := link * cellCount + n

/-- The cells of a link that hold slots: number, class, taken slots. -/
def State.linkCells (s : State) (link : Nat) : List (Nat × Nat × List Nat) :=
  (s.cells.filter (fun p => p.1 / cellCount = link)).map (fun p => (p.1 % cellCount, p.2))

/-- The reserved frames of a link, the cells that they take at boot, the lowest, and the slots that they take in the last of these
when they do not fill it (R341, R362). -/
def State.resvOn (s : State) (link : Nat) : Nat := (s.resv.2 + 15 - (link + 16 - s.resv.1 % 16) % 16) / 16
def State.resvCells (s : State) (link : Nat) : Nat := ceilDiv (s.resvOn link) (cellSlots 0)
def State.resvPart (s : State) (link : Nat) : Nat := s.resvOn link % cellSlots 0

/-- The slots of the last reserved cell that other frames have taken. -/
def State.resvTaken (s : State) (link : Nat) : List Nat :=
  ((SMap.find? s.cells (cellKey link (s.resvCells link - 1))).map (·.2)).getD []

/-- A free slot of the last reserved cell, which is of class P. -/
def State.resvSlot (s : State) (link : Nat) : Option (Nat × Nat) :=
  if s.resvPart link = 0 then none
  else
    ((List.range (cellSlots 0)).find? (fun k => s.resvPart link ≤ k && !(s.resvTaken link).contains k)).map (fun k =>
      (s.resvCells link - 1, k))

/-- The other cells of a link that hold slots. -/
def State.openCells (s : State) (link : Nat) : List (Nat × Nat × List Nat) :=
  (s.linkCells link).filter (fun c => s.resvCells link ≤ c.1)

/-- The slot that an MXU would take for a class (R362): of the lowest-numbered cell of the class that has one free, or of the
lowest-numbered empty cell. -/
def State.freeSlot (s : State) (link cls : Nat) : Option (Nat × Nat) :=
  match if cls = 0 then s.resvSlot link else none with
  | some p => some p
  | none =>
    let cs := s.openCells link
    match cs.find? (fun c => c.2.1 = cls && c.2.2.length < cellSlots cls) with
    | some c => some (c.1, ((List.range (cellSlots cls)).find? (fun k => !c.2.2.contains k)).getD 0)
    | none =>
      ((List.range (min (cs.length + 1) (cellCount - s.resvCells link))).find? (fun n =>
        !cs.any (fun c => c.1 = s.resvCells link + n))).map (fun n => (s.resvCells link + n, 0))

def State.takeSlot (s : State) (link cls : Nat) (p : Nat × Nat) : State :=
  let old := ((SMap.find? s.cells (cellKey link p.1)).map (·.2)).getD []
  { s with cells := SMap.put s.cells (cellKey link p.1) (cls, p.2 :: old) }

/-- Free a slot; a cell whose slots are all free becomes empty. -/
def State.dropSlot (s : State) (link cell slot : Nat) : State :=
  match SMap.find? s.cells (cellKey link cell) with
  | some (c, l) =>
    let l1 := l.filter (· ≠ slot)
    { s with cells := if l1.isEmpty then SMap.del s.cells (cellKey link cell) else SMap.put s.cells (cellKey link cell) (c, l1) }
  | none => s

/-- MXSTAT.FREE of a link (R344, R362): the free slots of cells that have a class, and 32 for each empty cell. -/
def State.freeSlots (s : State) (link : Nat) : Nat :=
  let cs := s.openCells link
  (cs.map (fun c => cellSlots c.2.1 - c.2.2.length)).sum + 32 * (cellCount - s.resvCells link - cs.length) +
    (if s.resvPart link = 0 then 0 else cellSlots 0 - s.resvPart link - (s.resvTaken link).length)

/-! ## Accounts and victims (R340, R351-R353) -/

/-- The reserved frames that an UNPIN has left unpinned. -/
def State.resvLoose (s : State) : Nat := (s.frames.filter (fun p => s.isResv p.1 && !p.2.pinned)).length

/-- USED and PINNED of an account (R351); the reserved frames count for account 128 (R341). -/
def State.usedOf (s : State) (acct : Nat) : Nat := SMap.get 0 s.used acct + (if acct = 128 then s.resv.2 else 0)
def State.pinnedOf (s : State) (acct : Nat) : Nat :=
  SMap.get 0 s.pinnedCnt acct + (if acct = 128 then s.resv.2 - s.resvLoose else 0)
def State.addUsed (s : State) (acct : Nat) (up : Bool) : State :=
  let n := SMap.get 0 s.used acct
  { s with used := SMap.set 0 s.used acct (if up then n + 1 else n - 1) }
def State.addPinned (s : State) (acct : Nat) (up : Bool) : State :=
  let n := SMap.get 0 s.pinnedCnt acct
  { s with pinnedCnt := SMap.set 0 s.pinnedCnt acct (if up then n + 1 else n - 1) }

/-- A frame has been pinned or unpinned: its account counts it, and that of the reserved frames by their state (R341, R348). -/
def State.countPin (s : State) (fr : Nat) (up : Bool) : State := if s.isResv fr then s else s.addPinned (s.frame fr).acct up

/-- BURST and GUAR of an account (R351). -/
def State.burst (s : State) (acct : Nat) : Nat := fld (s.reg (fgbReg acct)) 32 32
def State.guar (s : State) (acct : Nat) : Nat := fld (s.reg (fgbReg acct)) 0 32

/-- A frame that may be evicted (R352). -/
def Frame.evictable (f : Frame) : Bool := f.st = .resident && !f.pinned && f.hold = 0

/-- The evictable frames of a link. -/
def State.evictables (s : State) (link : Nat) : List (Nat × Frame) :=
  s.frames.filter (fun p => p.1 % 16 = link && p.2.evictable && !s.isResv p.1)

/-- The order of victims within an account (R352). -/
def older (a b : Nat × Frame) : Bool := a.2.last < b.2.last || (a.2.last = b.2.last && a.1 < b.1)

/-- The victim of a link for a faulting account (R352). -/
def State.victim (s : State) (link acct : Nat) : Option Nat :=
  let es := s.evictables link
  let excess := fun (a : Nat) => s.usedOf a - s.guar a
  match leastBy (fun x y => excess y.2.acct < excess x.2.acct ||
      (excess x.2.acct = excess y.2.acct && (x.2.acct < y.2.acct || (x.2.acct = y.2.acct && older x y))))
      (es.filter (fun p => s.guar p.2.acct < s.usedOf p.2.acct)) with
  | some p => some p.1
  | none => (leastBy older (es.filter (fun p => p.2.acct = acct))).map (·.1)

/-- The account that a context's accesses are charged to (R340). -/
def acctOf (ctx : Nat) : Nat := ctxFn ctx

/-- The FRAME rule (R353) for a frame and an account. -/
def State.frameAnswers (s : State) (frame acct : Nat) : Bool :=
  let link := frame % 16
  ((s.freeSlot link (s.frame frame).cls).isNone && (s.victim link acct).isNone) ||
  (s.burst acct ≤ s.usedOf acct &&
    s.frames.all (fun p => !(p.2.st = .resident && p.2.acct = acct) || p.2.pinned || p.2.hold ≠ 0))

/-- The thread numbers of restore reloads (R124) and of the accesses of launch queues and commands (R155, R159). -/
def thrReload : Nat := 19
def thrQueue : Nat := 33

/-! ## Parks (R342, R345, R346, R353, R354) -/

def State.mxu (s : State) (n : Nat) : Mxu := SMap.get Mxu.reset s.mxus n
def State.modMxu (s : State) (n : Nat) (f : Mxu → Mxu) : State := { s with mxus := SMap.set Mxu.reset s.mxus n (f (s.mxu n)) }

/-- The places of a park table (R342). -/
def parkSize : Nat := 2048

def State.parkedAt (s : State) (n : Nat) : Nat := (s.parks.filter (fun p => p.mxu = n)).length

/-- The KIND of a park (R345). -/
def parkKind (a : Acc) : Nat :=
  match a.kind with
  | .load => 0
  | .fullLoad _ => 0
  | .vload => 0
  | .flush => 0
  | .prefetch => 0
  | .store _ => 1
  | .amo _ _ _ => 2
  | .fetch => 3
  | .engine none _ => if a.thr = thrReload then 7 else 4
  | .engine (some _) _ => if a.thr = thrLocus then 8 else 5
  | .probe _ => 6
  | .cxl _ => 5

/-- FLAGS of a record (R345). -/
def State.parkFlags (s : State) (frame acct : Nat) (again : Bool) : Nat :=
  b2n again + 2 * b2n (s.freeSlot (frame % 16) (s.frame frame).cls).isNone + 4 * b2n (s.frame frame).first +
    16 * b2n (s.burst acct ≤ s.usedOf acct)

/-- Bytes that the spec does not state (log 19): `n` of them, each asked for once. -/
def State.freeBytes (s : State) (n : Nat) : List Byte × State :=
  ((List.range n).map (fun k => Config.freeByte (s.nextFree + k)), { s with nextFree := s.nextFree + n })

/-- An access is answered FRAME (R354): a read gets poisoned bytes, a write is refused. -/
def State.frameAnswer (s : State) (a : Acc) : State :=
  match a.kind with
  | .store _ => s.refuse a 5
  | .probe _ => s.refuse a 5
  | .engine (some _) _ => s.refuse a 5
  | _ =>
    let r := s.freeBytes a.count
    r.2.modAcc a.id (fun q => { q with st := .valued r.1 true true })

/-- A park begins or begins again: the next number of its MXU, and a record of its own (R342, R346, R350). The table is full with
its last place (R344). -/
def State.addPark (s : State) (n : Nat) (a : Acc) (flags since : Nat) (pri : Bool) : State :=
  let k := s.mxu n
  let p : Park := ⟨n, k.nextSeq, a.id, a.la / 4096, if a.thr = thrLocus then 0 else a.ctx,
    if a.thr = thrLocus then 0xFF80 + a.off else if a.thr = thrQueue then 0xFFFE else a.core, parkKind a, flags, since, pri, 0⟩
  let t : State := { s with parks := s.parks.filter (fun (q : Park) => q.acc ≠ a.id) ++ [p] }
  (t.modMxu n (fun q => { q with nextSeq := q.nextSeq + 1, recs := q.recs ++ [p], full := q.full || parkSize ≤ t.parkedAt n })).modAcc a.id
    (fun q => { q with st := .parked })

/-- The parked accesses of a binding count (R437). -/
def State.countPark (s : State) (a : Acc) : State :=
  if thrLocus ≤ a.thr then s else s.modBind a.ctx a.core (fun b => { b with cnt := { b.cnt with parks := b.cnt.parks + 1 } })

/-- The MXU that an access parks at. -/
def parkMxu (a : Acc) : Nat := if isHost a.la then 16 else a.la / 4096 % 16

/-- Whether a miss must wait behind others for a place in the park table: they park in the order in which they have arrived (R342). -/
def State.behindWaiting (s : State) (a : Acc) : Bool :=
  s.accs.any (fun q => q.st = .parkWait && parkMxu q = parkMxu a && (a.st ≠ .parkWait || q.arr < a.arr))

/-- A miss that finds no place waits at its requester, and FULL is set (R342). -/
def State.parkFull (s : State) (a : Acc) : State :=
  let t := s.modMxu (parkMxu a) (fun q => { q with full := true })
  if a.st = .parkWait then t else t.waitThere a .parkWait

/-- Whether an access finds no place in its park table now. -/
def State.noPlace (s : State) (a : Acc) : Bool := parkSize ≤ s.parkedAt (parkMxu a) || s.behindWaiting a

/-- A Page Request for a page (R359): one at a time for a page, 512 in all, and no more of a function than the host has allocated. -/
def State.askPage (s : State) (rid pasid page : Nat) (rd wr : Bool) : State :=
  if s.preqs.any (fun p => p.rid = rid && p.pasid = pasid && p.page = page) || 512 ≤ s.preqs.length ||
      (s.cap rid).alloc ≤ (s.preqs.filter (fun p => p.rid = rid)).length then s
  else { s with preqs := s.preqs ++ [⟨rid, pasid, page, rd, wr, false⟩] }

/-- The host page of an access. -/
def State.pageOf (s : State) (a : Acc) : Nat := s.hostAddr a.la / 4096 * 4096

/-- The parked accesses of a host page, with what they need together (R359). -/
def State.pageParks (s : State) (rid pasid page : Nat) : List (Park × Acc) :=
  (s.parks.filter (fun p => p.pri)).filterMap (fun p =>
    match s.acc? p.acc with
    | some a => if s.windowRid a.la = (rid, pasid) && s.pageOf a = page then some (p, a) else none
    | none => none)

/-- The Page Requests that have waited for an allowance are sent as far as it goes now (R359), each for what the parks of its page need. -/
def State.askWaiting (s : State) : State :=
  (s.parks.filter (fun p => p.pri)).foldl (fun (t : State) p =>
    match t.acc? p.acc with
    | some a =>
      let w := t.windowRid a.la
      let all := (t.pageParks w.1 w.2 (t.pageOf a)).map (·.2)
      t.askPage w.1 w.2 (t.pageOf a) (all.any (fun b => b.needs.1)) (all.any (fun b => b.needs.2))
    | none => t) s

/-- MXU_PARK (R342, R353, R359): an access meets a frame that is not resident, or a host page whose translation has come
back unusable. One that has waited for a place and meets neither any more goes on. -/
def execMxuPark (acc : Nat) (s : State) : Result :=
  device s (
    match s.acc? acc with
    | none => s
    | some a =>
      let waited := a.st = .parkWait
      if isHost a.la then
        let w := s.windowRid a.la
        if !(a.st = .hostWait || waited) || s.treqs.any (fun t => t.rid = w.1 && t.pasid = w.2 && t.page = s.pageOf a) then s
        else if (s.atcAddr a).isSome then (if waited then s.modAcc acc (fun q => { q with st := .flying }) else s)
        else if s.prifail then s.refuse a 2
        else if s.noPlace a then s.parkFull a
        else
          let n := a.needs
          ((s.addPark 16 a 8 s.ptime true).countPark a).askPage w.1 w.2 (s.pageOf a) n.1 n.2
      else if !(a.st = .flying || waited) then s
      else if !s.misses a then (if waited then s.modAcc acc (fun q => { q with st := .flying }) else s)
      else
        match s.refusal a with
        | some r => s.refuse a r
        | none =>
          let frame := a.la / 4096
          if s.noPlace a then s.parkFull a
          else if s.frameAnswers frame (acctOf a.ctx) then s.frameAnswer a
          else (s.addPark (frame % 16) a (s.parkFlags frame (acctOf a.ctx) false) s.ptime false).countPark a)

/-- The 32 bytes of a fault record (R345). -/
def Park.bytes (p : Park) : List Byte :=
  leBytes 8 p.seq ++ leBytes 8 (p.frame * 4096) ++ leBytes 4 p.ctx ++ leBytes 2 p.saddr ++ leBytes 1 p.kind ++ leBytes 1 p.flags ++
    leBytes 8 p.since

/-- FAULT_RECORD_WRITE (R346): the oldest record that waits enters the ring, when there is room. -/
def execFaultRecordWrite (n : Nat) (s : State) : Result :=
  device s (
    match (s.mxu n).recs with
    | [] => s
    | p :: rest =>
      if s.ringOn (mxuReg n 0) && s.ringRoom (mxuReg n 0) then
        (s.modMxu n (fun q => { q with recs := rest })).hostRingPut (mxuReg n 0) p.bytes
      else s)

/-! ## REPLAY (R141, R350) -/

/-- A parked access proceeds (R343). -/
def State.releasePark (s : State) (p : Park) : State :=
  { s with
    parks := s.parks.filter (fun q => !(q.mxu = p.mxu && q.seq = p.seq))
    accs := s.accs.map (fun a => if a.id = p.acc then { a with st := .flying, rel := p.seq + 1 } else a) }

/-- A park leaves the table with its access settled by `f`. -/
def State.endPark (s : State) (p : Park) (f : State → Acc → State) : State :=
  let s1 := { s with parks := s.parks.filter (fun q => !(q.mxu = p.mxu && q.seq = p.seq)) }
  match s.acc? p.acc with
  | some a => f s1 a
  | none => s1

/-- Re-examine one park (R350). -/
def State.replayPark (s : State) (p : Park) : State :=
  if (s.frame p.frame).st = .resident then s.releasePark p
  else
    match s.acc? p.acc with
    | none => s.endPark p (fun t _ => t)
    | some a =>
      if s.frameAnswers p.frame (acctOf a.ctx) then s.endPark p State.frameAnswer
      else
        let t := s.addPark p.mxu a (s.parkFlags p.frame (acctOf a.ctx) true) p.since false
        { t with parks := t.parks.map (fun (q : Park) => if q.acc = p.acc then { q with lost := p.lost } else q) }

/-- The parks of a list in ascending number. -/
def sortParks : List Park → List Park
  | [] => []
  | a :: t => insert a (sortParks t)
where
  insert (a : Park) : List Park → List Park
    | [] => [a]
    | b :: t => if a.seq ≤ b.seq then a :: b :: t else b :: insert a t

/-- REPLAY (R350): the wake entries that the value covers retire (R141). -/
def execReplay (n : Nat) (v : Word) (s : State) : Result :=
  device s (
    let s1 := { s.setReg (mxuReg n 0x20) v with wakes := s.wakes.filter (fun w => !(w.mxu = n && w.page = 0 && w.seq ≤ v.toNat)) }
    (sortParks (s1.parks.filter (fun p => p.mxu = n && !p.pri && p.seq ≤ v.toNat))).foldl (fun (t : State) p => t.replayPark p) s1)

/-! ## Residency commands (R347-R349) -/

/-- The command ring of an MXU: RQBASE, RQCFG, RQTAIL, RQPROG. -/
def rqRing (n : Nat) : Nat := mxuReg n 0x30

/-- A tail write is accepted under R154 with PROG in its place. -/
def tailOk (t prog tail size : Nat) : Bool := (t + 2 ^ 32 - prog) % 2 ^ 32 ≤ size && (t + 2 ^ 32 - tail) % 2 ^ 32 ≤ size

/-- RQTAIL_WRITE (R347): refused writes are ignored, and MXU 16 has no command ring (R344). -/
def execRqtailWrite (n : Nat) (v : BitVec 32) (s : State) : Result :=
  device s (
    let k := rqRing n
    if n < 16 && tailOk v.toNat (s.ringHead k) (s.ringTail k) (s.ringSize k) then s.setReg (k + 16) (zext v) else s)

/-- The fields of a residency command. -/
structure RqCmd where
  at_   : Nat
  opc   : Nat
  zero  : Bool
  acct  : Nat
  frame : Word
  host  : Word
  pmask : Word
  deriving DecidableEq, Repr

/-- The next command of an MXU's ring, when commands are executed (R347). -/
def State.rqNext (s : State) (n : Nat) : Option RqCmd :=
  let k := rqRing n
  if n < 16 && s.ringOn k && s.ringUsed k ≠ 0 then
    let a := s.ringBase k + 32 * (s.ringHead k % s.ringSize k)
    let f := fun (o m : Nat) => ofLe ((List.range m).map (fun j => SMap.get 0 s.host (a + o + j)))
    some ⟨a, f 0 1, f 1 1 = 0 && f 3 1 = 0, f 4 4, w64 (f 8 8), w64 (f 16 8), w64 (f 24 8)⟩
  else none

/-- A command has ended: STATUS is written and PROG advances (R347). -/
def State.rqEnd (s : State) (n : Nat) (c : RqCmd) (status : Nat) : State :=
  ({ s with host := putBytes s.host (c.at_ + 2) (leBytes 1 status) }).setReg (rqRing n + 24) (w64 ((s.ringHead (rqRing n) + 1) % 2 ^ 32))

/-- BADCMD (R349): `any` where all ones may stand for a frame. A HOSTADDR that is not 4 KiB aligned is BADCMD as well (log 98). -/
def RqCmd.bad (c : RqCmd) (n : Nat) (any : Bool) : Bool :=
  !(1 ≤ c.opc && c.opc ≤ 4) || !c.zero || 128 < c.acct ||
    (!(any && c.frame = 0xFFFF_FFFF_FFFF_FFFF) &&
      !(isMemory c.frame.toNat && !isAperture c.frame.toNat && c.frame.toNat % 4096 = 0 && c.frame.toNat / 4096 % 16 = n)) ||
    c.host.toNat % 4096 ≠ 0

def RqCmd.fr (c : RqCmd) : Nat := c.frame.toNat / 4096

/-- A frame's bytes as they are stored for the host to see, DO lines enciphered, and what is read of such bytes (R394). -/
def State.storedBytes (s : State) (frame : Nat) (bs : List Byte) : List Byte := encipherFrame (s.frame frame).ckey frame bs

def State.loadedBytes (s : State) (frame : Nat) (bs : List Byte) : List Byte := decipherFrame (s.frameKey frame) frame bs

/-- A frame's bytes become known to the activations that run (R69). -/
def State.codeFill (s : State) (frame : Nat) (bs : List Byte) : State :=
  { s with binds := s.binds.map (fun p =>
      if p.2.act.isSome && !p.2.codeFrames.contains frame then
        (p.1, { p.2 with code := putBytes p.2.code (frame * 4096) bs, codeFrames := frame :: p.2.codeFrames })
      else p) }

/-- Whether a 64-byte block of a frame is marked in PMASK. -/
def blockMarked (pm : Word) (la : Nat) : Bool := bit pm (la % 4096 / 64)

/-- A frame's content is written afresh: bytes, poison by PMASK; class U takes zeros instead (R348, R365, R366). -/
def State.fillFrame (s : State) (frame : Nat) (bs : List Byte) (pm : Word) : State :=
  let la := frame * 4096
  let u := (s.frame frame).cls = 2
  let bs1 := if u then (List.range 4096).map (fun k => if blockMarked pm k then 0 else bs.getD k 0) else bs
  let clean := fun (m : SMap Bool) => (List.range 256).foldl (fun m k => SMap.set false m (frame * 256 + k) false) m
  let s1 := { s with mem := putBytes s.mem la bs1, dram := putBytes s.dram la bs1, poison := clean s.poison, dpoison := clean s.dpoison }
  let gs := if u then [] else ((List.range 256).filter (fun k => bit pm (k / 4))).flatMap (fun k => s1.poisonSpan (la + 16 * k))
  let mark := fun (m : SMap Bool) => gs.foldl (fun m g => SMap.set false m g true) m
  ({ s1 with poison := mark s1.poison, dpoison := mark s1.dpoison }).codeFill frame bs1

/-- FILL (R348, R349); a reserved OPC ends here as BADCMD. `ok` is the host's answer to the read, and `data` what the host itself has
written from HOSTADDR on before it (log 11). -/
def execFill (n : Nat) (ok : Bool) (data : List Byte) (s : State) : Result :=
  device s (
    match s.rqNext n with
    | none => s
    | some c =>
      if 2 ≤ c.opc && c.opc ≤ 4 then s
      else if c.bad n false then s.rqEnd n c 1
      else
        let f := s.frame c.fr
        if f.st ≠ .nonres then s.rqEnd n c 2
        else
          match s.freeSlot n f.cls with
          | none => s.rqEnd n c 4
          | some p =>
            if s.burst c.acct ≤ s.usedOf c.acct then s.rqEnd n c 5
            else if c.host ≠ 0 && !ok then s.rqEnd n c 7
            else
              let t : State := if c.host = 0 then s else { s with host := putBytes s.host c.host.toNat (data.take 4096) }
              let image := (List.range 4096).map (fun k => SMap.get 0 t.host (c.host.toNat + k))
              let bs := t.loadedBytes c.fr (if c.host = 0 then List.replicate 4096 0 else image)
              let s1 := ((t.takeSlot n f.cls p).addUsed c.acct true).modFrame c.fr (fun q =>
                { q with st := .resident, cell := p.1, slot := p.2, acct := c.acct, first := false, pinned := false, ckey := t.frameKey c.fr })
              (s1.fillFrame c.fr bs c.pmask).rqEnd n c 0)

/-- EVICT (R340, R348): the frame, or the victim of R352, becomes EVICTING, and accesses park from then on. A reserved frame is
never evicted (R341). -/
def execEvict (n : Nat) (s : State) : Result :=
  device s (
    match s.rqNext n with
    | none => s
    | some c =>
      if c.opc ≠ 2 || (s.mxu n).evict.isSome then s
      else if c.bad n true then s.rqEnd n c 1
      else
        let start := fun (t : State) (fr : Nat) =>
          (t.modFrame fr (fun q => { q with st := .evicting })).modMxu n (fun q => { q with evict := some fr })
        if c.frame = 0xFFFF_FFFF_FFFF_FFFF then
          match s.victim n c.acct with
          | none => s.rqEnd n c 8
          | some fr => start s fr
        else
          let f := s.frame c.fr
          if f.st ≠ .resident then s.rqEnd n c 3
          else if f.pinned || s.isResv c.fr then s.rqEnd n c 6
          else start s c.fr)

/-- Whether a frame still waits: it is held, an access is at its home, or a lease has not expired (R288, R340, R355). -/
def State.frameBusy (s : State) (frame : Nat) : Bool :=
  (s.frame frame).hold ≠ 0 ||
  s.accs.any (fun a => isMemory a.la && a.la / 4096 = frame && (a.st = .leaseWait || a.st = .fullWait)) ||
  (List.range 32).any (fun k => s.ptime < SMap.get 0 s.leases (frame * 32 + k))

/-- Write back and drop every line of a frame (R340). -/
def State.cleanFrame (s : State) (frame : Nat) : State :=
  (List.range 32).foldl (fun (t : State) k =>
    let u := (t.writeBack (frame * 32 + k)).dropLine (frame * 32 + k)
    { u with l2 := SMap.set false u.l2 (frame * 32 + k) false }) s

/-- The blocks of a frame in DRAM that hold poison, as PMASK. -/
def State.poisonMask (s : State) (frame : Nat) : Word :=
  (List.range 64).foldl (fun m i =>
    if (List.range 4).any (fun j => SMap.get false s.dpoison (frame * 256 + 4 * i + j)) then setBit m i else m) 0

/-- Forget a frame that has left memory. -/
def State.clearFrame (s : State) (frame : Nat) : State :=
  let z := List.replicate 4096 (0 : Byte)
  let clean := fun (m : SMap Bool) => (List.range 256).foldl (fun m k => SMap.set false m (frame * 256 + k) false) m
  { s with mem := putBytes s.mem (frame * 4096) z, dram := putBytes s.dram (frame * 4096) z,
           poison := clean s.poison, dpoison := clean s.dpoison }

/-- EVICT_COPYOUT_DONE (R340, R348, R349): the dirty lines are written back and dropped, and the data goes to the host, with
poisoned blocks as zeros, and the frame that was chosen to LFRAME; a refused host write leaves the frame as it was. -/
def execEvictCopyoutDone (n : Nat) (ok : Bool) (s : State) : Result :=
  device s (
    match (s.mxu n).evict, s.rqNext n with
    | some fr, some c =>
      if s.frameBusy fr then s
      else
        let s0 := s.modMxu n (fun q => { q with evict := none })
        let s1 := s0.cleanFrame fr
        if !ok then (s1.modFrame fr (fun q => { q with st := .resident })).rqEnd n c 7
        else
          let f := s.frame fr
          let pm := s1.poisonMask fr
          let raw := s1.storedBytes fr ((List.range 4096).map (fun k => SMap.get 0 s1.dram (fr * 4096 + k)))
          let bs := (List.range 4096).map (fun k => if blockMarked pm k then 0 else raw.getD k 0)
          let h := putBytes (putBytes s1.host c.host.toNat bs) (c.at_ + 24) (leBytes 8 pm.toNat)
          let s2 := { s1 with host := if c.frame = 0xFFFF_FFFF_FFFF_FFFF then putBytes h (c.at_ + 8) (leBytes 8 (fr * 4096)) else h }
          let s3 := ((s2.clearFrame fr).dropSlot n f.cell f.slot).addUsed f.acct false
          (s3.modFrame fr (fun q => { q with st := .nonres, pinned := false, cell := 0, slot := 0, ckey := [] })).rqEnd n c 0
    | _, _ => s)

/-- PIN (R348). -/
def execPin (n : Nat) (s : State) : Result :=
  device s (
    match s.rqNext n with
    | none => s
    | some c =>
      if c.opc ≠ 3 then s
      else if c.bad n false then s.rqEnd n c 1
      else if (s.frame c.fr).st ≠ .resident then s.rqEnd n c 3
      else if (s.frame c.fr).pinned then s.rqEnd n c 0
      else ((s.modFrame c.fr (fun q => { q with pinned := true })).countPin c.fr true).rqEnd n c 0)

/-- UNPIN (R348). -/
def execUnpin (n : Nat) (s : State) : Result :=
  device s (
    match s.rqNext n with
    | none => s
    | some c =>
      if c.opc ≠ 4 then s
      else if c.bad n false then s.rqEnd n c 1
      else if (s.frame c.fr).st ≠ .resident || !(s.frame c.fr).pinned then s.rqEnd n c 3
      else ((s.modFrame c.fr (fun q => { q with pinned := false })).countPin c.fr false).rqEnd n c 0)

/-- MXSTAT_READ (R344): FULL falls unless the table is full. -/
def execMxstatRead (n : Nat) (s : State) : Result := device s (s.modMxu n (fun q => { q with full := parkSize ≤ s.parkedAt n }))

/-- FGB_WRITE (R351). -/
def execFgbWrite (acct : Nat) (v : Word) (s : State) : Result :=
  device s (if acct ≤ 128 then s.setReg (fgbReg acct) (setFld v 0 32 (min (fld v 0 32) (fld v 32 32))) else s)

/-! ## Host translation (R358-R360) -/

/-- The translations that the ATC holds (R358). -/
def atcSize : Nat := 4096

def State.addAtc (s : State) (e : AtcEnt) : State :=
  let rest := s.atc.filter (fun q => !(q.rid = e.rid && q.pasid = e.pasid && q.page = e.page))
  { s with atc := (if rest.length < atcSize then rest else rest.drop 1) ++ [e] }

/-- The accesses that waited for a translation and may go on now, unless they have parked (R358). -/
def State.wakeHost (s : State) : State :=
  { s with accs := s.accs.map (fun a => if a.st = .hostWait && isHost a.la && (s.atcAddr a).isSome then { a with st := .flying } else a) }

/-- The parks of a page once its translation has been asked again after a Success (R359): released when the translation
meets their need, refused when the answered request covered it, and asked for again otherwise. -/
def State.settlePage (s : State) (q : PageReq) : State :=
  let s0 := { s with preqs := s.preqs.filter (fun p => p ≠ q) }
  let ps := sortParks ((s0.pageParks q.rid q.pasid q.page).map (·.1))
  let s1 := ps.foldl (fun (t : State) p =>
    match t.acc? p.acc with
    | none => t
    | some a =>
      let n := a.needs
      if (t.atcAddr a).isSome then t.releasePark p
      else if (!n.1 || q.rd) && (!n.2 || q.wr) then t.endPark p (fun u b => u.refuse b 2)
      else t) s0
  let rest := (s1.pageParks q.rid q.pasid q.page).map (·.2)
  if rest.isEmpty then s1
  else s1.askPage q.rid q.pasid q.page (rest.any (fun a => a.needs.1)) (rest.any (fun a => a.needs.2))

/-- The bytes that one entry of the ATC holds of a completion of `len` bytes (R358): from 4 KiB to 2 MiB. DESIGN CHOICE (log 127): of a
larger one it holds the 2 MiB around the page. -/
def atcSpan (len : Nat) : Nat := min (max 4096 len) (2 ^ 21)

/-- TRANSLATION_COMPLETION (R358-R360, R406): a page by its requester ID, PASID and address, its physical address, its size and its
permissions. One that an invalidation has overtaken is used for no access, and the translation is requested again; one for a stream that
has stopped is discarded. -/
def execTranslationCompletion (page : Nat × Nat × Nat) (pa len : Nat) (rd wr : Bool) (s : State) : Result :=
  device s (
    match s.treqs.find? (fun t => (t.rid, t.pasid, t.page) = page) with
    | none => s
    | some t =>
      if (s.world t.rid).stopped then s
      else if t.stale then
        ({ s with treqs := s.treqs.map (fun q => if q = t then { q with stale := false, key := (s.world t.rid).keyset } else q) } : State).retireSet t.rid
      else
        let n := atcSpan len
        let s0 := ({ s with treqs := s.treqs.filter (· ≠ t) } : State).retireSet t.rid
        let s1 := if rd || wr then s0.addAtc ⟨t.rid, t.pasid, t.page / n * n, n, pa / n * n, rd, wr⟩ else s0
        let s2 := s1.wakeHost
        match s2.preqs.find? (fun q => (q.rid, q.pasid, q.page) = page && q.answered) with
        | some q => (s2.settlePage q).askWaiting
        | none => s2)

/-- A translation is asked for again, whatever answer is on its way (R359). -/
def State.reask (s : State) (rid pasid page : Nat) : State :=
  if s.treqs.any (fun t => t.rid = rid && t.pasid = pasid && t.page = page) then
    { s with treqs := s.treqs.map (fun t => if t.rid = rid && t.pasid = pasid && t.page = page then { t with stale := true } else t) }
  else { s with treqs := s.treqs ++ [⟨rid, pasid, page, false, (s.world rid).keyset⟩] }

/-- PRG_RESPONSE (R359) for a page by its requester ID, PASID and address: 0 Success, 1 Invalid Request, any other code a Response Failure. The wake entries of the page
retire, whatever the code (R141). -/
def execPrgResponse (page : Nat × Nat × Nat) (code : Nat) (s : State) : Result :=
  device s (
    match s.preqs.find? (fun q => (q.rid, q.pasid, q.page) = page && !q.answered) with
    | none => s
    | some q =>
      let s0 := { s with wakes := s.wakes.filter (fun w => !(w.mxu = 16 && w.page = q.page)) }
      if code = 0 then
        ({ s0 with preqs := s0.preqs.map (fun p => if p = q then { p with answered := true } else p) }).reask q.rid q.pasid q.page
      else
        let s1 := { s0 with preqs := s0.preqs.filter (fun p => p ≠ q) }
        let s2 := (s1.pageParks q.rid q.pasid q.page).foldl (fun (t : State) p => t.endPark p.1 (fun u b => u.refuse b 2)) s1
        if code = 1 then s2.askWaiting else s2.modMxu 16 (fun m => { m with prifail := true }))

/-- Two byte ranges overlap. -/
def AtcEnt.overlaps (e : AtcEnt) (rid pasid base len : Nat) : Bool :=
  e.rid = rid && e.pasid = pasid && e.page < base + len && base < e.page + e.len

/-- Whether an access has been sent, or may yet be sent as the part of an access whose probe was answered, under a translation of a range
(R355, R360). -/
def State.under (s : State) (rid pasid base len : Nat) (a : Acc) : Bool :=
  isHost a.la && s.windowMode a.la = 3 && s.windowRid a.la = (rid, pasid) && s.hostAddr a.la < base + len &&
    base < s.hostAddr a.la + max a.size 1 &&
    (a.st = .hostOut || (match a.kind with | .probe _ => a.st = .done && a.pa ≠ 0 | _ => false))

/-- ATS_INVALIDATION_REQUEST (R360): up to 32 at a time; removed entries serve no later access, and requests under way
are asked again. -/
def execAtsInvalidationRequest (rid pasid base len : Nat) (s : State) : Result :=
  device s (
    if 32 ≤ s.invals.length then s
    else
      { s with
        atc := s.atc.filter (fun e => !(e.overlaps rid pasid base len))
        treqs := s.treqs.map (fun t =>
          if t.rid = rid && t.pasid = pasid && t.page < base + len && base < t.page + 4096 then { t with stale := true } else t)
        invals := s.invals ++ [⟨rid, pasid, base, len, (s.accs.filter (s.under rid pasid base len)).map (·.id)⟩] })

/-- INVALIDATION_COMPLETION (R360): sent for the oldest request once every request under its removed entries has
completed. -/
def execInvalidationCompletion (s : State) : Result :=
  device s (
    match s.invals with
    | [] => s
    | v :: t =>
      if v.waits.any (fun id => s.accs.any (fun a => a.id = id && s.under v.rid v.pasid v.base v.len a)) then s
      else { s with invals := t, sent := s.sent ++ [leBytes 2 v.rid ++ leBytes 4 v.pasid ++ leBytes 8 v.base ++ leBytes 8 v.len] })

/-- The host writes a function's ATS and PRI capabilities (R357, R359): setting PRI Enable clears PRIFAIL, and Page Requests that have waited
for an allowance are sent. -/
def State.capWrite (s : State) (fn : Nat) (k : Cap) : State :=
  let s1 := if k.pri && !(s.cap fn).pri then s.modMxu 16 (fun m => { m with prifail := false }) else s
  ({ s1 with caps := SMap.set Cap.reset s1.caps fn k } : State).askWaiting

/-- PRI_ENABLE_WRITE (R359): PRI Enable has been cleared and set. -/
def execPriEnableWrite (fn : Nat) (s : State) : Result :=
  device s (
    if fn ≤ 128 then
      (s.capWrite fn { s.cap fn with pri := true }).modMxu 16 (fun m => { m with prifail := false })
    else s)

end Sys2Proof.Machine
end

