-- ==== Sys2Proof/Machine/Confidential.lean ====
section
/-! DEFINITION. Tenant worlds, compartment keys and gates, CXL requests, IDE streams and the host port (R389-R409). -/
namespace Sys2Proof.Machine

/-! ## Gates (R399, R400) -/

/-- Whether the parameters of a window fit its gate (R399). -/
def gateFits (g : GateEnt) (e0 e1 e2 : Word) : Bool :=
  fld e2 3 61 = 0 && fld e2 0 3 ≠ 0 && Nat.land (fld e2 0 3) (7 - g.kinds % 8) = 0 && e0.toNat % 128 = 0 && 128 ≤ e1.toNat &&
    e1.toNat % 128 = 0 && g.base.toNat ≤ e0.toNat && e0.toNat + e1.toNat ≤ g.base.toNat + g.len

/-- GATE (R399). -/
def execGate (a d : Reg) (s : State) : Result :=
  run (.gate a d) s (fun f =>
    let c := f.core
    let k := s.ctx (s.ctxOf c)
    let g := fld (s.rd f a.toNat) 0 8
    let e3 := s.rdE f 3
    let fault := s.exact f 4 cGate (w64 g)
    if e3 &&& ~~~0xB ≠ 0 then s.exact f 4 cIllegal (encodeWord (.gate a d))
    else if k.comp = 0 then fault
    else
      match k.gates[g]? with
      | none => fault
      | some t =>
        let b := s.cur c
        if bit e3 3 then
          let w := fld e3 0 2
          if !(b.window w).isOpen || (b.window w).gate ≠ g then fault
          else (s.modCur c (fun q => q.setWindow w Window.closed)).finish f 4 d.toNat (w64 w)
        else if !gateFits t (s.rdE f 0) (s.rdE f 1) (s.rdE f 2) then fault
        else
          match (List.range 4).find? (fun w => !(b.window w).isOpen) with
          | none => fault
          | some w =>
            (s.modCur c (fun q => q.setWindow w ⟨s.rdE f 0, s.rdE f 1, g, fld (s.rdE f 2) 0 3, true⟩)).finish f 4 d.toNat (w64 w))

/-- What GSTAT reports of a gate (R400). -/
def State.gateWord (s : State) (c g : Nat) : Word :=
  match (s.ctx (s.ctxOf c)).gates[g]? with
  | none => 0
  | some t =>
    let b := s.cur c
    let op := (List.range 4).foldl (fun n w => if (b.window w).isOpen && (b.window w).gate = g then n + 2 ^ w else n) 0
    w64 (g + 2 ^ 8 * t.kinds + 2 ^ 16 * t.other + 2 ^ 32 * op)

/-- What GSTAT reports of an address (R400). -/
def State.keyWord (s : State) (ctx va : Nat) : Word :=
  match s.laOf ctx va with
  | none => 0
  | some la =>
    let fr := s.frame (la / 4096)
    let comp := if isHost la then 0 else fr.comp
    let slot := if comp = 0 then 0xFF else (s.world fr.vf).slotOf comp
    w64 (2 ^ 63 + 2 ^ 56 * comp + 2 ^ 48 * slot + la / 128 * 128)

/-- GSTAT (R400). -/
def execGstat (a d : Reg) (s : State) : Result :=
  run (.gstat a d) s (fun f =>
    let v := s.rd f a.toNat
    s.finish f 4 d.toNat (if bit v 63 then s.keyWord (s.ctxOf f.core) (fld v 0 57) else s.gateWord f.core (fld v 0 8)))

/-! ## Worlds and keys (R389-R391, R405) -/

def State.setWorld (s : State) (vf : Nat) (w : World) : State := { s with worlds := SMap.set World.reset s.worlds vf w }

def State.setKey (s : State) (n : Nat) (k : KeySlot) : State := { s with keys := SMap.set KeySlot.free s.keys n k }

/-- The two lowest free key slots. -/
def State.freeKeys (s : State) : List Nat := ((List.range 255).filter (fun n => s.keySlot n = KeySlot.free)).take 2

/-- The contexts of a virtual function that are not FREE. -/
def State.contextsOf (s : State) (vf : Nat) : List Nat :=
  (s.ctxs.filter (fun p => !isRoot p.1 && ctxFn p.1 = vf && p.2.st ≠ .free)).map (·.1)

/-- WCFG_CONF (R390): `tdi` is the state of the VF's TDI. -/
def execWcfgConf (vf tdi : Nat) (s : State) : Result :=
  device s (
    let w := s.world vf
    if 128 ≤ vf || w.st ≠ .isOpen then s
    else
      match s.freeKeys with
      | [m, d] =>
        if (s.contextsOf vf).any (fun c => (s.ctx c).st = .live) || !(tdi = 1 || tdi = 2) then s.setWorld vf { w with refused := true, tdi := tdi }
        else
          (((if s.dbg.isOpen && ctxFn s.dbg.ctxid = vf then s.closeSession else s).setKey m ⟨some vf, [], false⟩).setKey d ⟨some vf, [], false⟩).setWorld vf
            { w with st := .configured, moslot := m, doslot := d, mokey := false, dokey := false, tdi := tdi, digest := List.replicate 32 0 }
      | _ => s.setWorld vf { w with refused := true, tdi := tdi })

/-- A world with compartments begins to retire: its contexts are reclaimed by force, its slots take no new use, and CIM
halves deciphered with them become invalid (R390, R405). -/
def State.retireWorld (s : State) (vf : Nat) : State :=
  let w := s.world vf
  if w.st ≠ .configured && w.st ≠ .keyed then s
  else
    let s1 := (s.contextsOf vf).foldl (fun (t : State) c => t.forceReclaim c) (s.setWorld vf { w with st := .retiring })
    let s2 := [w.moslot, w.doslot].foldl (fun (t : State) n => t.setKey n { t.keySlot n with retired := true }) s1
    let hit := fun (h : Half) => if h.slot = w.moslot || h.slot = w.doslot then { h with invalid := true } else h
    { s2 with binds := s2.binds.map (fun p => (p.1, { p.2 with cims := p.2.cims.map (fun q => (q.1, { q.2 with h0 := hit q.2.h0, h1 := hit q.2.h1 })) })) }

/-- WCFG_RETIRE (R391). -/
def execWcfgRetire (vf : Nat) (s : State) : Result := device s (s.retireWorld vf)

/-- KEY_SET (R394, R405): only in CONFIGURED and once for each compartment; the second key makes the world KEYED. What its DO frames hold
is read under the key from now on. -/
def execKeySet (vf comp : Nat) (key : List Byte) (s : State) : Result :=
  device s (
    let w := s.world vf
    if w.st ≠ .configured || key.length ≠ 64 || !((comp = 1 && !w.mokey) || (comp = 2 && !w.dokey)) then s
    else
      let w1 := if comp = 1 then { w with mokey := true } else { w with dokey := true }
      let w2 := if w1.mokey && w1.dokey then { w1 with st := .keyed } else w1
      let t := (s.setKey (w.slotOf comp) { s.keySlot (w.slotOf comp) with key := key }).setWorld vf w2
      if comp = 2 then t.rekeyWorld vf else t)

/-- KEY_REVOKE (R405). -/
def execKeyRevoke (vf comp : Nat) (s : State) : Result := device s (if comp = 1 || comp = 2 then s.retireWorld vf else s)

/-- The TDI of a virtual function enters a state (R390, R401, R406): in ERROR the stream stops, and the world retires. -/
def State.tdiTo (s : State) (vf st : Nat) : State :=
  if 128 ≤ vf || 3 < st then s
  else if st = 3 then (s.setWorld vf { s.world vf with tdi := 3, stopped := true }).retireWorld vf
  else s.setWorld vf { s.world vf with tdi := st }

/-- TDI_ERROR (R390, R406). -/
def execTdiError (vf : Nat) (s : State) : Result := device s (s.tdiTo vf 3)

/-- FUNCTION_LEVEL_RESET (R390). -/
def execFunctionLevelReset (vf : Nat) (s : State) : Result := device s (s.retireWorld vf)

/-- Whether a key slot has a use outstanding: a CIM load under way, or an access to a frame of its compartment. -/
def State.slotBusy (s : State) (vf : Nat) : Bool :=
  let w := s.world vf
  s.binds.any (fun p => p.2.cims.any (fun q => [q.2.h0, q.2.h1].any (fun h => h.loading && (h.slot = w.moslot || h.slot = w.doslot)))) ||
  s.accs.any (fun a => !isHost a.la && (s.frame (a.la / 4096)).comp ≠ 0 && (s.frame (a.la / 4096)).vf = vf && !a.st.settled)

/-- WORLD_RETIRE_COMPLETE (R390). -/
def execWorldRetireComplete (vf : Nat) (s : State) : Result :=
  device s (
    let w := s.world vf
    if w.st ≠ .retiring || !(s.contextsOf vf).isEmpty || s.slotBusy vf then s
    else
      ((s.setKey w.moslot KeySlot.free).setKey w.doslot KeySlot.free).setWorld vf
        { World.reset with refused := w.refused, tdi := w.tdi, keyset := w.keyset, oldset := w.oldset, stopped := w.stopped })

/-! ## CXL (R401, R407, R408) -/

/-- Whether a CXL.mem request is accepted (R401, R408): with the T bit it names a DO frame of the stream's world, whose key takes new
uses and whose TDI runs; without it a frame that no node of a virtual function covers in part or whole. -/
def State.cxlOk (s : State) (tbit : Bool) (stream hpa : Nat) : Bool :=
  let fr := s.frame (hpa / 4096)
  isMemory hpa && !isAperture hpa &&
    (if tbit then fr.comp = 2 && fr.vf = stream && (s.world stream).tdi = 2 && s.keyHeld (s.world stream).doslot
     else fr.comp = 0 && !s.nodes.any (fun p => p.2.st ≠ .free && !isRoot p.2.holder &&
       p.2.run.parts.any (fun q => meets q.2.1 q.2.2 (hpa / 4096 * 4096) 4096)))

/-- A CXL.mem write comes to the home slice and waits there for leases and for the writes before it, as a device write does (R288,
R408). -/
def State.cxlWrite (s : State) (la : Nat) (bs : List Byte) : State :=
  let a : Acc := {
    id := s.nextAcc, core := 2047, ctx := 0, thr := 99, kind := .cxl bs, st := .flying, va := w64 la, la := la, size := 64, off := 0
    attr := 1, node := none, eff := 2, arr := 0, key := 0, pa := 0, ordinal := 0 }
  ({ s with accs := s.accs ++ [a], nextAcc := s.nextAcc + 1 } : State).atHome a

/-- CXL_MEM_REQUEST (R401, R408): 64 bytes at a host physical address of the HDM range, which is the logical address. A read
leaves the line Shared in the host; a write waits for leases; a line that another module holds alone is recalled first (R416). A refused
read brings poison and a refused write is dropped, with a record of type 5. -/
def execCxlMemRequest (write tbit : Bool) (stream hpa : Nat) (data : List Byte) (s : State) : Result :=
  device s (
    let a := hpa / 64 * 64
    let line := a / 128
    if !s.cxlOk tbit stream hpa then
      let s1 := s.relRec (relRecord s.ptime 0 0 5 0xFF 0 0 (hpa / 4096 % 2 ^ 32))
      if write then s1
      else
        let r := s1.freeBytes 64
        { r.2 with cxlOut := r.1 ++ [1] }
    else if (s.frame (hpa / 4096)).st ≠ .resident then s
    else if 2 ≤ s.remoteAt line then s.recallLines [line]
    else if write then s.cxlWrite a (fitBytes 64 data)
    else if s.writeWaiting line then s
    else
      let s1 := s.touchFrame a
      { s1 with
        cxlOut := s.bytesAt a 64 ++ [if s.poisoned a 64 then 1 else 0]
        hostPort := { s1.hostPort with hostHeld := if s1.hostPort.hostHeld.contains line then s1.hostPort.hostHeld else line :: s1.hostPort.hostHeld } })

/-- CXL_H2D_SNOOP (R407): the device holds no host line and answers with a miss. -/
def execCxlH2dSnoop (line : Nat) (s : State) : Result := device s { s with sent := s.sent ++ [leBytes 1 0 ++ leBytes 8 line] }

/-! ## IDE streams and the host port (R406, R409) -/

/-- IDE_KEY_SWITCH (R406): new requests use the other set; the old one stays until its last completion. -/
def execIdeKeySwitch (stream : Nat) (s : State) : Result :=
  device s (
    let w := s.world stream
    if w.oldset then s
    else (s.setWorld stream { w with keyset := 1 - w.keyset, oldset := true }).retireSet stream)

/-- HOST_LINK_UP (R407, R409): the link trains at ×16, ×8, ×4, ×2 or ×1. -/
def execHostLinkUp (width : Nat) (s : State) : Result :=
  device s (if [16, 8, 4, 2, 1].contains width then { s with hostPort := { s.hostPort with up := true, width := width } } else s)

/-- HOST_LINK_RECOVERY (R409): outstanding requests wait, and none is lost. -/
def execHostLinkRecovery (s : State) : Result := device s s

/-- HOST_LINK_DOWN (R406, R409): every parked or outstanding access to a host frame is refused; nothing is outstanding under an old IDE key
set any more. -/
def execHostLinkDown (s : State) : Result :=
  device s (
    let gone := s.accs.filter (fun a => isHost a.la && (a.st = .parked || a.st = .parkWait || a.st = .hostWait || a.st = .hostOut))
    let s1 := { s with
      hostPort := { s.hostPort with up := false, width := 0 }, treqs := [], preqs := []
      parks := s.parks.filter (fun p => !gone.any (fun a => a.id = p.acc)) }
    (List.range 128).foldl (fun (t : State) v => t.retireSet v) (gone.foldl (fun (t : State) a => t.refuse a 2) s1))

end Sys2Proof.Machine
end

