-- ==== Sys2Proof/Machine/Copy.lean ====
section
/-! DEFINITION. The copy engine (R302-R305). -/
namespace Sys2Proof.Machine

/-- Places of copies in flight (R303). -/
def copyPlaces : Nat := 256

def CopyRec.rowLen (k : CopyRec) : Nat := fld k.e2 0 32
def CopyRec.rows (k : CopyRec) : Nat := fld k.e2 32 16 + 1

/-- Bytes that the copy moves. -/
def CopyRec.total (k : CopyRec) : Nat := k.rowLen * k.rows

/-- The source and the destination of the byte at place `n` of the copy. -/
def CopyRec.src (k : CopyRec) (n : Nat) : Nat :=
  (k.e0 + w64 (n / k.rowLen) * w64 (fld k.e3 0 32) + w64 (n % k.rowLen)).toNat
def CopyRec.dst (k : CopyRec) (n : Nat) : Nat :=
  (k.e1 + w64 (n / k.rowLen) * w64 (fld k.e3 32 32) + w64 (n % k.rowLen)).toNat

/-- The limits of the operands (R303). -/
def CopyRec.badFields (k : CopyRec) : Bool :=
  k.e0.toNat % 16 ≠ 0 || k.e1.toNat % 16 ≠ 0 || k.rowLen % 16 ≠ 0 ||
    (1 < k.rows && (fld k.e3 0 32 % 16 ≠ 0 || fld k.e3 32 32 % 16 ≠ 0))

/-- Whether some row of the source or of the destination is a refused passage (R396). -/
def State.copyGated (s : State) (c : Nat) (k : CopyRec) : Bool :=
  let ctx := s.ctxOf c
  (s.ctx ctx).comp ≠ 0 && k.rowLen ≠ 0 &&
    (List.range k.rows).any (fun r =>
      s.gateRefused c ctx (k.src (r * k.rowLen)) k.rowLen kRead || s.gateRefused c ctx (k.dst (r * k.rowLen)) k.rowLen kWrite)

/-- CPYW (R305). -/
def execCpyw (a : Reg) (s : State) : Result :=
  run (.cpyw a) s (fun f =>
    let t := fld (s.rd f a.toNat) 0 5
    if (s.cur f.core).copies.all (fun k => k.st = .complete || (t ≠ 0 && k.tag ≠ t)) then s.retire f 4 else s)

/-- CPYQ (R305). -/
def execCpyq (d : Reg) (s : State) : Result :=
  run (.cpyq d) s (fun f =>
    s.finish f 4 d.toNat (w64 ((s.cur f.core).copies.length + 2 ^ 16 * (s.cur f.core).q3.length)))

def Bind.modCopy (b : Bind) (seq : Nat) (f : CopyRec → CopyRec) : Bind :=
  { b with copies := b.copies.map (fun k => if k.seq = seq then f k else k) }

/-- The token of a copy (R304). -/
def CopyRec.token (k : CopyRec) : Word :=
  w64 (k.tag + 2 ^ 5 * k.op + 2 ^ 8 * k.status +
    2 ^ 32 * (if k.status ≠ 0 then k.addr.toNat % 2 ^ 32 else if k.op = 1 then k.lost % 2 ^ 32 else 0))

/-- A completed copy leaves: with its token in q3 once it fits, or without one (R304). -/
def Bind.copyLeaves (b : Bind) (k : CopyRec) : Bind :=
  let rest := b.copies.filter (fun q => q.seq ≠ k.seq)
  if k.tag = 0 then { b with copies := rest }
  else if b.q3.length < tokenDepth then { b with q3 := b.q3 ++ [k.token], copies := rest, wfe := true }
  else b.modCopy k.seq (fun _ => k)

/-- A copy whose writes have performed ends once its release has (R268, R304): when q3 is full it keeps its place in flight
until its token fits. -/
def State.endCopy (s : State) (c : Nat) (k : CopyRec) : State :=
  if s.engineOwes c k.ord k.scope then s.engineFlush c thrCopy
  else
    (s.dropEngine c thrCopy k.seq).modCur c (fun b =>
      { b with cnt := { b.cnt with copies := b.cnt.copies + 1 } }.copyLeaves { k with st := .complete })

/-- A copy ends early with a status (R302, R304). -/
def State.failCopy (s : State) (c : Nat) (k : CopyRec) (status : Nat) (addr : Word) : State :=
  let q := { k with stop := true, status := status, addr := addr }
  ((s.dropEngine c thrCopy k.seq).modCur c (fun b => b.modCopy k.seq (fun _ => q))).endCopy c q

/-- The class of the memory at a destination (R303, R366). -/
def State.classOf (s : State) (c va : Nat) : Nat :=
  match s.look c (s.ctxOf c) va with
  | .hit x => s.classAt x.la
  | _ => 0

/-- The next granule of a copy with the ordering label of its whole row, the strongest of the row's pages (R309). -/
def State.rowPiece (s : State) (c : Nat) (k : CopyRec) (place : Nat → Nat) : List (Nat × (Nat × Nat)) :=
  [(s.strongest c (s.ctxOf c) (place (k.moved / k.rowLen * k.rowLen)) k.rowLen, (place k.moved, 16))]

/-- The next granule of a copy: read whole, then written whole (R302, R303). True when it is done. -/
def State.copyGranule (s : State) (c : Nat) (k : CopyRec) : State × Bool :=
  let fn := ctxFn (s.ctxOf c)
  let src := k.src k.moved
  let dst := k.dst k.moved
  if !s.cpyOk fn then (s, false)
  else
    match s.engineAll c thrCopy k.seq k.eff rRead none false (s.rowPiece c k k.src) with
    | .wait t => (t, false)
    | .fail st v => (s.failCopy c k st v, false)
    | .ok bs poison frames =>
      let toU := poison && s.classOf c dst = 2
      if toU && k.op = 0 then ((s.engineFrames c frames).failCopy c k stPoison (w64 src), false)
      else
        let data := if toU then List.replicate 16 0 else bs
        match s.engineAll c thrCopy k.seq k.eff rWrite (some (fun _ => data)) (poison && !toU) (s.rowPiece c k k.dst) with
        | .wait t => (t, false)
        | .fail st v => ((s.engineFrames c frames).failCopy c k st v, false)
        | .ok _ _ _ =>
          let s1 := ((s.dropEngine c thrCopy k.seq).engineFrames c frames).chkiIf c chkLost toU
          ((s1.spendCpy fn 16).modCur c (fun b =>
            { b.modCopy k.seq (fun q => { q with
                moved := q.moved + 16, lost := q.lost + b2n toU
                status := if q.status = 0 && !frames.isEmpty then stFrame else q.status
                addr := if q.status = 0 && !frames.isEmpty then frames.headD 0 else q.addr }) with
              cnt := { b.cnt with cpyBytes := b.cnt.cpyBytes + 16 } }), true)

/-- Run a copy on, at most `fuel` granules; behind its last write comes its release (R268). -/
def State.runCopy (s : State) (c seq : Nat) : Nat → State
  | 0 => s
  | fuel + 1 =>
    match (s.cur c).copies.find? (fun k => k.seq = seq && k.st = .running) with
    | none => s
    | some k =>
      if k.moved < k.total && !k.stop then
        let r := s.copyGranule c k
        if r.2 then r.1.runCopy c seq fuel else r.1
      else s.endCopy c k

/-- One turn of a copy (R302-R304): it starts once everything issued before it has performed, runs on for at most `granules`
granules, and once complete gives its token to q3 when it fits. -/
def State.copyTurn (s : State) (c : Nat) (k : CopyRec) (granules : Nat) : State :=
  if !s.engineOn c then s
  else if k.st = .complete then s.modCur c (fun b => b.copyLeaves k)
  else if k.st = .running then s.runCopy c k.seq (granules + 1)
  else if !(s.cur c).olderDone k.seq then s
  else
    ((s.engineAcquire c k.ord k.scope).modCur c (fun b => b.modCopy k.seq (fun q => { q with st := .running }))).runCopy c k.seq
      (granules + 1)

/-! ## Issue -/

/-- CPY (0) and CPYX (1): ILLEGAL, SCOPE, GATE; a place in flight; a forced close of a pair; a copy of
row length 0 completes at once (R302, R303, R383). -/
def copyOp (i : Instr) (op : Nat) (x : BitVec 3) (o : BitVec 2) (g : BitVec 5) (s : State) : Result :=
  run i s (fun f =>
    let c := f.core
    let b := s.cur c
    let k : CopyRec := {
      op := op, ord := o.toNat, scope := x.toNat, tag := g.toNat, e0 := s.rdE f 0, e1 := s.rdE f 1, e2 := s.rdE f 2,
      e3 := s.rdE f 3, moved := 0, stop := false, st := .queued, status := 0, addr := 0, lost := 0, eff := s.effClass c, seq := b.jseq }
    if k.badFields then s.exact f 4 cIllegal (encodeWord i)
    else if s.scopeBad c k.scope then s.exact f 4 cScope (zext x)
    else if s.copyGated c k then s.exact f 4 cGate 0xFFFF_FFFF_FFFF_FFFF
    else if copyPlaces ≤ b.copies.length then s
    else
      let s1 := s.modCur c (fun b => { b with copies := b.copies ++ [k], jseq := b.jseq + 1 })
      let s2 := if k.total ≠ 0 then s1 else if k.ord = 0 then s1.endCopy c k else s1.copyTurn c k 0
      s.afterClose f (s2.retire f 4))

def execCpy (x : BitVec 3) (o : BitVec 2) (g : BitVec 5) (s : State) : Result := copyOp (.cpy x o g) 0 x o g s
def execCpyx (x : BitVec 3) (o : BitVec 2) (g : BitVec 5) (s : State) : Result := copyOp (.cpyx x o g) 1 x o g s

/-- COPY_COMPLETE (R302-R304). -/
def execCopyComplete (core n granules : Nat) (s : State) : Result :=
  device s (
    match (s.cur core).copies[n]? with
    | some k => s.copyTurn core k granules
    | none => s)

end Sys2Proof.Machine
end

