-- ==== Sys2Proof/Machine/Pair.lean ====
section
/-! DEFINITION. Paired execution (R379-R388): intervals, agreement, rollback, tie-breaks, PAIR and UNPAIR, and CHECKERR
(R374). The partner repeats the primary's work and is seen only in the events that compare the two. -/
namespace Sys2Proof.Machine

/-- The die of a core (R10): columns 0..31 on die 0. -/
def dieOf (c : Nat) : Nat := if c % 64 < 32 then 0 else 1

/-! ## Closing an interval (R383, R384) -/

/-- A periodic close is due: COUNT instructions since the checkpoint (R382, R383). -/
def State.closeDue (s : State) (c : Nat) : Bool :=
  match (s.core c).pair.ckpt with
  | some b => b.retired + fld (s.core c).fpint 0 16 ≤ (s.cur c).retired
  | none => false

/-- Whether a pair compares fingerprints: it is running, and this core is its primary. -/
def PairSt.compares (p : PairSt) : Bool := p.folds && !p.partner

/-- The running interval closes, and the next begins (R383). -/
def State.shutInterval (s : State) (c : Nat) : State :=
  s.modCore c (fun k => { k with pair := { k.pair with shut := some (s.cur c).rolled, interval := k.pair.interval + 1 } })

/-- INTERVAL_CLOSE (R383): a forced or a due close; the next interval begins at once. A close waits for the one before it
and, unless the journal is full, for vector stores that are being issued. -/
def execIntervalClose (core : Nat) (s : State) : Result :=
  device s (
    let p := (s.core core).pair
    if p.compares && p.shut.isNone && (p.closing || s.closeDue core) && ((s.cur core).mts.all (fun m => m.2.prog = 0) || (s.cur core).freeEntry.isNone) then
      s.shutInterval core
    else s)

/-- The closed interval's journal entries may leave (R384). -/
def Bind.letGo (b : Bind) (n : Nat) : Bind :=
  { b with journal := b.journal.map (fun e => (e.1, if e.2.ival ≤ n then { e.2 with ival := 0 } else e.2)) }

/-- What has waited for its interval and may leave now: of the intervals up to `n` (R384). -/
def State.letOut (s : State) (c n : Nat) : State :=
  let p := (s.core c).pair
  ((p.out.filter (fun q => q.1 ≤ n)).foldl (fun (t : State) q => t.post q.2) s).modCore c (fun k =>
    { k with pair := { p with out := p.out.filter (fun q => n < q.1) } })

/-- The closed interval stands: its entries, claims and leaves go out, and the checkpoint is the state at the close (R384). -/
def State.agreeClose (s : State) (c : Nat) (mode : PairMode) : State :=
  let p := (s.core c).pair
  match p.shut with
  | none => s
  | some b =>
    ((s.modCur c (fun q => q.letGo p.interval)).letOut c (p.interval - 1)).modCore c (fun k =>
      { k with pair := { k.pair with mode := mode, ckpt := some b, shut := none, closing := k.pair.out ≠ [] } })

/-- FINGERPRINT_AGREE (R384, R385). -/
def execFingerprintAgree (core : Nat) (s : State) : Result :=
  device s (
    let p := (s.core core).pair
    if p.compares && p.mode ≠ .tiebreak then s.agreeClose core .run else s)

/-! ## Disagreement (R385) -/

/-- The tokens of an engine queue after a rollback: those of the checkpoint, then those that have come since. -/
def mergeTokens (old : List Word) : List Word → List Word → List Word
  | [], now => old ++ now
  | a :: t, now => if (a :: t).isPrefixOf now then old ++ now.drop (t.length + 1) else mergeTokens old t now

/-- A barrier entry taken back to a checkpoint `k` (R385): what the interval armed stays armed, since BARM repeats; what BARW
consumed can be consumed again, and an outcome that has come for the generation armed since is recorded for it. -/
def BarEntry.backTo (e k : BarEntry) : BarEntry :=
  if k.st = bIdle then
    if e.gen = k.gen || e.st = bArmed then e
    else { k with early := if e.st = bIdle then e.early else SMap.put e.early e.gen e.st }
  else if e.gen = k.gen && e.st ≠ bIdle then e
  else
    { k with
      st := bDone + e.last, value := if k.st < bDone then e.value else k.value, count := 0
      early := if e.gen ≠ k.gen && bDone < e.st then SMap.put e.early e.gen e.st else e.early }

/-- A binding's threads taken back to a checkpoint: the interval's HELD entries, outbox places and held requests are
discarded (R385). -/
def Bind.rollTo (b k : Bind) : Bind :=
  { b with
    x := k.x, e := k.e, i := k.i, pc := k.pc, retired := k.retired, produced := k.produced, chki := k.chki, mtmask := k.mtmask,
    mtflt := k.mtflt, q1 := k.q1, q2 := mergeTokens k.q2 k.q2 b.q2, q3 := mergeTokens k.q3 k.q3 b.q3, mts := k.mts, loop := k.loop,
    bars := b.bars.map (fun p => (p.1, p.2.backTo (k.bar p.1))), gens := k.gens, views := k.views, lastNest := k.lastNest, outbox := k.outbox, waits := false, pend := [], got := [],
    hostReads := k.hostReads, crc := k.crc, endWait := false,
    journal := b.journal.filter (fun e => e.2.ival = 0 || e.2.st ≠ .held) }

/-- The groups of granule stores that a core has probed for (R355). -/
def State.probeGroups (s : State) (c : Nat) : List Nat :=
  dedup (s.accs.filterMap (fun a => match a.kind with | .probe g => if a.core = c && a.ctx = s.ctxOf c then some g else none | _ => none))

/-- Both cores restore the checkpoint (R385): the interval that disagreed runs again, and the holds of its probes end. -/
def State.rollPair (s : State) (c : Nat) : State :=
  match (s.core c).pair.ckpt with
  | none => s
  | some k =>
    let t := (((List.range 17).foldl (fun (t : State) n => t.dropAccs ⟨c, n⟩) s).modCur c (fun b => b.rollTo k)).modCore c (fun q =>
      { q with pair := { q.pair with out := [] } })
    (t.probeGroups c).foldl (fun (u : State) g => u.endHolds (u.ctxOf c) c g) t

/-- The number of the interval that is being compared. -/
def PairSt.number (p : PairSt) : Nat := if p.shut.isSome then p.interval - 1 else p.interval

/-- The pair diverges (R385): the results are discarded, DIVERGE becomes pending with the interval number, and a record of
type 1 is written. -/
def State.diverge (s : State) (c : Nat) : State :=
  let p := (s.core c).pair
  let b := s.cur c
  let s1 := (s.rollPair c).modCore c (fun k => { k with pair := { k.pair with mode := .diverged, interval := p.number, shut := none, closing := false } })
  (s1.pendCause (s.ctxOf c) c pDiverge 0 (w64 p.number)).relRec
    (relRecord s.ptime b.vtime (s.ctxOf c) 1 b.actSlot c p.number 0)

/-- Free spare sites of a die (R11). -/
def State.spareCount (s : State) (die : Nat) : Nat := SMap.get 0 s.spares die

/-- A disagreement (R385): the first runs the interval again; the second asks a free spare of the die, or diverges. -/
def State.disagree (s : State) (c : Nat) : State :=
  let p := (s.core c).pair
  let die := dieOf c
  match p.mode with
  | .run =>
    (s.rollPair c).modCore c (fun k =>
      { k with pair := { k.pair with mode := .rerun, interval := p.number, rollb := min 255 (p.rollb + 1), shut := none, closing := false } })
  | .rerun =>
    if s.spareCount die = 0 then s.diverge c
    else
      { s.modCore c (fun k => { k with pair := { p with mode := .tiebreak, spare := some die } }) with
        spares := SMap.set 0 s.spares die (s.spareCount die - 1) }
  | _ => s

/-- FINGERPRINT_DISAGREE (R385). -/
def execFingerprintDisagree (core : Nat) (s : State) : Result :=
  device s (
    let p := (s.core core).pair
    if p.compares && p.shut.isSome then s.disagree core else s)

/-- PAIR_CLOSE_TIMEOUT (R383): the two cores have not reached the same close in time, or only one of them has trapped. -/
def execPairCloseTimeout (core : Nat) (s : State) : Result :=
  device s (if (s.core core).pair.compares then s.disagree core else s)

/-- TIEBREAK_RESULT (R385): 1 the spare agrees with the primary, 2 with the partner, anything else with neither. The interval's results
stand where it agrees with one, as those of an interval that has timed out do; no error is in the values that this model holds, so
they are the same from either core (log 16). The spare is free again in each case (log 103). -/
def execTiebreakResult (core agrees : Nat) (s : State) : Result :=
  device s (
    let p := (s.core core).pair
    if p.mode ≠ .tiebreak || p.partner then s
    else
      let die := dieOf core
      let s0 := { s with spares := SMap.set 0 s.spares die (s.spareCount die + 1) }
      if agrees = 1 || agrees = 2 then
        let b := s.cur core
        let lost := if agrees = 1 then core + 1 else core
        let s1 := s0.relRec (relRecord s.ptime b.vtime (s.ctxOf core) 2 b.actSlot core p.number lost)
        let s2 := s1.modCore core (fun k => { k with pair := { k.pair with tiebrk := min 255 (p.tiebrk + 1), spare := none } })
        ((if p.shut.isSome then s2 else s2.shutInterval core).agreeClose core .run).modCore core (fun k =>
          { k with pair := { k.pair with mode := .run } })
      else (s0.modCore core (fun k => { k with pair := { k.pair with tiebrk := min 255 (p.tiebrk + 1), spare := none } })).diverge core)

/-! ## PAIR, UNPAIR, CHECKERR (R374, R388) -/

/-- PAIR (R388). -/
def execPair (s : State) : Result :=
  run .pair s (fun f =>
    let c := f.core
    let b := s.bind (s.ctxOf c) (c + 1)
    if (s.core c).pair.mode ≠ .off then s.afterClose f (s.retire f 4)
    else if !bit (s.core c).kclass 7 || c % 2 = 1 || (List.range 16).any (fun k => (b.slot k).st ≠ .empty) then
      s.exact f 4 cIllegal (encodeWord .pair)
    else if !s.partnerFree c then s
    else (s.retire f 4).startPair c true)

/-- UNPAIR (R388). -/
def execUnpair (s : State) : Result :=
  run .unpair s (fun f =>
    let c := f.core
    if s.effClass c = 3 then s.exact f 4 cIllegal (encodeWord .unpair)
    else if (s.core c).pair.mode = .off then s.retire f 4
    else s.afterClose f ((s.retire f 4).unpair c))

/-- CHECKERR (R374). -/
def execCheckerr (d : Reg) (s : State) : Result :=
  run (.checkerr d) s (fun f =>
    let b := s.cur f.core
    s.afterClose f (
      if b.chki = 0 || s.effClass f.core = 2 then s.finish f 4 d.toNat b.chki else s.actOnChki f 4))

end Sys2Proof.Machine
end

