-- ==== Sys2Proof/Machine/Csr.lean ====
section
/-! DEFINITION. The state registers and CSRR, CSRW, CSRS, CSRC (R87, R88, R142-R147, R181, R208, R224, R247, R248, R271,
R281-R283, R287, R293, R367, R369, R372, R382, R386, R433), and the bank modes. -/
namespace Sys2Proof.Machine

/-! ## Which registers there are (R87, R88) -/

/-- How a register may be written: not at all, by clearing, or plainly. -/
inductive SrAccess where
  | ro | w1c | rw
  deriving DecidableEq, Repr

/-- The threads that have a register. -/
inductive SrThreads where
  | both | ct | mt
  deriving DecidableEq, Repr

/-- The table of R87. -/
def srInfo (n : Nat) : Option (SrAccess × SrThreads) :=
  match n with
  | 0x001 => some (.ro, .both)
  | 0x002 => some (.ro, .both)
  | 0x003 => some (.ro, .both)
  | 0x004 => some (.ro, .ct)
  | 0x005 => some (.ro, .both)
  | 0x006 => some (.ro, .ct)
  | 0x008 => some (.w1c, .both)
  | 0x009 => some (.ro, .ct)
  | 0x00A => some (.ro, .ct)
  | 0x010 => some (.rw, .mt)
  | 0x011 => some (.rw, .ct)
  | 0x012 => some (.w1c, .ct)
  | 0x018 => some (.rw, .ct)
  | 0x020 => some (.rw, .ct)
  | 0x021 => some (.ro, .ct)
  | 0x022 => some (.rw, .ct)
  | 0x030 => some (.ro, .ct)
  | 0x040 => some (.rw, .ct)
  | n => if 0x100 ≤ n && n ≤ 0x10D then some (.rw, .ct) else none

/-- Whether a thread may use a register (R82, R88, R147). -/
def State.srLegal (s : State) (f : Focus) (n : Nat) (write : Bool) : Bool :=
  match srInfo n with
  | none => false
  | some (acc, thr) =>
    (match thr with | .both => true | .ct => f.thr = 0 | .mt => f.thr ≠ 0) && !(write && acc = .ro) &&
      (n < 0x100 || s.inHandler f)

/-! ## Reading -/

/-- PSJ (R293): the oldest entry that is not FREE, and the counts. -/
def Bind.psj (b : Bind) : Word :=
  let used := (List.range 64).filter (fun n => (b.entry n).st ≠ .free)
  let oldest := (leastBy (fun x y => (b.entry x).seq < (b.entry y).seq) used).getD 0
  w64 (used.length + 2 ^ 8 * (used.filter (fun n => (b.entry n).st = .refused)).length +
    2 ^ 16 * (used.filter (fun n => (b.entry n).st = .held)).length + 2 ^ 32 * oldest)

/-- TSTAT (R143). -/
def State.tstat (s : State) (c : Nat) : Word :=
  let k := s.core c
  let b := s.cur c
  w64 (2 ^ 12 * b.prsn + 2 ^ 16 * b.pendBits.toNat + 2 ^ 24 * k.eact.toNat + 2 ^ 26 * b2n b.mtfe + 2 ^ 27 * b2n k.serr +
    2 ^ 28 * b2n k.sbusy + 2 ^ 31 * b2n k.hmode)

/-- PAIRSTAT (R386). -/
def PairSt.word (p : PairSt) : Word :=
  w64 (b2n (p.mode ≠ .off) + 2 * b2n p.partner + 4 * b2n (p.mode = .rerun) + 8 * b2n p.step + 2 ^ 16 * p.rollb + 2 ^ 24 * p.tiebrk +
    2 ^ 32 * p.interval)

/-- KCLASS with its field EFF (R369). -/
def State.kclassReg (s : State) (c : Nat) : Word := setFld (s.core c).kclass 4 2 (s.effClass c)

/-- The value of a state register as a thread reads it (R87). -/
def State.srRead (s : State) (f : Focus) (n : Nat) : Word :=
  let c := f.core
  let k := s.core c
  let b := s.cur c
  match n with
  | 0x001 => w64 s.ptime
  | 0x002 => w64 b.vtime
  | 0x003 => w64 s.floor
  | 0x004 => w64 b.retired
  | 0x005 => w64 (s.primaryOf c % 64 + 2 ^ 8 * (s.primaryOf c / 64))
  | 0x006 => b.actid
  | 0x008 => b.chki
  | 0x009 => zext b.ebud
  | 0x00A => zext b.ebcnt
  | 0x010 => (b.mt (f.thr - 1)).shape
  | 0x011 => b.mtmask
  | 0x012 => b.mtflt
  | 0x018 => b.mstat
  | 0x020 => k.bankcfg
  | 0x021 => b.psj
  | 0x022 => (b.entry (fld k.psje 0 6)).word (fld k.psje 6 2)
  | 0x030 => b.nestReg
  | 0x040 => b.trctl
  | 0x100 => k.tvec
  | 0x101 => k.tcause
  | 0x102 => k.tval
  | 0x103 => k.tepc
  | 0x104 => s.tstat c
  | 0x105 => k.savebase
  | 0x106 => k.ctxid
  | 0x107 => k.hpol
  | 0x108 => k.fpint
  | 0x109 => (s.pairOf c).word
  | 0x10A => k.lease
  | 0x10B => s.kclassReg c
  | 0x10C => k.parkto
  | 0x10D => k.gmem
  | _ => 0

/-! ## Bank modes (R281-R283) -/

/-- Messages in the order of delivery (R186). -/
def sortHeld : List Held → List Held
  | [] => []
  | a :: t => insert a (sortHeld t)
where
  insert (a : Held) : List Held → List Held
    | [] => [a]
    | b :: t => if b.msg.before a.msg then b :: insert a t else a :: b :: t

/-- The inbox messages of banks that are FIFO banks no longer move to the remaining ones in stamp order; those that do not fit go to
the message buffer (R282). A delivered one stays in its input channel there (log 85). -/
def State.moveInbox (s : State) (c : Nat) : State :=
  let b := s.cur c
  let stay := b.inbox.filter (fun h => s.bankMode c (h.place / 204) = 2)
  let move := b.inbox.filter (fun h => !stay.contains h)
  let placed := (sortHeld move).foldl (fun (l : List Held) h =>
    if (stay ++ l).length < s.inboxSlots c then l ++ [{ h with place := s.freePlace c (stay ++ l) }] else l) []
  let at_ := fun (h : Held) => placed.find? (fun q => q.msg = h.msg && q.arrival = h.arrival)
  if move.isEmpty then s
  else
    s.modCur c (fun b =>
      { b with
        inbox := b.inbox.filterMap (fun h => if stay.contains h then some h else at_ h)
        msgBuf := b.msgBuf ++ (move.filter (fun h => (at_ h).isNone)).map (fun h => { h with place := 0 }) })

/-- Every line leaves a core's slice, dirty ones written back (R282). The spec does not say which lines a bank holds, so all
of the slice's leave (log 22), but for orphaned ones, which stay as they are (R418). -/
def State.emptySlice (s : State) (c : Nat) : State :=
  let leaves := fun (line : Nat) => s.homeCore (line * 128) = c && !(s.proxy line).orphan
  let lines := (s.l2.filter (fun p => leaves p.1)).map (·.1)
  let dirty := (s.dirty.filter (fun p => leaves p.1)).map (·.1)
  let s1 := dirty.foldl (fun (t : State) n => t.writeBack n) s
  { s1 with l2 := s1.l2.filter (fun p => !lines.contains p.1) }

/-- The mode that a write gives bank n (R283): the old one for a bank of another owner and for a reserved value. -/
def State.newMode (s : State) (c n : Nat) (w : Word) : Nat :=
  let old := s.bankMode c n
  let v := fld w (4 * n) 2
  let other := old = 1 && SMap.find? (s.core c).bankOwner n ≠ (s.core c).ctx
  if other || v = 3 then old else v

/-- Switch one bank (R282). -/
def State.switchBank (s : State) (c n mode cls : Nat) : State :=
  let old := s.bankMode c n
  if mode = old then s
  else
    let s1 := (if old = 0 then s.emptySlice c else s).clearBank c n
    let field := mode + (if mode = 1 && cls ≠ 3 then 4 * cls else 0)
    s1.modCore c (fun k =>
      { k with
        bankcfg := setFld k.bankcfg (4 * n) 4 field
        bankOwner := match mode, k.ctx with
          | 1, some x => SMap.put k.bankOwner n x
          | _, _ => SMap.del k.bankOwner n })

/-- A write of BANKCFG (R282, R283): the highest FIFO bank stays one when none would be left; inbox messages move. -/
def State.bankcfgWrite (s : State) (c : Nat) (w : Word) : State :=
  let modes := (List.range 16).map (fun n => s.newMode c n w)
  let keep := if modes.contains 2 then none else leastBy (fun x y => y < x) ((List.range 16).filter (fun n => s.bankMode c n = 2))
  let s1 := (List.range 16).foldl (fun (t : State) n =>
    if keep = some n then t else t.switchBank c n (s.newMode c n w) (fld w (4 * n + 2) 2)) s
  s1.moveInbox c

/-! ## Writing (R88, R147) -/

/-- SCMD (R143): 1 starts a save and 2 a restore; nothing else has an effect. DESIGN CHOICE (log 115): a write while SBUSY is 1 has none
either. -/
def Core.command (k : Core) (v : Nat) : Core :=
  if k.sbusy then k
  else if v = 1 then { k with sbusy := true, saving := true, serr := false }
  else if v = 2 then { k with sbusy := true, saving := false, serr := false }
  else k

/-- TSTAT: SCMD, MTFE and EACT are written. -/
def State.tstatWrite (s : State) (c : Nat) (w : Word) : State :=
  (s.modCur c (fun b => { b with mtfe := bit w 26 })).modCore c (fun k => { k with eact := BitVec.ofNat 2 (fld w 24 2) }.command (fld w 29 2))

/-- CTXID: VF is zero when PF is 1 (R144). -/
def ctxidWord (w : Word) : Word := if bit w 31 then w &&& 0x80FF_FFFF else w &&& 0xFFFF_FFFF

/-- FPINT: a write below 16 stores 16 (R382). -/
def fpintWord (w : Word) : Word := w64 (max 16 (fld w 0 16))

/-- LEASE: 64..4096 (R287). -/
def leaseWord (w : Word) : Word := w64 (max 64 (min 4096 (fld w 0 13)))

/-- KCLASS: MIN does not take the value 3 (R369). -/
def kclassWord (old w : Word) : Word :=
  (w &&& 0x80) ||| (if fld w 0 2 = 3 then old &&& 3 else w &&& 3)

/-- Store a value whose RW fields are those of `w`. -/
def State.srWrite (s : State) (f : Focus) (n : Nat) (w : Word) : State :=
  let c := f.core
  match n with
  | 0x010 => s.modMt c (f.thr - 1) (fun m => { m with shape := w &&& 0x3F1F })
  | 0x011 => s.modCur c (fun b => { b with mtmask := w &&& 0xFFFF })
  | 0x020 => s.bankcfgWrite c w
  | 0x040 => s.modCur c (fun b => { b with trctl := w &&& 0xFFFF_00FF })
  | 0x100 => s.modCore c (fun k => { k with tvec := w &&& ~~~3 })
  | 0x101 => s.modCore c (fun k => { k with tcause := w &&& 0xFF })
  | 0x102 => s.modCore c (fun k => { k with tval := w })
  | 0x103 => s.modCore c (fun k => { k with tepc := w &&& ~~~1 })
  | 0x104 => s.tstatWrite c w
  | 0x105 => s.modCore c (fun k => { k with savebase := w &&& ~~~0xFFF })
  | 0x106 => s.modCore c (fun k => { k with ctxid := ctxidWord w })
  | 0x107 => s.modCore c (fun k => { k with hpol := w &&& 7 })
  | 0x108 => s.modCore c (fun k => { k with fpint := fpintWord w })
  | 0x10A => s.modCore c (fun k => { k with lease := leaseWord w })
  | 0x10B => s.modCore c (fun k => { k with kclass := kclassWord k.kclass w })
  | 0x10C => s.modCore c (fun k => { k with parkto := w &&& 0x8000_0000_FFFF_FFFF })
  | 0x10D => s.modCore c (fun k => { k with gmem := w &&& 0xF_FFFF_FFFF })
  | _ => s

/-- Clear the bits of a W1C register or field that `a` sets (R88, R271). -/
def State.srClear (s : State) (c n : Nat) (a : Word) : State :=
  match n with
  | 0x008 => s.modCur c (fun b => { b with chki := b.chki &&& ~~~a })
  | 0x012 => s.modCur c (fun b => { b with mtflt := b.mtflt &&& ~~~a })
  | 0x018 => s.modCur c (fun b => { b with movf := b.movf && !bit a 0, mErr := b.mErr && !bit a 40 })
  | _ => s

/-- PSJE's selector as it reads back, for CSRS and CSRC (R293). -/
def State.psjeSel (s : State) (c : Nat) : Word := w64 (fld (s.core c).psje 0 8)

/-- What CSRW (1), CSRS (2) and CSRC (3) make of an old value (R147). -/
def csrMix (op : Nat) (old a : Word) : Word := if op = 1 then a else if op = 2 then old ||| a else old &&& ~~~a

/-- The change that CSRW, CSRS or CSRC makes (R88, R147). -/
def State.srChange (s : State) (f : Focus) (op n : Nat) (a : Word) : State :=
  if n = 0x008 || n = 0x012 || n = 0x018 then (if op = 3 then s else s.srClear f.core n a)
  else if n = 0x022 then
    let v := csrMix op (s.psjeSel f.core) a
    (s.psjeDismiss f.core v).psjeSelect f.core v
  else s.srWrite f n (csrMix op (s.srRead f n) a)

/-- CSRR (R147). -/
def execCsrr (n : BitVec 12) (d : Reg) (s : State) : Result :=
  run (.csrr n d) s (fun f =>
    if !(s.srLegal f n.toNat false) then s.raise f 4 cIllegal (encodeWord (.csrr n d))
    else s.finish f 4 d.toNat (s.srRead f n.toNat))

/-- CSRW, CSRS and CSRC (R147): the old value is returned. -/
def csrOp (i : Instr) (op : Nat) (n : BitVec 12) (a d : Reg) (s : State) : Result :=
  run i s (fun f =>
    if !(s.srLegal f n.toNat true) then s.exact f 4 cIllegal (encodeWord i)
    else (s.srChange f op n.toNat (s.rd f a.toNat)).finish f 4 d.toNat (s.srRead f n.toNat))

def execCsrw (n : BitVec 12) (a d : Reg) (s : State) : Result := csrOp (.csrw n a d) 1 n a d s
def execCsrs (n : BitVec 12) (a d : Reg) (s : State) : Result := csrOp (.csrs n a d) 2 n a d s
def execCsrc (n : BitVec 12) (a d : Reg) (s : State) : Result := csrOp (.csrc n a d) 3 n a d s

end Sys2Proof.Machine
end

