-- ==== Sys2Proof/Machine/Debug.lean ====
section
/-! DEFINITION. The debug session, trace samples, counters, replay and FREEZE (R423-R444). -/
namespace Sys2Proof.Machine

/-! ## The session (R423, R424) -/

/-- Whether a context may be put under a session (R423): LIVE, in a world that is OPEN. -/
def State.debuggable (s : State) (ctx : Nat) : Bool := (s.ctx ctx).st = .live && (s.world (ctxFn ctx)).st = .isOpen

/-- The session is over: SESSION 0 ends the one that is open (R423). -/
def State.endSession (s : State) : State := if s.dbg.isOpen || s.dbg.mode ≠ 0 then s.closeSession else s

/-- A write of DBGCTL but for its command (R423): SKIP is stored, CTXID and LOCAL only in RUN; SESSION opens a session where it may,
and ends the one that is open, as does the move to a context that may have none. -/
def State.dbgctl (s : State) (v : Word) : State :=
  let d := s.dbg
  let d1 := if d.mode = 0 then { d with ctxid := fld v 32 32, isLocal := bit v 2, skip := bit v 3 } else { d with skip := bit v 3 }
  let t := { s with dbg := d1 }
  if !bit v 0 then t.endSession
  else if s.debuggable d1.ctxid then { t with dbg := { d1 with isOpen := true } }
  else if d1.ctxid = d.ctxid then t
  else t.endSession

/-- SESSION_OPEN (R423): DBGCTL is written with SESSION 1. -/
def execSessionOpen (v : Word) (s : State) : Result := device s (s.dbgctl (setBit v 0))

/-- SESSION_CLOSE (R423): DBGCTL is written with SESSION 0, its other fields as they stand. -/
def execSessionClose (s : State) : Result := device s s.endSession

/-- COMPARATOR_CONFIG (R424): CFG of comparator `n` of the selected core; a field outside its limits stores EN = 0. -/
def execComparatorConfig (n : Nat) (v : Word) (s : State) : Result :=
  device s (
    if 8 ≤ n then s
    else
      let kind := fld v 8 2
      let len := fld v 2 6
      let good := if n < 4 then kind = 0 && len = 0 else kind ≠ 0 && len ≤ 12
      let w := w64 (2 ^ 8 * kind + 4 * len + b2n (bit v 0 && good))
      s.modCore s.dbgCore (fun k => { k with comps := SMap.set Comp.off k.comps n { s.comp s.dbgCore n with cfg := w } }))

/-! ## Stops (R425-R428) -/

/-- Debug has stopped its cores: PREEMPT becomes pending in their bindings with PRSN 4 (R116, R143). They stay BOUND, and their
inboxes fill (R427), until the stop ends (log 82). -/
def State.debugPreempt (s : State) : State :=
  s.cores.foldl (fun (t : State) p =>
    match p.2.ctx with
    | some n =>
      if t.stopped p.1 && (t.bind n p.1).st = .bound then
        (t.modBind n p.1 (fun b => { b with prsn := 4 })).pendCause n p.1 pPreempt 64 0
      else t
    | none => t) s

/-- What the registers show of a stop, written on entry to STOPPED (R423, R425). -/
def Debug.show (d : Debug) : Debug := { d with seen := ⟨d.cause, d.hitcore, d.hitthr, d.comp, d.tag, d.slot, d.addr, d.vtime, d.entry⟩ }

/-- The stop takes hold: the fields of DBGSTAT, DBGVT and DBGENT describe the activation of core `c`. -/
def State.stopHere (s : State) (c cause : Nat) : State :=
  let b := s.cur c
  let d : Debug := { s.dbg with
    mode := 2, cause := cause, hitcore := c, hitthr := 0, comp := 0, addr := 0, tag := b.actTag, slot := b.actSlot, core := c
    vtime := if b.act.isSome then b.vtime else 0, entry := if b.act.isSome then b.actDesc.entry else 0
    frozeAt := if s.dbg.mode = 3 then s.dbg.frozeAt else s.ptime }
  ({ s with dbg := d.show } : State).debugPreempt

/-- CMD STOP (R425, R428), in RUN with a session open. -/
def State.stopCmd (s : State) : State :=
  if s.dbg.isOpen && s.dbg.mode = 0 then
    { s with dbg := { s.dbg with mode := 1, vstop := true, since := s.ptime, core := s.dbgCore } }
  else s

/-- DBG_STOP (R425, R428): DBGCTL is written with CMD STOP, its other fields as they stand. -/
def execDbgStop (s : State) : Result := device s s.stopCmd

/-- FREEZE_COMPLETE (R425-R428): after a stop event every party has stopped at its boundary; after a CMD STOP no activation
runs and FLOOR exceeds DBGVSTOP. -/
def execFreezeComplete (s : State) : Result :=
  device s (
    let d := s.dbg
    if d.mode ≠ 1 then s
    else if !d.vstop then ({ s with dbg := ({ d with mode := 2, frozeAt := s.ptime } : Debug).show } : State).debugPreempt
    else if s.binds.all (fun p => p.2.act.isNone) && (s.reg (pfReg 0x3_8018)).toNat < s.floor then s.stopHere d.core 4
    else s)

/-- STOP_TIMEOUT (R425, R428): 10 ms without the condition; every core stops at its next boundary. -/
def execStopTimeout (s : State) : Result :=
  device s (
    let d := s.dbg
    if d.mode = 1 && d.vstop && d.since + 10_000_000 ≤ s.ptime then s.stopHere d.core 6 else s)

/-! ## Resuming and stepping (R425, R429, R431) -/

/-- The length of the instruction at a thread's program counter. -/
def State.lenOf (s : State) (f : Focus) : Nat :=
  if f.thr = 0 then s.lenAt f.core (s.cur f.core).pc
  else
    let m := (s.cur f.core).mt (f.thr - 1)
    match m.run, m.block with
    | .broadcast, (n, _) :: _ => n
    | _, _ => s.lenAt f.core m.pc

/-- The instruction at a thread's program counter. -/
def State.instrOfThread (s : State) (f : Focus) : Instr :=
  let pc := s.pcOf f
  let here := instrOf (s.lenAt f.core pc) (BitVec.ofNat 32 (s.codeHalf f.core pc.toNat + 2 ^ 16 * s.codeHalf f.core (pc + 2).toNat))
  if f.thr = 0 then here
  else
    let m := (s.cur f.core).mt (f.thr - 1)
    match m.run, m.block with
    | .broadcast, (n, w) :: _ => instrOf n w
    | _, _ => here

/-- A held thread moves past its instruction without executing it; only a BRKPT retires by that (R425, R431). -/
def State.passThread (s : State) (f : Focus) : State :=
  match s.instrOfThread f with
  | .brkpt | .cBrk => s.retire f (s.lenOf f)
  | _ =>
    let pc := s.pcOf f + w64 (s.lenOf f)
    if f.thr = 0 then s.modCur f.core (fun b => { b with pc := pc, skip := false })
    else
      let s1 := s.modMt f.core (f.thr - 1) (fun m => { m with pc := pc, block := m.block.drop 1, skip := false })
      let m := (s1.cur f.core).mt (f.thr - 1)
      if m.run = .broadcast && m.block.isEmpty then s1.stopMt f.core (f.thr - 1) else s1

/-- Whether a core is in the handler that BRK has entered. -/
def State.inBrk (s : State) (c : Nat) : Bool := (s.core c).hmode && (s.core c).tcause = w64 cBrk

/-- The threads of a core that a hit holds: its control thread, at its instruction or in the handler of BRK, and its micro-threads. -/
def State.heldThreads (s : State) (c : Nat) : List Focus :=
  (if (s.cur c).held || s.inBrk c then [⟨c, 0⟩] else []) ++
    ((List.range 16).filter (fun n => ((s.cur c).mt n).held)).map (fun n => ⟨c, n + 1⟩)

/-- SKIP is applied to a thread that was held (R425, R431): the handler of BRK leaves with EACT 1, and any other thread moves past its
instruction. Without SKIP a thread executes it again, the one that was hit passing its comparators once. -/
def State.skipThread (s : State) (f : Focus) : State :=
  if f.thr = 0 && s.inBrk f.core then
    (s.modCore f.core (fun k => { k with eact := 1 })).modCur f.core (fun b => { b with skip := false })
  else s.passThread f

/-- Every frozen party resumes, with SKIP or without (R425). -/
def State.dbgResume (s : State) : State :=
  if s.dbg.skip then (s.cores.flatMap (fun p => s.heldThreads p.1)).foldl State.skipThread s.resumeAll else s.resumeAll

/-- CMD RESUME (R425), in STOPPED. -/
def State.resumeCmd (s : State) : State := if s.dbg.mode = 2 then s.dbgResume else s

/-- DBG_RESUME (R425): DBGCTL is written with CMD RESUME. -/
def execDbgResume (v : Word) (s : State) : Result := device s (s.dbgctl v).resumeCmd

/-- The threads of a core are held no longer, and those that were obey SKIP (R429). -/
def State.unholdCore (s : State) (c : Nat) (skip : Bool) : State :=
  let d := s.dbg
  let again := fun (thr : Nat) => d.hitcore = c && (d.cause = 1 || d.cause = 2) && thr = d.hitthr
  let s1 := (if s.inBrk c then s.modCore c (fun k => { k with eact := 0 }) else s).modCur c (fun b =>
    { b with
      held := false, skip := b.skip || again 0
      mts := b.mts.map (fun q => (q.1, { q.2 with held := false, skip := q.2.skip || (q.2.held && again (q.1 + 1)) })) })
  if skip then (s.heldThreads c).foldl State.skipThread s1 else s1

/-- CMD STEP (R429), in STOPPED. -/
def State.stepCmd (s : State) : State :=
  if s.dbg.mode ≠ 2 then s
  else
    let c := if s.dbg.isLocal then s.dbg.core else s.dbgCore
    let s1 := s.unholdCore c s.dbg.skip
    { s1 with dbg := { s1.dbg with mode := 3, stepped := [], since := s.ptime, core := c } }

/-- DBG_STEP (R429): DBGCTL is written with CMD STEP. -/
def execDbgStep (v : Word) (s : State) : Result := device s (s.dbgctl v).stepCmd

/-- A write of DBGCTL, its command after its other fields (R423). -/
def State.dbgWrite (s : State) (v : Word) : State :=
  let t := s.dbgctl v
  match fld v 4 2 with
  | 1 => t.stopCmd
  | 2 => t.resumeCmd
  | 3 => t.stepCmd
  | _ => t

/-- STEP_COMPLETE (R429): the control thread has executed its instruction and is not in the handler, or runs no activation. -/
def execStepComplete (s : State) : Result :=
  device s (
    let d := s.dbg
    if d.mode = 3 && !(s.core d.core).hmode && (d.stepped.contains 0 || (s.cur d.core).act.isNone) then s.stopHere d.core 5 else s)

/-- STEP_TIMEOUT (R429): 1 ms. -/
def execStepTimeout (s : State) : Result :=
  device s (if s.dbg.mode = 3 && s.dbg.since + 1_000_000 ≤ s.ptime then s.stopHere s.dbg.core 5 else s)

/-! ## BRKPT, TRACE and samples (R431-R434) -/

/-- BRKPT and C.BRK (R431): no effect while a handler runs, on a micro-thread too. -/
def brkptOp (i : Instr) (s : State) : Result :=
  run i s (fun f => if s.sessionOn f && !(s.core f.core).hmode then s.stopEvent f (instrLen i) 3 0 (s.pcOf f) else s.retire f (instrLen i))

def execBrkpt (s : State) : Result := brkptOp .brkpt s

def execCBrk (s : State) : Result := brkptOp .cBrk s

/-- TRACE (R432). -/
def execTrace (a : Reg) (s : State) : Result :=
  run (.trace a) s (fun f => (s.trace (s.ctxOf f.core) f.core 5 0 (s.rd f a.toNat) (s.pcOf f)).retire f 4)

/-- The RUN bits of MTSTAT: micro-threads that run (R252). -/
def Bind.runBits (b : Bind) : Nat :=
  (List.range 16).foldl (fun n k => if (b.mt k).run = .broadcast || (b.mt k).run = .fetched then n + 2 ^ k else n) 0

/-- TRACE_SAMPLE (R433, R434): every SPER periods of 1024 core cycles (1.5 per ns), while an activation runs. -/
def execTraceSample (core : Nat) (s : State) : Result :=
  device s (
    let b := s.cur core
    let sper := fld b.trctl 16 16
    if sper = 0 || b.act.isNone || (s.core core).ctx.isNone || 3 * (s.ptime - (s.core core).lastCycle) < 2 * (1024 * sper) then s
    else
      (s.trace (s.ctxOf core) core 8 0 (if (s.core core).hmode then (s.core core).hpc else b.pc) (w64 b.runBits)).modCore core (fun k => { k with lastCycle := s.ptime }))

/-! ## Counters (R437-R439) -/

/-- CNTSEL of a function. -/
def cntReg (fn : Nat) : Nat := if fn = 128 then pfReg 0x3_8100 else regKey fn 2 0x2080

/-- A doubleword of a delay-account entry of a context (R436); an entry of another context shows nothing. -/
def DelayEnt.word (e : DelayEnt) (k ctx : Nat) : Nat :=
  if !e.used || e.ctx ≠ ctx then 0
  else
    match k with
    | 0 => e.ctx + 2 ^ 32 * e.saddr + 2 ^ 48 * e.sslot
    | 1 => e.count
    | 2 => e.transit
    | 3 => e.wait
    | 4 => e.run
    | _ => e.maxSum

/-- The counter that a selection names (R437). -/
def State.counter (s : State) (ctx c group index : Nat) : Option Nat :=
  let b := s.bind ctx c
  let k := b.cnt
  match group, index with
  | 0, 0 => some k.fired
  | 0, 1 => some k.failed
  | 0, 2 => some k.redeliv
  | 1, n => if n % 8 ≤ 5 then some ((SMap.get DelayEnt.free (s.core c).delay (n / 8)).word (n % 8) ctx) else none
  | 2, 0 => some k.ctRet
  | 2, 1 => some k.mtRet
  | 3, 0 => some k.stream
  | 3, 1 => some k.loadPort
  | 4, 0 => some k.cpyBytes
  | 4, 1 => some k.copies
  | 5, 0 => some k.stores
  | 5, 1 => some k.refusals
  | 5, 2 => some k.parks
  | 6, 0 => some k.tokens
  | 7, 0 => some b.ebcnt.toNat
  | 7, 1 => some k.chk
  | _, _ => none

/-- The latch of a counter read: the value and the result. -/
def State.latchCounter (s : State) (fn : Nat) (v : Word) (val st : Nat) : State :=
  ((s.setReg (cntReg fn) (v &&& ~~~0xF800)).setReg (cntReg fn + 8) (w64 val)).setReg (cntReg fn + 16) (w64 st)

/-- The audit message of a denied read (R439). -/
def auditMsg (s : State) (ctx c : Nat) (v : Word) (seq : Nat) : Msg :=
  let fa := (s.ctx ctx).factor
  mkMsg (s.floor + 64) s.ptime seq 0xFFFE 0xFF 1 (fld fa 16 4) (fld fa 20 2) 0
    (leBytes 2 0 ++ leBytes 1 (c % 64) ++ leBytes 1 (c / 64) ++ leBytes 4 0 ++ leBytes 8 v.toNat ++ leBytes 32 0 ++
      leBytes 8 s.ptime ++ leBytes 4 ctx ++ leBytes 4 0)

/-- COUNTER_SELECT (R438, R439): a write of CNTSEL by a function. -/
def execCounterSelect (fn : Nat) (v : Word) (s : State) : Result :=
  device s (
    let ctx := fld v 32 32
    let c := fld v 0 11
    let grp := fld v 24 8
    let owner := ctxFn ctx
    if (s.ctx ctx).st = .free || !s.holdsArea ctx (c % 64) (c / 64) || (fn ≠ 128 && owner ≠ fn) then s.latchCounter fn v 0 2
    else
      match s.counter ctx c grp (fld v 16 8) with
      | none => s.latchCounter fn v 0 2
      | some n =>
        if fn = 128 && owner ≠ 128 && !(bit (s.reg (cntReg owner + 32)) grp) then
          if !s.logRoom owner 64 then s
          else
            let k := cntReg owner + 24
            let s1 := (s.latchCounter fn v 0 1).setReg k (s.reg k + 1)
            let fa := (s.ctx ctx).factor
            if fa = 0xFFFF_FFFF#32 then s1
            else s1.postOutside 0xFFFE (faultCore fa) ctx (auditMsg s ctx c v (s1.reg k).toNat)
        else s.latchCounter fn v n 0)

/-! ## Replay (R442) -/

/-- The log's mark of a MAPROOT of a function in place of a destination core (log 21). -/
def mapRootMark : Nat := 0xFE00

/-- The command number that a replayed MAPROOT answers to: no command of the journal has it. -/
def replayCmd : Nat := 2 ^ 63

/-- A message record is injected with its logged stamp, sender and sequence number (R442); a MAPROOT goes to its Locus. -/
def State.injectRec (s : State) (h data : List Byte) : State :=
  if mapRootMark ≤ ofLe ((h.drop 0x30).take 2) then
    s.holdReq (s.mapRootReq (ofLe ((h.drop 0x30).take 2) - mapRootMark) (ofLe ((h.drop 0x24).take 4)) (ofLe (h.take 8)) replayCmd data)
  else s.post ⟨ofLe ((h.drop 0x18).take 2), ofLe ((h.drop 0x30).take 2), ofLe ((h.drop 0x24).take 4), .msg (msgOf h data)⟩

/-- REPLAY_INJECT (R442): the log's next message is injected, and RPHEAD passes what is done with. -/
def execReplayInject (fn : Nat) (s : State) : Result :=
  device s (
    if !s.replaying fn then s
    else
      match s.nextInject fn with
      | none => s.logConsume fn
      | some r =>
        ({ s.injectRec r.2.1 r.2.2 with
          rpAhead := SMap.set 0 s.rpAhead fn ((r.1 + 2 ^ 32 - s.ringHead (rpRing fn)) % 2 ^ 32 + recSlots r) } : State).logConsume fn)

/-! ## FREEZE (R444) -/

/-- FREEZE_ASSERT (R444): every clock stops. -/
def execFreezeAssert (s : State) : Result := device s { s with freeze := true }

/-- FREEZE_RELEASE (R444): PTIME steps forward to fabric time, never back. -/
def execFreezeRelease (fabricTime : Nat) (s : State) : Result :=
  .next (if s.powered && s.freeze then { s with freeze := false, ptime := max s.ptime fabricTime } else s)

end Sys2Proof.Machine
end

