-- ==== Sys2Proof/Machine/Floor.lean ====
section
/-! DEFINITION. The floor tree, and messages leaving the outbox (R131, R185, R191, R327, R326, R442). -/
namespace Sys2Proof.Machine

/-! ## Reports (R131, R185, R327, R442) -/

/-- The stamp of the record that each log in replay mode injects next (R442). -/
def State.replayStamps (s : State) : List Nat :=
  ((List.range 129).filter (fun fn => s.replaying fn)).filterMap (fun fn => (s.nextInject fn).map (fun r => ofLe (r.2.1.take 8)))

/-- Every report to the floor tree: bindings; messages on the Lattice; the outside inputs of accepted commands that have not
started; the Loci, whose replies and notices are stamped s + 64; and the replay logs. -/
def State.reports (s : State) : List Nat :=
  s.binds.flatMap (fun p => s.stampsOf (p.1 / 2048) (p.1 % 2048)) ++
  s.net.filterMap (fun p => match p.body with | .msg m => some m.stamp | _ => none) ++
  s.journal.filterMap (fun p => if (p.2.opc = 1 || p.2.opc = 2) && !p.2.started && !p.2.done then some p.2.stamp else none) ++
  s.loci.flatMap (fun p => p.2.held.map (·.stamp)) ++
  s.loci.filterMap (fun p => match p.2.work with
    | some w => if w.phase = 1 then (SMap.find? s.reqs w.req).map (·.req.stamp) else none
    | none => none) ++
  s.reqs.filterMap (fun p => if p.2.unsent then some (p.2.req.stamp + 64) else none) ++ s.replayStamps

/-- The published FLOOR after a new minimum (R185): it never falls, and stays while every report is +infinity. -/
def State.newFloor (s : State) : Nat :=
  match minStamp s.reports with
  | some m => max s.floor m
  | none => s.floor

/-- FLOOR_PUBLISH (R185). The log records that no later one can precede are written (R441). -/
def execFloorPublish (s : State) : Result :=
  device s (
    let bound := (minStamp s.reports).getD (s.floor + 65)
    { s with floor := s.newFloor }.flushLog bound)

/-! ## Leaving the outbox (R191) -/

/-- Messages for a context on their way to a core: they have taken its allowances (R130). -/
def State.inflight (s : State) (ctx c : Nat) : Nat :=
  (s.net.filter (fun p => p.dst = c && p.ctx = ctx && (match p.body with | .msg _ => true | _ => false))).length

/-- OUTBOX_DEPART (R183, R191): the first item of a released outbox leaves: a copy of a message, with PTIME, when its destination
grants an allowance, or when a port takes what a fabric route diverts (R411, R422); a mapping request to its Loci, or to the network interface's answer (R326).
A message takes its sequence number as its first copy leaves. -/
def execOutboxDepart (core : Nat) (s : State) : Result :=
  device s (
    let ctx := s.ctxOf core
    let b := s.cur core
    if !b.endWait || s.stopped core then s
    else
      match b.outbox with
      | [] => s
      | .req r :: t =>
        let s1 := s.modCur core (fun b => { b with outbox := t })
        if r.status = 0 then s1.holdReq r else s1.niAnswer r
      | .msg ds m w :: t =>
        let fresh := m.seq = unnumbered
        let m1 := if fresh then { m with seq := b.seqMsg } else m
        let s0 := if fresh then s.modCur core (fun b => { b with seqMsg := b.seqMsg + 1 }) else s
        let left := fun (u : State) => (u.modCur core (fun b => { b with outbox := t })).trace ctx core 3 0 w (w64 m.stamp)
        match ds with
        | [] => left s0
        | d :: more =>
          let m2 := { m1 with sptime := s.ptime }
          match
            match s.route? ctx d m.dslot with
            | some r => s0.sendRouted ctx r m2
            | none => if s.hasRoom ctx d (s.inflight ctx d) then some (s0.post ⟨core, d, ctx, .msg m2⟩) else none
          with
          | some s1 =>
            if more.isEmpty then left s1
            else s1.modCur core (fun b => { b with outbox := OutItem.msg more m1 w :: t })
          | none => s)

end Sys2Proof.Machine
end

