-- ==== Sys2Proof/Machine/Link.lean ====
section
/-! DEFINITION. The Skonov ports, the proxy slices and the switch directory, failed modules, the hot-swap quiesce, and
fabric arrivals (R411-R422). -/
namespace Sys2Proof.Machine

/-! ## The states of a port (R412-R414) -/

/-- Accesses that wait for another module are answered HOMELOST once no port carries traffic any more, a retrain set aside (R414;
log 111). -/
def State.fabricLost (s : State) : State :=
  if s.ports.any (fun p => p.2.st = .up || p.2.st = .retrain) then s
  else
    (s.accs.filter (fun a => isAperture a.la && (a.st = .hostWait || a.st = .hostOut))).foldl (fun (t : State) a => t.refuse a 4) s

/-- A port leaves use: its flits go to another port (R414). -/
def State.portDown (s : State) (p : Nat) (st : PortSt) : State :=
  ((s.modPort p (fun q => { q with st := st, width := 0 })).redirectAll).fabricLost

/-- A port comes UP, and what waited for one leaves. -/
def State.portUp (s : State) (p : Nat) (f : Port → Port) : State :=
  ((s.modPort p (fun q => { f q with st := .up })).redirectAll).drainFab

/-- SKONOV_PORT_ENABLE (R413). -/
def execSkonovPortEnable (p : Nat) (s : State) : Result :=
  device s (if (s.port p).st = .disabled then s.modPort p (fun q => { q with st := .training, en := true }) else s)

/-- SKONOV_PORT_DISABLE (R413). -/
def execSkonovPortDisable (p : Nat) (s : State) : Result :=
  device s ((s.modPort p (fun q => { q with en := false })).portDown p .disabled)

/-- SKONOV_RETRAIN (R412): only from UP. -/
def execSkonovRetrain (p : Nat) (s : State) : Result :=
  device s (if (s.port p).st = .up then s.modPort p (fun q => { q with st := .retrain }) else s)

/-- The widest width that a number of good lanes allows (R413). -/
def widthOf (lanes : Nat) : Nat := if 8 ≤ lanes then 8 else if 4 ≤ lanes then 4 else if 2 ≤ lanes then 2 else min lanes 1

/-- PORT_TRAINED (R413): at least one lane has trained; a ninth is the spare. -/
def execPortTrained (p lanes : Nat) (s : State) : Result :=
  device s (
    if (s.port p).st = .training && 1 ≤ lanes && lanes ≤ 9 then
      s.portUp p (fun q => { q with width := widthOf lanes, lanes := lanes, spared := 0xFF })
    else s)

/-- PORT_TRAINING_TIMEOUT (R413). -/
def execPortTrainingTimeout (p : Nat) (s : State) : Result :=
  device s (if (s.port p).st = .training then s.portDown p .failed else s)

/-- LANE_FAILURE (R413): the spare takes the lane's place where it is free, and the next lower width is used otherwise. -/
def execLaneFailure (p lane : Nat) (s : State) : Result :=
  device s (
    let q := s.port p
    if q.st ≠ .up then s
    else if q.lanes = 9 && q.spared = 0xFF then s.modPort p (fun q => { q with st := .retrain, spared := lane % 8 })
    else s.modPort p (fun q => { q with st := .retrain, width := q.width / 2 }))

/-- RETRAIN_COMPLETE (R413, R414): retry starts from the first flit not acknowledged; with no lane left the port fails. -/
def execRetrainComplete (p : Nat) (s : State) : Result :=
  device s (
    let q := s.port p
    if q.st ≠ .retrain then s
    else if q.width = 0 then s.portDown p .failed
    else s.portUp p (fun q => q))

/-! ## Link retry (R411, R414) -/

/-- The flits of a buffer that come after an acknowledged SEQ; all of them where it names none. -/
def afterAck (ack : Nat) (buf : List (List Byte)) : List (List Byte) :=
  match findIdx (fun f => flitSeq f = ack) buf with
  | some n => buf.drop (n + 1)
  | none => buf

/-- A flit of a type that a module acts on is known by its source module and tag, so that a second copy of it is discarded (R414); the
payload of a message flit waits for its message. -/
def State.takeFlit (s : State) (flit : List Byte) : State :=
  let key := (flitSrc flit, flitTag flit)
  if flitType flit = 0 || flitType flit = 6 || s.fabTags.contains key then s
  else
    { s with
      fabTags := key :: s.fabTags
      fabIn := if flitType flit = 1 then s.fabIn ++ [(flit.drop 0x0C).take 236] else s.fabIn }

/-- FLIT_RECEIVE (R411, R414): the next expected flit with a good CRC is accepted and frees what it acknowledges; any other flit is
answered with a NAK of the expected SEQ, and discarded. -/
def execFlitReceive (p : Nat) (flit : List Byte) (s : State) : Result :=
  device s (
    let q := s.port p
    if q.st ≠ .up then s
    else if flitGood flit && flitSeq flit = q.expect then
      (((s.modPort p (fun q =>
        { q with expect := (q.expect + 1) % 4096, nakSent := false, buf := if flitAckv flit then afterAck (flitAck flit) q.buf else q.buf })).takeFlit
        flit).redirectAll).drainFab
    else { s.modPort p (fun q => { q with nakSent := true }) with sent := s.sent ++ [nakFlit q.expect s.moduleNo] })

/-- FLIT_NAK (R411): what came before the expected SEQ is acknowledged; the rest is sent again, in order. -/
def execFlitNak (p expected : Nat) (s : State) : Result :=
  device s (
    let q := s.port p
    if q.st ≠ .up then s
    else
      let left := afterAck ((expected + 4095) % 4096) q.buf
      (s.modPort p (fun q => { q with buf := left, replays := min (q.replays + left.length) (2 ^ 32 - 1) })).drainFab)

/-! ## Proxy slices (R416, R417) -/

/-- A module's acknowledgement of an invalidation, as a coherence flit for the line's directory (R410, R416). -/
def State.ackInval (s : State) (line : Nat) : State :=
  ({ s with sent := s.sent ++ [leBytes 1 2 ++ leBytes 8 line] } : State).sendFabric none 4 (128 * line) [2, 128 * line]

/-- The accesses that wait for a line of another module. -/
def State.waitersOf (s : State) (line : Nat) : List Acc := s.accs.filter (fun a => a.st = .hostWait && a.la / 128 = line)

/-- Modified data of a line of another module is written back to its home, over the fabric (R416). -/
def State.sendHome (s : State) (line : Nat) : State :=
  if (s.proxy line).st = 3 then
    (s.writeBack line).sendFabric none 4 (128 * line) (128 * line :: (s.bytesAt (128 * line) 128).map (·.toNat))
  else s

/-- A copy is dropped: modified data is written back to its home first. -/
def State.dropCopy (s : State) (line : Nat) : State :=
  let p := s.proxy line
  ((s.sendHome line).dropLine line).setProxy line { p with st := 0, invWait := false }

/-- Whether the leases granted on a line have expired (R416). -/
def State.leasesOver (s : State) (line : Nat) : Bool := SMap.get 0 s.leases line ≤ s.ptime

/-- A line's data as its home sends it: clean; to an activation that began without the line it is the line's code (R69, log 96). -/
def State.placeLine (s : State) (line : Nat) (bs : List Byte) : State :=
  { s with
    binds := s.binds.map (fun p =>
      if p.2.act.isSome && !p.2.codeLines.contains line then
        (p.1, { p.2 with code := putBytes p.2.code (line * 128) (fitBytes 128 bs), codeLines := line :: p.2.codeLines })
      else p)
    mem := putBytes s.mem (line * 128) (fitBytes 128 bs), dram := putBytes s.dram (line * 128) (fitBytes 128 bs)
    dirty := SMap.set false s.dirty line false
    poison := (List.range 8).foldl (fun m k => SMap.set false m (line * 8 + k) false) s.poison }

/-- An access that waited on a miss is served by a grant of state `st`; a write that a clean shared copy cannot serve misses again. -/
def State.serveGrant (s : State) (st : Nat) (a : Acc) : State :=
  if s.writesLine a && st < 2 then s.modAcc a.id (fun q => { q with st := .flying }) else s.perform a

/-- PROXY_GRANT (R417): grant `num` brings state `st` (1 S, 2 E, 3 M) and the line. A grant that an invalidation was aimed
at serves only the accesses that waited, and its copy is dropped. -/
def execProxyGrant (line st num : Nat) (data : List Byte) (s : State) : Result :=
  device s (
    let p := s.proxy line
    if !p.missing || st = 0 || 3 < st || s.lineLost (line * 128) then s
    else
      let s1 := s.placeLine line data
      let ws := s1.waitersOf line
      match p.inval with
      | some n =>
        if num ≤ n then
          if !s.leasesOver line then s
          else
          let s2 := ws.foldl (fun (t : State) a => t.serveGrant st a) (s1.setProxy line { p with st := st, missing := false, inval := none })
          ((if SMap.get false s2.dirty line then (s2.setProxy line { s2.proxy line with st := 3 }).sendHome line else s2).dropLine line).setProxy line
            { p with st := 0, missing := false, inval := none, invWait := false }
        else
          ws.foldl (fun (t : State) a => t.modAcc a.id (fun q => { q with st := .flying }))
            (s1.setProxy line { p with st := st, missing := false, inval := none, invWait := false })
      | none =>
        ws.foldl (fun (t : State) a => t.modAcc a.id (fun q => { q with st := .flying }))
          (s1.setProxy line { p with st := st, missing := false, invWait := false }))

/-- PROXY_INVALIDATION (R416, R417): a copy is dropped, and acknowledged once the leases on it have expired; with a miss
pending the number is kept; with no copy the acknowledgement goes at once. -/
def execProxyInvalidation (line num : Nat) (s : State) : Result :=
  device s (
    let p := s.proxy line
    if p.orphan then s
    else
      let s1 := if p.missing then s.setProxy line { p with inval := some num } else s
      if p.st = 0 then s1.ackInval line
      else if s.leasesOver line then (s1.dropCopy line).ackInval line
      else s1.setProxy line { s1.proxy line with invWait := true })

/-- DIRECTORY_RECALL (R416): for another module's read, a modified or exclusive copy is written back and left in S; for a
write, or to free a filter entry, every copy goes once its leases have expired. -/
def execDirectoryRecall (line : Nat) (inv : Bool) (s : State) : Result :=
  device s (
    let p := s.proxy line
    if p.orphan || p.st = 0 then s
    else if !inv then
      (s.sendHome line).setProxy line { p with st := 1 }
    else if s.leasesOver line then (s.dropCopy line).ackInval line
    else s.setProxy line { p with invWait := true })

/-! ## Failed modules (R418, R419) -/

/-- Whether a line belongs to a module. -/
def State.lineOfModule (s : State) (line module : Nat) : Bool :=
  isAperture (line * 128) && !s.apertureOff (line * 128) && fld (s.apertureReg (line * 128)) 16 12 = module

/-- MODULE_FAILED (R418): modified lines of that memory become orphans, other copies are dropped, and every access that
waits for the module is answered HOMELOST; no L1 serves its lines any more. -/
def execModuleFailed (module : Nat) (s : State) : Result :=
  device s (
    let hit := s.proxies.filter (fun p => s.lineOfModule p.1 module)
    let s1 := hit.foldl (fun (t : State) p =>
      if p.2.orphan then t
      else if p.2.st = 3 then t.setProxy p.1 { p.2 with orphan := true, missing := false }
      else (t.dropCopy p.1).setProxy p.1 { p.2 with st := 0, missing := false, inval := none, invWait := false }) s
    let s2 : State := { s1 with
      failedMods := if s1.failedMods.contains module then s1.failedMods else module :: s1.failedMods
      cores := s1.cores.map (fun p => (p.1, { p.2 with l1 := p.2.l1.filter (fun q => !s1.lineOfModule q.1 module) })) }
    (s2.accs.filter (fun a => s2.lineOfModule (a.la / 128) module && (a.st = .hostWait || a.st = .hostOut || a.st = .leaseWait))).foldl
      (fun (t : State) a => t.refuse a 4) s2)

/-- A module that had failed is back (R419): its memory answers again, and its directory knows no copies. Orphaned lines stay. -/
def State.moduleBack (s : State) (module : Nat) : State := { s with failedMods := s.failedMods.filter (· ≠ module) }

/-! ## Other modules' copies of lines of this module (R307, R416) -/

/-- Another module asks for a line of this module (R416): what one module alone holds is recalled first, and other copies are invalidated
before one module has the line alone; the line then goes out as a response flit. In DRAINING the request is answered HOMELOST (R420). -/
def State.grantRemote (s : State) (module line : Nat) (alone : Bool) : State :=
  let la := 128 * line
  let answer := fun (t : State) (nums : List Nat) =>
    ({ t with fabOut := t.fabOut ++ [⟨none, 3, module, Config.flitPayload 3 nums⟩] } : State).drainFab
  if !isMemory la || isAperture la then s
  else if fld (s.reg (pfReg 0x1_7010)) 0 3 ≠ 0 then answer s [4, la]
  else if (s.frame (la / 4096)).st ≠ .resident || s.writeWaiting line then s
  else if 2 ≤ s.remoteAt line then s.recallLines [line]
  else if alone && s.remoteAt line = 1 then s.snoopRemote line
  else if alone && (s.remoteInv.contains line || s.ptime < SMap.get 0 s.leases line) then s
  else
    let t := s.touchFrame la
    let u := if alone then t.snoopHost line else t
    answer { u with remote := SMap.set 0 u.remote line (if alone then 2 else 1) } (la :: (s.bytesAt la 128).map (·.toNat))

/-- Another module has answered an invalidation, or a recall, with the line where it had changed it (R307, R416). -/
def State.remoteAnswer (s : State) (line : Nat) (data : Option (List Byte)) : State :=
  if s.remoteInv.contains line then { s with remoteInv := s.remoteInv.erase line }
  else if s.remoteAt line = 3 then
    let t : State := { s with remote := SMap.set 0 s.remote line 0 }
    match data with
    | some bs => t.writeAt (128 * line) (fitBytes 128 bs)
    | none => t
  else s

/-- Every copy that other modules hold of this module's memory is recalled (R420). -/
def State.recallRemote (s : State) : State := (s.remote.map (·.1)).foldl (fun (t : State) l => (t.recallLines [l]).snoopRemote l) s

/-- ORPHREL (R419): every orphaned line held here is discarded. -/
def execOrphrel (s : State) : Result :=
  device s (
    (s.proxies.filter (fun p => p.2.orphan)).foldl (fun (t : State) p =>
      { t.dropLine p.1 with proxies := SMap.del t.proxies p.1 }) s)

/-- Orphaned lines held, as SKFSTAT reports them (R419). -/
def State.orphans (s : State) : Nat := (s.proxies.filter (fun p => p.2.orphan)).length

/-! ## Quiesce (R420) -/

/-- SKFCTL and SKFSTAT. -/
def skfctl : Nat := pfReg 0x1_7008
def skfstat : Nat := pfReg 0x1_7010

/-- The lines of other homes that this module still holds a copy of. -/
def State.copiesHeld (s : State) : List Nat := (s.proxies.filter (fun p => !p.2.orphan && p.2.st ≠ 0)).map (·.1)

/-- Drop what may be dropped of the copies held for other homes: those whose leases have expired. -/
def State.drainCopies (s : State) : State :=
  s.copiesHeld.foldl (fun (t : State) l => if t.leasesOver l then t.dropCopy l else t.setProxy l { t.proxy l with invWait := true }) s

/-- QUIESCE (R420): QSTATE becomes DRAINING, the copies for other homes are written back and dropped, and those that others hold are
recalled. -/
def execQuiesce (s : State) : Result :=
  device s (
    if fld (s.reg skfstat) 0 3 ≠ 0 then s
    else (((s.setRegFld skfctl 0 1 1).setRegFld skfstat 0 3 1).drainCopies).recallRemote)

/-- Whether a quiesce has still something to wait for (R420): copies on either side, flits, or a port that trains. -/
def State.draining (s : State) : Bool :=
  !s.copiesHeld.isEmpty || !s.remote.isEmpty || !s.remoteInv.isEmpty || !s.fabOut.isEmpty ||
    s.ports.any (fun p => !p.2.buf.isEmpty || p.2.st = .training || p.2.st = .retrain)

/-- QUIESCE_COMPLETE (R420): no copy is left and every replay buffer is empty. -/
def execQuiesceComplete (s : State) : Result :=
  device s (
    if fld (s.reg skfstat) 0 3 ≠ 1 then s
    else
      let t := s.drainCopies.drainFab
      if t.draining then t
      else
        let u := (t.setRegFld skfctl 0 1 0).setRegFld skfstat 0 3 2
        { u with ports := u.ports.map (fun p => (p.1, if p.2.st = .up then { p.2 with st := .quiesced } else p.2)) })

/-! ## Fabric arrivals (R183, R184, R422) -/

/-- FABRIC_ARRIVAL (R422): a message routed here from another module, with its 64-byte header, once its flits have been accepted (R410,
R414). It is stamped FLOOR + 64 and numbered by the port; without a live context or a save area there it is discarded with a context error
record. A frozen device accepts none (R426), and one that drains answers HOMELOST (R420; log 111). -/
def execFabricArrival (p rctx x y : Nat) (header payload : List Byte) (s : State) : Result :=
  device s (
    if (s.port p).st ≠ .up || s.halted || !s.logRoom (ctxFn rctx) payload.length then s
    else
      match s.takeFlits (messageFlits rctx x y header payload) with
      | none => s
      | some t =>
        if fld (t.reg skfstat) 0 3 ≠ 0 then { t with sent := t.sent ++ [leBytes 1 3 ++ leBytes 8 p] }
        else if (t.ctx rctx).st ≠ .live || !t.holdsArea rctx x y then t.ctxErr rctx (coreAddr x y) 0
        else
          let f := fun (off n : Nat) => ofLe ((header.drop off).take n)
          let m : Msg := ⟨t.floor + 64, f 8 8, (t.port p).arrivals, 0xFF00 + p, 0xFF, 1 ||| (f 0x1B 1 &&& 6), f 0x1C 1 % 16, f 0x1D 1 % 4,
            f 0x20 2, f 0 8, payload.take 256, false⟩
          (t.modPort p (fun q => { q with arrivals := q.arrivals + 1 })).postOutside (0xFF00 + p) (coreAddr x y) rctx m)

end Sys2Proof.Machine
end

