-- ==== Sys2Proof/Machine/Reliability.lean ====
section
/-! DEFINITION. Errors and their outcomes, the error budget, scrubbing, and re-layout (R361-R368, R376-R378). -/
namespace Sys2Proof.Machine

/-! ## The error budget (R367, R368) -/

/-- A correction is charged to a core's binding: EBUD falls unless it is unlimited or spent, and EBCNT rises; the charge
that spends it makes EBX pending and writes a record of type 4. -/
def State.chargeError (s : State) (c : Nat) : State :=
  match (s.core c).ctx with
  | none => s
  | some n =>
    let b := s.bind n c
    let cnt := if b.ebcnt = 0xFFFF_FFFF#32 then b.ebcnt else b.ebcnt + 1
    if b.ebud = 0xFFFF_FFFF#32 || b.ebud = 0 then s.modBind n c (fun q => { q with ebcnt := cnt })
    else
      let s1 := s.modBind n c (fun q => { q with ebud := q.ebud - 1, ebcnt := cnt })
      if b.ebud = 1 then
        (s1.pendCause n c pEbx 0 0).relRec (relRecord s.ptime b.vtime n 4 (if b.act.isSome then b.actSlot else 0xFF) c 0 0)
      else s1

/-! ## Error events (R364, R365) -/

/-- ERROR_CORRECTED (R364): charged where an access or a register of a binding met it; unseen in class U, and no correction
exists in class D memory. What another party meets is charged to no context, and no type of record names it (R375). -/
def execErrorCorrected (site : ErrSite) (s : State) : Result :=
  device s (
    match site with
    | .dram la (some c) => if s.classAt la = 0 then s.chargeError c else s
    | .dram _ none => s
    | .scratch la (some c) => if s.classAt la = 0 then s.chargeError c else s
    | .scratch _ none => s
    | .l1 _ c => s.chargeError c
    | .l2 _ (some c) => s.chargeError c
    | .l2 _ none => s
    | .journal c _ => s.chargeError c
    | .queue c _ _ _ => s.chargeError c
    | .outbox c _ => s.chargeError c
    | .reg c _ => s.chargeError c
    | .vreg c _ _ => s.chargeError c
    | .tile c _ => s.chargeError c
    | .half c _ _ => s.chargeError c)

/-- Poison a granule of a line where the L1 of a core holds it (R361, R364). -/
def State.poisonL1 (s : State) (c la : Nat) : State :=
  match SMap.find? (s.core c).l1 (la / 128) with
  | some k => s.modCore c (fun q => { q with l1 := SMap.put q.l1 (la / 128) { k with poison := setBit k.poison (la % 128 / 16) } })
  | none => s

/-- Poison a granule of a line where its home slice holds it (R361, R364). -/
def State.poisonL2 (s : State) (la : Nat) : State :=
  if SMap.get false s.l2 (la / 128) then { s with poison := SMap.set false s.poison (la / 16) true } else s

/-- Poison a granule of a bank (R364, R365): in a FIFO bank it belongs to the message of its slot. -/
def State.poisonBank (s : State) (la : Nat) : State :=
  match region la with
  | .scratch c b off =>
    if s.bankMode c b = 2 then
      s.modCur c (fun q => { q with inbox := q.inbox.map (fun h =>
        if h.place = 204 * b + off / 320 && off / 320 < 204 then { h with poison := off % 320 / 16 :: h.poison } else h) })
    else s.setPoison la
  | _ => s

/-- An entry of a core's queue delivers poisoned data (R364). -/
def State.poisonEntry (s : State) (c thr q n : Nat) : State :=
  if n < (s.entries ⟨c, thr⟩ q).length then s.modCur c (fun b => { b with badQ := (thr, q, n) :: b.badQ }) else s

/-- An outbox item that delivers poisoned data (R364); a request of an address-space instruction has no data of its own. -/
def OutItem.poisoned : OutItem → OutItem
  | .msg ds m w => .msg ds { m with poison := true } w
  | .req r => .req r

/-- A record of an uncorrectable error that no context met (R364, R375). -/
def State.recordError (s : State) (la : Nat) : State := s.relRec (relRecord s.ptime 0 0 5 0xFF 0 0 (la / 4096 % 2 ^ 32))

/-- A granule of DRAM is poisoned (R364, R365): so is the copy that the machine reads when its home holds no newer data. -/
def State.poisonDram (s : State) (la : Nat) : State :=
  if s.classAt la = 2 then s
  else
    let gs := s.poisonSpan la
    let mark := fun (m : SMap Bool) (l : List Nat) => l.foldl (fun m g => SMap.set false m g true) m
    { s with dpoison := mark s.dpoison gs, poison := mark s.poison (gs.filter (fun g => !SMap.get false s.dirty (g / 8))) }

/-- ERROR_UNCORRECTABLE (R364). Outside any context a record of type 5 is written (R375). -/
def execErrorUncorrectable (site : ErrSite) (s : State) : Result :=
  device s (
    match site with
    | .dram la (some _) => s.poisonDram la
    | .dram la none => if s.classAt la = 2 then s else (s.poisonDram la).recordError la
    | .scratch la (some _) => s.poisonBank la
    | .scratch la none => if s.classAt la = 2 then s else (s.poisonBank la).recordError la
    | .l1 la c => s.poisonL1 c la
    | .l2 la (some _) => s.poisonL2 la
    | .l2 la none => (s.poisonL2 la).recordError la
    | .journal c n => if (s.cur c).entry n = JEntry.free then s else s.modCur c (fun b => b.modEntry n (fun e => { e with poison := true }))
    | .queue c thr q n => s.poisonEntry c thr q n
    | .outbox c n => s.modCur c (fun b =>
        { b with outbox := b.outbox.zipIdx.map (fun x => if x.2 = n then x.1.poisoned else x.1) })
    | .reg c _ => s.setChki c chkReg
    | .vreg c m v => s.modMt c m (fun t => { t with v := SMap.set VReg.zero t.v v { SMap.get VReg.zero t.v v with
        tag := setBit (SMap.get VReg.zero t.v v).tag 8 } })
    | .tile c t => s.modCur c (fun b => b.setTile t { b.tile t with tag := setBit (b.tile t).tag 8 })
    | .half c m h => s.modCur c (fun b =>
        let k := b.cim m
        b.setCim m (if h = 0 then { k with h0 := { k.h0 with poison := true } } else { k with h1 := { k.h1 with poison := true } })))

/-- MEMORY_SCRUB (R364): an MXU reads a resident class-P frame; what it corrects leaves the data as it was. -/
def execMemoryScrub (_frame : Nat) (s : State) : Result := device s s

/-! ## Re-layout (R376-R378) -/

/-- Register `o` of Locus n's re-layout block. -/
def rlReg (n o : Nat) : Nat := pfReg (0x1_5000 + 0x20 * n + o)

/-- RELAYOUT_GO (R376, R377): a write of RLCTL; GO = 1 stamps the request and holds it with the Locus's requests. -/
def execRelayoutGo (n : Nat) (v : Word) (s : State) : Result :=
  device s (
    if 18 ≤ n || bit (s.reg (rlReg n 0x10)) 0 then s
    else
      let s1 := s.setReg (rlReg n 0x10) (w64 (fld v 0 3))
      if !bit v 0 then s1
      else
        let part : LPart := ⟨s1.nextReq, s1.floor + 64, 0xFFFE, s1.nextReq, true⟩
        ({ s1.setReg (rlReg n 0x18) 1 with nextReq := s1.nextReq + 1 }).modLocus n (fun q => { q with held := q.held ++ [part] }))

/-- A re-layout ends with a status (R376); the cycles that it held the Locus are charged to the physical function (R169, R377). -/
def State.relayEnd (s : State) (n : Nat) (p : LPart) (status : Nat) : State :=
  (((s.setRegFld (rlReg n 0x18) 0 8 status).setRegFld (rlReg n 0x10) 0 1 0).spendLoc 128 n
    ((s.ptime - (s.locus n).relay.getD s.ptime) * 3 / 2)).modLocus n (fun q => { q with held := q.held.erase p, relay := none })

/-- DONE and LOST of a re-layout rise. -/
def State.relayCount (s : State) (n done lost : Nat) : State :=
  let w := s.reg (rlReg n 0x18)
  s.setReg (rlReg n 0x18) (setFld (setFld w 32 32 (fld w 32 32 + done)) 16 16 (min 65535 (fld w 16 16 + lost)))

/-- Whether a node of a context that is not a host-root context lies in a range (R377). -/
def State.rangeMapped (s : State) (a n : Nat) : Bool :=
  s.nodes.any (fun p => p.2.st ≠ .free && !isRoot p.2.holder && p.2.run.parts.any (fun q => meets q.2.1 q.2.2 a n))

/-- Poison in a range as its new class holds it (R365, R377): the granules that become zero, and the granules that are poisoned; a
scratch bank of class D keeps a bit per granule. -/
def State.crossPoison (s : State) (la n cls : Nat) : List Nat × List Nat :=
  let gs := (List.range (n / 16)).filterMap (fun k => if SMap.get false s.poison (la / 16 + k) then some (la / 16 + k) else none)
  if cls = 2 then (gs, [])
  else if cls = 1 && isMemory la then ([], (List.range (n / 16)).filterMap (fun k =>
    if gs.any (fun g => g / 32 = (la / 16 + k) / 32) then some (la / 16 + k) else none))
  else ([], gs)

/-- Write a range's bytes and poison as its new class holds them. -/
def State.recode (s : State) (la n cls : Nat) (dram : Bool) : State :=
  let r := s.crossPoison la n cls
  let zero := fun (m : SMap Byte) => r.1.foldl (fun m g => putBytes m (g * 16) (List.replicate 16 0)) m
  let mark := fun (m : SMap Bool) => r.2.foldl (fun m g => SMap.set false m g true) (r.1.foldl (fun m g => SMap.set false m g false) m)
  { s with
    mem := zero s.mem, poison := mark s.poison
    dram := if dram then zero s.dram else s.dram
    dpoison := if dram then mark s.dpoison else s.dpoison }

/-- Translations of host-root contexts onto a frame leave every TLB (R377). -/
def State.flushRoots (s : State) (frame : Nat) : State :=
  { s with cores := s.cores.map (fun p => (p.1, { p.2 with
      tlb := p.2.tlb.filter (fun e => !(isRoot e.ctx && meets e.la e.size (frame * 4096) 4096)) })) }

/-- Move a frame to a new class, into the slot that was taken for it (R377): the parks of the frame are released by the MXU. -/
def State.moveFrame (s : State) (n frame cls : Nat) : State :=
  let f := s.frame frame
  let p := (s.locus n).slot
  let s1 := s.cleanFrame frame
  let lost := (s1.crossPoison (frame * 4096) 4096 cls).1.length
  let s2 := (s1.recode (frame * 4096) 4096 cls true).dropSlot (frame % 16) f.cell f.slot
  let s3 := (s2.modFrame frame (fun q => { q with st := .resident, cls := cls, cell := p.1, slot := p.2 })).flushRoots frame
  ((sortParks (s3.parks.filter (fun q => q.frame = frame && !q.pri))).foldl (fun (t : State) q => t.releasePark q) s3).relayCount n 1 lost

/-- The next frame of a re-layout (R377): for a resident frame a slot of the new class is taken first, then it is closed to accesses,
and moved once they and the leases have ended; a frame that is not resident only changes its class. -/
def State.relayFrame (s : State) (n : Nat) (part : LPart) (frame cls : Nat) : State :=
  let f := s.frame frame
  match f.st with
  | .nonres => ((s.modFrame frame (fun q => { q with cls := cls })).flushRoots frame).relayCount n 1 0
  | .evicting => s
  | .resident =>
    match s.freeSlot (frame % 16) cls with
    | none => s.relayEnd n part 4
    | some p =>
      ((s.takeSlot (frame % 16) cls p).modLocus n (fun q => { q with slot := p })).modFrame frame (fun q => { q with st := .moving })
  | .moving => if s.frameBusy frame then s else s.moveFrame n frame cls

/-- The re-layout of a scratch bank (R378). -/
def State.relayBank (s : State) (n : Nat) (part : LPart) (core bank cls : Nat) : State :=
  let la := scratchLa core bank 0
  if s.bankMode core bank ≠ 1 then s.relayEnd n part 3
  else
    let lost := (s.crossPoison la 0x1_2000 cls).1.length
    let s1 := (s.recode la 0x1_2000 cls false).modCore core (fun k => { k with bankcfg := setFld k.bankcfg (4 * bank + 2) 2 cls })
    let s2 := if cls = 2 then s1 else { s1 with mem := putBytes s1.mem (la + 0x1_0000) (List.replicate 0x2000 0) }
    (s2.relayCount n 0 lost).relayEnd n part 0

/-- The scratch bank whose window a re-layout names (R376). -/
def relayWindow (n base len : Nat) : Option (Nat × Nat) :=
  match region base with
  | .scratch c b 0 => if len = 131072 && locusOf base = n then some (c, b) else none
  | _ => none

/-- What ends a re-layout before it converts anything (R377): BADARG or MAPPED. -/
def State.relayRefused (s : State) (n : Nat) : Option Nat :=
  let base := (s.reg (rlReg n 0)).toNat
  let len := fld (s.reg (rlReg n 8)) 0 40
  let served := if isScratch base then (relayWindow n base len).isSome
    else isMemory base && isMemory (base + len - 1) && !isAperture base && n < 16 && rootHas base len n
  if fld (s.reg (rlReg n 0x10)) 1 2 = 3 || len = 0 || len % 4096 ≠ 0 || !served then some 3
  else if s.rangeMapped base len then some 2
  else none

/-- RELAYOUT_RUN (R377, R378): the Locus takes up a re-layout in its turn, when the physical function has budget there (R169), and
checks the range; then it converts the next of the frames that it serves, until the last one. -/
def execRelayoutRun (n : Nat) (s : State) : Result :=
  device s (
    match s.nextPart n with
    | none => s
    | some part =>
      let base := (s.reg (rlReg n 0)).toNat
      let len := fld (s.reg (rlReg n 8)) 0 40
      let cls := fld (s.reg (rlReg n 0x10)) 1 2
      if !part.relay || s.halted then s
      else if (s.locus n).relay.isNone then
        if s.locOk 128 n then
          let t := s.modLocus n (fun q => { q with relay := some s.ptime })
          match s.relayRefused n with
          | some status => t.relayEnd n part status
          | none => t
        else s
      else
        match relayWindow n base len with
        | some (c, b) => s.relayBank n part c b cls
        | none =>
          let frame := base / 4096 + (n + 16 - base / 4096 % 16) % 16 + 16 * fld (s.reg (rlReg n 0x18)) 32 32
          if base + len ≤ frame * 4096 then s.relayEnd n part 0 else s.relayFrame n part frame cls)

end Sys2Proof.Machine
end

