-- ==== Sys2Proof/Machine/Management.lean ====
section
/-! DEFINITION. Boot, power, heat, the error-record ring, measurements, and what software writes to and reads from the
memory-mapped registers (R404, R445-R452 and the register tables of the other chapters). -/
namespace Sys2Proof.Machine

/-! ## Boot (R445-R447) -/

/-- Physical sites of a die (R9). -/
def dieSites (die : Nat) : List Nat := (List.range 1024).map (fun k => die * 1024 + k)

/-- The logical cores of a die, in order of logical address (R10). -/
def dieCores (die : Nat) : List Nat := (List.range 1984).filter (fun c => dieOf c = die)

/-- The fused-off sites of a die, at most 24 (R1, R11). -/
def fusedSites (die : Nat) : List Nat := dedup ((List.range (Config.fused die % 25)).map (fun k => die * 1024 + Config.fusedSite die k % 1024))

/-- The working sites of a die: those that are not fused, passed self-test and are no old site of a quarantined core (R11, R446). -/
def workingSites (passed old : List Nat) (die : Nat) : List Nat :=
  (dieSites die).filter (fun k => passed.contains k && !old.contains k && !(fusedSites die).contains k)

/-- The sites of cores quarantined since the last reset (R446). -/
def State.oldSites (s : State) : List Nat :=
  s.cores.filterMap (fun p => if p.2.quar then SMap.find? s.coreMap p.1 else none)

/-- BOOTSTAT. -/
def bootReg : Nat := pfReg 0xB00

/-- What a reset leaves: the state of R445's start, with what lies outside the module's own reset kept: host memory, the
schedule, and the time of the fabric. -/
def State.cleared (s : State) : State :=
  { State.reset with
    focus := s.focus, agenda := s.agenda, nextFree := s.nextFree, ptime := s.ptime, host := s.host
    hostPort := ⟨true, 16, [], []⟩ }

/-- Boot to a stage with a FAIL code (R448). -/
def State.booted (s : State) (stage fail : Nat) : State := s.setReg bootReg (w64 (stage + 2 ^ 8 * fail))

/-- Whether boot accepts an image (R447): its key chain begins with the root key in fuses, each key vouches for the next, the last one for
the image with its version, and the version is not below the fused minimum of image `i`. What is signed is in log 9. -/
def imageOk (i : Nat) (img : BootImage) : Bool :=
  let keys := img.chain.map (·.1)
  keys.head?.any (fun k => Config.sha256 k = Config.rootDigest) &&
    (keys.zip (img.chain.drop 1)).all (fun p => Config.rsaVerify p.1 p.2.1 p.2.2) &&
    keys.getLast?.any (fun k => Config.rsaVerify k (leBytes 2 img.version ++ img.bytes) img.sig) &&
    Config.minVersion i ≤ img.version && img.version < 2 ^ 16

/-- The core map of a die (R446): its cores in order of logical address, those quarantined since the last reset after the others, take the
working sites in order. -/
def State.dieMap (s : State) (sites : List Nat) (die : Nat) : List (Nat × Nat) :=
  ((dieCores die).filter (fun c => !(s.core c).quar) ++ (dieCores die).filter (fun c => (s.core c).quar)).zip sites

/-- DEVICE_RESET (R445-R447): `passed` names the sites that passed self-test, `trained` tells whether the memory links trained, and `images`
are the boot firmware, the resident handler region and the Apex firmware. A module that has lost its power does nothing (R451). -/
def execDeviceReset (passed : List Nat) (trained : Bool) (images : List BootImage) (s : State) : Result :=
  .next (
    let old := s.oldSites
    let t := { s.cleared with quarSites := old }
    let w0 := workingSites passed old 0
    let w1 := workingSites passed old 1
    let ok := fun (i : Nat) => images[i]?.any (imageOk i)
    if s.tripped || !s.powered then s
    else if !ok 0 then t.booted 1 1
    else if w0.length < 992 || w1.length < 992 then t.booted 1 2
    else
      let m := { t with
        coreMap := (s.dieMap w0 0 ++ s.dieMap w1 1).foldl (fun (m : SMap Nat) (p : Nat × Nat) => SMap.put m p.1 p.2) []
        spares := SMap.set 0 (SMap.set 0 [] 0 (w0.length - 992)) 1 (w1.length - 992) }
      let u := { m with
        resv := (Config.resvFirst, Config.resvCount)
        digests := (images.take 3).zipIdx.foldl (fun (d : SMap (List Byte)) (p : BootImage × Nat) => SMap.put d (p.2 + 1) (Config.sha256 p.1.bytes)) []
        cores := SMap.ofFn Core.reset (fun _ => { Core.reset with tvec := Config.tvec &&& ~~~3 }) 0 1984 }
      if !(ok 1 && ok 2) then m.booted 2 1
      else if !trained then u.booted 3 3
      else
        { u with ports := SMap.ofFn Port.reset (fun _ => { Port.reset with st := .training, en := true }) 0 portCount }.booted 5 0)

/-! ## Measurements (R404, R447) -/

/-- The measurement of an image: of what boot has loaded, and of what was loaded before the model's run began (log 15). -/
def State.imageDigest (s : State) (n : Nat) : List Byte := (SMap.find? s.digests n).getD (Config.imageDigest n)

/-- STATE of a world in its register (R391). -/
def WorldSt.code : WorldSt → Nat
  | .isOpen => 0 | .configured => 1 | .keyed => 2 | .retiring => 3

/-- The code of a context's state (R117). -/
def CtxSt.code : CtxSt → Nat
  | .free => 0 | .live => 1 | .faulted => 2 | .destroying => 3

/-- A measurement of R404: the images, the device configuration, and the worlds from 0x10 on; no other index has one. -/
def State.measurement (s : State) (n : Nat) : Option (List Byte) :=
  if 1 ≤ n && n ≤ 3 then some (s.imageDigest n)
  else if n = 4 then
    some (Config.sha256 (Config.measuredBytes 4
      [(fusedSites 0).length, (fusedSites 1).length, 64, 4096, 2 ^ 32 - 1, Core.reset.bankcfg.toNat]))
  else if 0x10 ≤ n && n < 0x10 + 128 then
    let w := s.world (n - 0x10)
    some (Config.sha256 (Config.measuredBytes n ([w.st.code, w.moslot, w.doslot] ++ w.digest.map (·.toNat))))
  else none

/-- A function asks over SPDM for a measurement with a nonce: it is answered signed (R404; log 128). -/
def State.spdm (s : State) (n : Nat) (nonce : List Byte) : State :=
  match s.measurement n with
  | some m => { s with sent := s.sent ++ [m ++ Config.rsaSign (nonce ++ m)] }
  | none => s

/-- STAGE (R448): launch queues accept no entry before stage 5. -/
def State.stage (s : State) : Nat := fld (s.reg bootReg) 0 3

/-! ## Power (R449, R450) -/

def capReg : Nat := pfReg 0x900
def winReg : Nat := pfReg 0x908
def pactReg : Nat := pfReg 0x910

/-- Clamp a value. -/
def clamp (lo hi v : Nat) : Nat := max lo (min hi v)

/-- PCAPW_WRITE (R449, R450): the cap, clamped; a new window starts at the next adjustment. -/
def execPcapwWrite (v : Word) (s : State) : Result :=
  device s (
    let w := clamp 600 1800 (fld v 0 12)
    { s.setReg capReg (w64 w) with
      power := { s.power with restart := true, lowered := s.power.lowered || w < (s.reg capReg).toNat } })

/-- PCAPWIN_WRITE (R449, R450). -/
def execPcapwinWrite (v : Word) (s : State) : Result :=
  device s { s.setReg winReg (w64 (clamp 1 1000 (fld v 0 10))) with power := { s.power with restart := true } }

/-- POWER_SAMPLE (R450): every 100 us; a window takes ten samples for each of its milliseconds. -/
def execPowerSample (watts : Nat) (s : State) : Result :=
  device s (
    let p := s.power
    if 10 * p.winNow ≤ p.count then { s with power := { p with last := watts } }
    else { s with power := { p with sum := p.sum + watts, count := p.count + 1, last := watts } })

/-- GATE is the larger of what the cap and heat ask for (R451). -/
def State.setGate (s : State) : State := s.setRegFld pactReg 0 8 (max s.power.gateCap s.power.gateHot)

/-- POWER_ADJUST (R450): every 1 ms; `gate` is what the device's control asks for, 0..255. A write of PCAPW or PCAPWIN since the last one
takes effect, and a new window starts. -/
def execPowerAdjust (gate : Nat) (s : State) : Result :=
  device s (
    let p := { s.power with gateCap := min gate 255 }
    let q := if p.restart then
        { p with
          sum := 0, count := 0, lowered := false, restart := false, capNow := (s.reg capReg).toNat, winNow := (s.reg winReg).toNat }
      else p
    ({ s with power := q } : State).setGate)

/-- POWER_WINDOW_END (R450): the window's samples average above its cap or not. The spec does not say how AVG is rounded:
`avg` is the value shown where it is one of the two neighbours of the average. -/
def execPowerWindowEnd (avg : Nat) (s : State) : Result :=
  device s (
    let p := s.power
    if p.count < 10 * p.winNow || p.count = 0 then s
    else
      let lo := p.sum / p.count
      let shown := if avg = lo + 1 && p.sum % p.count ≠ 0 then avg else lo
      let s1 := s.setRegFld pactReg 32 12 shown
      let s2 := if p.capNow * p.count < p.sum && !p.lowered then s1.setRegFld pactReg 16 1 1 else s1
      { s2 with power := { p with sum := 0, count := 0, lowered := false } })

/-! ## Heat (R451) -/

def thermReg : Nat := pfReg 0x918

/-- The sensors' readings, in °C. -/
def State.readHeat (s : State) (t0 t1 : Nat) : State :=
  let t := max t0 t1
  s.setReg thermReg (w64 (t % 256 + 2 ^ 8 * max (fld (s.reg thermReg) 8 8) (t % 256) + 2 ^ 16 * (t0 % 256) + 2 ^ 24 * (t1 % 256)))

def State.isHot (s : State) : Bool := bit (s.reg pactReg) 17

/-- THERM_READ (R451). -/
def execThermRead (s : State) : Result := device s (s.setRegFld thermReg 8 8 0)

/-- THERMAL_THROTTLE (R451): from 95 °C, and until below 92 °C, GATE rises; HOT is set. -/
def execThermalThrottle (t0 t1 gate : Nat) (s : State) : Result :=
  device s (
    let s1 := s.readHeat t0 t1
    if 95 ≤ max t0 t1 || (s.isHot && 92 ≤ max t0 t1) then
      ({ s1.setRegFld pactReg 17 1 1 with power := { s1.power with gateHot := max s1.power.gateHot (min gate 255) } } : State).setGate
    else s1)

/-- THERMAL_FREEZE (R451): from 105 °C the device freezes as R426 says, without a session. -/
def execThermalFreeze (t0 t1 : Nat) (s : State) : Result :=
  device s (
    let s1 := s.readHeat t0 t1
    if 105 ≤ max t0 t1 && !s.dbg.thermal then
      { s1.setRegFld pactReg 17 1 1 with
        dbg := { s1.dbg with thermal := true, hotAt := s.ptime } }
    else s1)

/-- THERMAL_TRIP (R451): from 110 °C the package loses its power and the interlock trips. -/
def execThermalTrip (t0 t1 : Nat) (s : State) : Result :=
  device s (
    let s1 := s.readHeat t0 t1
    if 110 ≤ max t0 t1 then { s1 with powered := false, tripped := true } else s1)

/-- THERMAL_RECOVER (R451): below 92 °C HOT falls and a freeze by heat ends. -/
def execThermalRecover (t0 t1 : Nat) (s : State) : Result :=
  device s (
    let s1 := s.readHeat t0 t1
    if 92 ≤ max t0 t1 then s1
    else
      let d := s.dbg
      let stopAt := fun (c : Nat) => if (d.mode = 2 || d.mode = 3) && (!d.isLocal || c = d.core) then min s.ptime d.frozeAt else s.ptime
      ({ s1.setRegFld pactReg 17 1 0 with
        power := { s1.power with gateHot := 0 }
        dbg := { s1.dbg with thermal := false }
        parks := if d.thermal then s1.parks.map (fun q => q.idle d.hotAt (stopAt q.saddr)) else s1.parks } : State).setGate)

/-! ## The error-record ring (R452) -/

/-- ERROR_RECORD_WRITE (R452): the oldest waiting record enters the ring when there is room. -/
def execErrorRecordWrite (s : State) : Result :=
  device s (
    match s.errWait with
    | [] => s
    | r :: t => if s.ringOn erRing && s.ringRoom erRing then ({ s with errWait := t } : State).hostRingPut erRing r else s)

/-! ## The core map's registers (R448) -/

/-- Spare sites of a die that repair does not use: those free and those lent to a tie-break (R446, R448). -/
def State.spareSites (s : State) (die : Nat) : Nat :=
  SMap.get 0 s.spares die + (s.cores.filter (fun p => p.2.pair.spare = some die)).length

/-- CMAPDATA of a logical core (R448). -/
def State.cmapData (s : State) (c : Nat) : Word :=
  let site := SMap.get 0 s.coreMap c % 1024
  w64 ((fusedSites (dieOf c)).length + 2 ^ 5 * b2n (s.core c).quar + 2 ^ 6 * (site % 32) + 2 ^ 11 * (site / 32) + 2 ^ 16 * s.spareSites (dieOf c))

/-- The binding of a running core as the readout window shows it: with the header that a save would write now (R430). -/
def State.readoutBind (s : State) (c : Nat) : Bind :=
  let k := s.core c
  let b := s.shown c
  { b with tepc := if k.hmode then k.tepc else b.pc, savedLen := k.trapLen, savedBank := k.bankcfg }

/-! ## Register writes -/

/-- Write a ring's base, configuration and head (R344, R435, R440, R452): BASE and LOG2SZ only while EN is 0. `vec` tells
whether the ring has a vector, `mode` whether bit 1 of its configuration is MODE, `tail` whether TAIL may be written. -/
def State.ringWrite (s : State) (k o : Nat) (v : Word) (vec mode tail : Bool) : State :=
  let on := s.ringOn k
  match o with
  | 0 => if on then s else s.setReg k (v &&& ~~~0xFFF)
  | 8 =>
    let w := s.reg (k + 8)
    let w1 := setFld (0 : Word) 16 4 (fld (if on then w else v) 16 4)
    let w2 := if vec then setFld w1 24 8 (fld v 24 8) else w1
    let w3 := if mode then setFld w2 1 1 (fld (if on then w else v) 1 1) else w2
    s.setReg (k + 8) (setFld w3 0 1 (fld v 0 1))
  | 16 => if tail then s.setReg (k + 16) (w64 (fld v 0 32)) else s
  | 24 => s.setReg (k + 24) (w64 (fld v 0 32))
  | _ => s

/-- Clear the bits of a register that a write names (W1C). -/
def State.w1c (s : State) (k : Nat) (mask v : Word) : State := s.setReg k (s.reg k &&& ~~~(v &&& mask))

/-- Whether a mapping node covers any byte of an aperture (R415). -/
def State.apertureMapped (s : State) (a : Nat) : Bool :=
  s.nodes.any (fun p => p.2.st ≠ .free && p.2.run.parts.any (fun q => meets q.2.1 q.2.2 ((64 + a) * 2 ^ 36) (2 ^ 36)))

/-- Every Skonov port is DISABLED (R415). -/
def State.portsOff (s : State) : Bool := s.ports.all (fun p => p.2.st = .disabled)

/-- A write of the physical function to BAR 0. A value of DBGCORE that names no core is not stored, and CMAPSEL stores any (log 102).
DBGCTL takes any write; the other registers whose write is a step of its own (SKPCTL, REPLAY, RQTAIL, FGB, RLCTL, WCFG, CFGk, CNTSEL,
PCAPW, PCAPWIN, SKFCTL) change by that step (log 81); read-only ones do not change. -/
def State.pfWrite (s : State) (off : Nat) (v : Word) : State :=
  let k := pfReg off
  let plain := fun (m : Word) => s.setReg k (v &&& m)
  if off = 0x910 then s.w1c k 0x10000 v
  else if 0xA00 ≤ off && off < 0xA20 then s.ringWrite erRing (off - 0xA00) v true false false
  else if off = 0xB08 then plain 0x7FF
  else if 0x1_0000 ≤ off && off < 0x1_1100 then
    let n := (off - 0x1_0000) / 0x100
    let o := off % 0x100
    if o < 0x20 then s.ringWrite (mxuReg n 0) o v true false false
    else if n < 16 && (o = 0x30 || o = 0x38) then s.ringWrite (rqRing n) (o - 0x30) v false false false
    else s
  else if 0x1_2000 ≤ off && off < 0x1_2400 then
    let n := (off - 0x1_2000) / 0x10
    if fld (s.reg (hwReg n 8)) 0 2 ≠ 0 then s
    else if off % 0x10 = 0 then plain (~~~0xFFF) else if off % 0x10 = 8 then plain 0x0FFF_FFFF_0003 else s
  else if 0x1_4000 ≤ off && off < 0x1_4800 && off % 0x10 = 8 then
    let vf := (off - 0x1_4000) / 0x10
    if bit v 26 then { s with worlds := SMap.set World.reset s.worlds vf { s.world vf with refused := false } } else s
  else if 0x1_5000 ≤ off && off < 0x1_5240 then
    let n := (off - 0x1_5000) / 0x20
    if bit (s.reg (rlReg n 0x10)) 0 then s
    else if off % 0x20 = 0 then plain (~~~0xFFF) else if off % 0x20 = 8 then plain 0xFF_FFFF_FFFF else s
  else if off = 0x1_7000 then (if s.portsOff then plain 0xFFF else s)
  else if 0x2_0000 ≤ off && off < 0x2_3E00 && off % 8 = 0 then
    (if s.apertureMapped ((off - 0x2_0000) / 8) then s else plain 0x8000_0000_0FFF_003F)
  else if 0x2_4000 ≤ off && off < 0x3_4000 then
    if off % 16 = 0 then plain 0x7FFF_FFFF_FFFF else if off % 16 = 8 then plain 0x87FF_FFFF_FFFF_FFFF else s
  else if off = 0x3_8000 then s.dbgWrite v
  else if off = 0x3_8018 then plain (~~~0)
  else if off = 0x3_8020 then (if fld v 0 11 < 1984 then plain 0x7FF else s)
  else if 0x3_8040 ≤ off && off < 0x3_80C0 && off % 16 = 0 then
    s.modCore s.dbgCore (fun c => { c with comps := SMap.set Comp.off c.comps ((off - 0x3_8040) / 16) { s.comp s.dbgCore ((off - 0x3_8040) / 16) with addr := v } })
  else if 0xD_0000 ≤ off && off < 0xD_2040 then
    match off % 0x40 with
    | 0 => plain 0xF007
    | 8 => plain 0x03FF_0000_03FF
    | 0x10 => plain 0xFFFF_FFFF
    | 0x18 => plain 0xFFFF_FFFF
    | 0x20 => plain (~~~0)
    | 0x28 => plain 0xFFFF_FFFF
    | _ => s
  else if 0xD_4000 ≤ off && off < 0xD_C000 then
    match off % 0x20 with
    | 0 => plain 0xFFFF_FFFF
    | 8 => plain 0xFFFF_FFFF
    | 0x10 => plain 0x8000_0000_FFFF_FFFF
    | _ => s
  else s

/-- Queues of a function (R151). -/
def lqCount (fn : Nat) : Nat := if fn = 128 then 32 else 8

/-- Register `o` of launch queue n of a function (R152). -/
def lqReg (fn n o : Nat) : Nat := regKey fn 2 (0x1000 + 0x40 * n + o)

/-- STATE of a launch queue: 0 DISABLED, 1 OUT, 2 RESIDENT, 3 HALTED. -/
def State.lqState (s : State) (fn n : Nat) : Nat := fld (s.reg (lqReg fn n 0x20)) 0 3

/-- A function's write to its own BAR 2 (R152, R435, R438, R440). LQTAIL and LQCFG.EN change by their own steps. -/
def State.fnWrite (s : State) (fn off : Nat) (v : Word) : State :=
  if 0x1000 ≤ off && off < 0x1000 + 0x40 * lqCount fn then
    let n := (off - 0x1000) / 0x40
    let idle := s.lqState fn n = 0
    match off % 0x40 with
    | 0 => if idle then s.setReg (lqReg fn n 0) (v &&& ~~~0xFFF) else s
    | 8 =>
      let w := s.reg (lqReg fn n 8)
      let w1 := setFld w 24 8 (fld v 24 8)
      s.setReg (lqReg fn n 8) (if idle then setFld w1 16 4 (fld v 16 4) else w1)
    | 0x20 => s.w1c (lqReg fn n 0x20) 0x300 v
    | _ => s
  else if 0x2000 ≤ off && off < 0x2020 then s.ringWrite (trRing fn) (off - 0x2000) v false false false
  else if off = 0x20A0 && fn ≠ 128 then s.setReg (regKey fn 2 off) ((v &&& 0xFF) ||| 0x40)
  else if 0x2040 ≤ off && off < 0x2060 then
    { s.ringWrite (rpRing fn) (off - 0x2040) v false true true with rpAhead := if off = 0x2040 || off = 0x2050 then s.rpAhead else SMap.del s.rpAhead fn }
  else if off = 0x2060 then s.w1c (rpRing fn + 32) 1 v
  else s

/-- REGISTER_WRITE: one 64-bit write by a function to its own BAR 0 (the physical function) or BAR 2. -/
def execRegisterWrite (fn bar off : Nat) (v : Word) (s : State) : Result :=
  device s (
    if 128 < fn || off % 8 ≠ 0 then s
    else if bar = 0 && fn = 128 then s.pfWrite off v
    else if bar = 2 then s.fnWrite fn off v
    else s)

/-! ## Register reads -/

/-- STATE of a port as SKPSTAT gives it (R412). -/
def PortSt.code : PortSt → Nat
  | .disabled => 0 | .training => 1 | .up => 2 | .retrain => 3 | .quiesced => 4 | .failed => 5

/-- DBGSTAT (R423): STATE as it is, the other fields as of the last entry to STOPPED (R425). -/
def Debug.word (d : Debug) : Word :=
  let e := d.seen
  w64 (d.mode + 2 ^ 16 * e.slot + 2 ^ 20 * e.tag + 2 ^ 36 * e.comp + 2 ^ 40 * e.hitthr + 2 ^ 45 * e.hitcore + 2 ^ 56 * e.cause)

/-- A doubleword of the readout window (R430): the DBGCORE core's state in the layout of a save area. -/
def State.readout (s : State) (off : Nat) : Word :=
  let c := s.dbgCore
  if s.dbg.mode = 2 && s.dbg.isOpen && (s.core c).ctx = some s.dbg.ctxid then
    w64 (ofLe ((List.range 8).map (fun k => s.areaByte s.dbg.ctxid c (s.readoutBind c) (off / 8 * 8 + k))))
  else 0

/-- What a read of a register returns: the stored value, or what the device derives for it. -/
def State.readReg (s : State) (fn bar off : Nat) : Word :=
  let k := regKey fn bar off
  if fn = 128 && bar = 0 then
    if off = 0x800 then w64 s.jnext
    else if off = 0xB10 then s.cmapData (s.reg (pfReg 0xB08)).toNat
    else if 0x1_0000 ≤ off && off < 0x1_1100 && off % 0x100 = 0x28 then
      let n := (off - 0x1_0000) / 0x100
      let m := s.mxu n
      w64 (2 ^ 52 * s.parkedAt n + 2 ^ 51 * b2n m.prifail + 2 ^ 50 * b2n m.full +
        (if n = 16 then 2 ^ 32 * (s.preqs.filter (fun q => !q.answered)).length else s.freeSlots n))
    else if 0x1_3000 ≤ off && off < 0x1_3810 && off % 16 = 8 then
      w64 (s.usedOf ((off - 0x1_3000) / 16) + 2 ^ 32 * s.pinnedOf ((off - 0x1_3000) / 16))
    else if 0x1_4000 ≤ off && off < 0x1_4800 then
      let w := s.world ((off - 0x1_4000) / 16)
      if off % 16 = 0 then (if w.st = .isOpen then 0 else 1)
      else w64 (w.st.code + 2 ^ 8 * w.moslot + 2 ^ 16 * w.doslot + 2 ^ 24 * b2n w.mokey + 2 ^ 25 * b2n w.dokey + 2 ^ 26 * b2n w.refused)
    else if 0x1_6000 ≤ off && off < 0x1_6180 then
      let p := s.port ((off - 0x1_6000) / 0x20)
      match off % 0x20 with
      | 0 => w64 (p.st.code + 2 ^ 8 * p.width + 2 ^ 16 * p.spared + 2 ^ 32 * p.replays)
      | 8 => boolW p.en
      | _ => 0
    else if off = 0x1_7010 then w64 (fld (s.reg skfstat) 0 3 + 2 ^ 32 * s.orphans)
    else if off = 0x3_8000 then w64 (b2n s.dbg.isOpen + 4 * b2n s.dbg.isLocal + 8 * b2n s.dbg.skip + 2 ^ 32 * s.dbg.ctxid)
    else if off = 0x3_8008 then s.dbg.word
    else if off = 0x3_8010 then s.dbg.seen.addr
    else if off = 0x3_8028 then w64 s.dbg.seen.vtime
    else if off = 0x3_8030 then s.dbg.seen.entry
    else if 0x3_8040 ≤ off && off < 0x3_80C0 then
      let q := s.comp s.dbgCore ((off - 0x3_8040) / 16)
      if off % 16 = 0 then q.addr else q.cfg
    else if 0x4_0000 ≤ off && off < 0xD_0000 then s.readout (off - 0x4_0000)
    else if 0xD_4000 ≤ off && off < 0xD_C000 && off % 0x20 = 0x18 then
      let a := SMap.get Account.zero s.accounts ((off - 0xD_4000) / 0x20)
      w64 (a.bal + 2 ^ 32 * a.debt)
    else s.reg k
  else if bar = 2 && 0x1000 ≤ off && off < 0x1000 + 0x40 * lqCount fn && off % 0x40 = 0x20 then
    let n := (off - 0x1000) / 0x40
    let w := s.reg (lqReg fn n 0x20)
    if s.lqState fn n = 1 then w
    else setFld w 16 16 ((s.reg (lqReg fn n 0x10)).toNat + 2 ^ 32 - (s.reg (lqReg fn n 0x18)).toNat)
  else s.reg k

end Sys2Proof.Machine
end

