-- ==== Sys2Proof/Machine/Switch.lean ====
section
/-! DEFINITION. Traps, ERET and WFE as instructions, pre-emption, the save and the restore of a binding, and Apex's bind
records (chapter 06, R163-R165). -/
namespace Sys2Proof.Machine

/-! ## TRAP, ERET, WFE, and words that nothing assigns (R78, R148-R150) -/

/-- TRAP (R148). -/
def execTrap (a : Reg) (s : State) : Result :=
  run (.trap a) s (fun f => s.exact f 4 cSwtrap (s.rd f a.toNat))

/-- Whether the log of outside inputs has no room for a trap message of an asynchronous cause that the handler is to send (R441). -/
def State.trapLogFull (s : State) (c : Nat) : Bool :=
  (s.core c).tmsg.any (·.2) && !s.logRoom (ctxFn (s.ctxOf c)) 64

/-- ERET (R149): it waits for the save or restore, and for room in the log, then leaves the handler. -/
def execEret (s : State) : Result :=
  run .eret s (fun f =>
    if !(s.inHandler f) then s.exact f 4 cIllegal (encodeWord .eret)
    else if (s.core f.core).sbusy || s.trapLogFull f.core then s
    else s.eretGo f.core)

/-- WFE (R150): it waits for the latch and clears it. -/
def execWfe (s : State) : Result :=
  run .wfe s (fun f =>
    if (s.cur f.core).wfe then (s.modCur f.core (fun b => { b with wfe := false })).retire f 4 else s)

/-- A word that nothing assigns (R78): ILLEGAL, with TVAL the word. -/
def execUnassignedEncoding (w : BitVec 32) (s : State) : Result :=
  run (.unassignedEncoding w) s (fun f => s.exact f (instrLen (.unassignedEncoding w)) cIllegal (zext w))

/-- ASYNC_TRAP_TAKE (R90, R140). -/
def execAsyncTrapTake (core : Nat) (s : State) : Result := device s (if s.canTake core then s.takeNow core else s)

/-! ## The save (R122-R129) -/

/-- Whether a micro-thread has still to reach its boundary (R122, R244): its atomic has performed and its value is to come, or
its vector store has begun and can go on. A full journal is a boundary (R290). -/
def State.unitBusy (s : State) (c n : Nat) : Bool :=
  s.midway c n && (s.committedBy ⟨c, n + 1⟩ || (s.cur c).freeEntry.isSome)

/-- Every micro-thread stops at its boundary: what it waits for is abandoned and issues again at resume (R122). -/
def State.stopUnits (s : State) (c : Nat) : State :=
  (List.range 16).foldl (fun (t : State) n => if t.unitBusy c n then t else t.toBoundary ⟨c, n + 1⟩) s

/-- TSTAT_SAVE (R122): the save engine stops the micro-threads once the handler has commanded a save. -/
def execTstatSave (core : Nat) (s : State) : Result :=
  device s (if (s.core core).sbusy && (s.core core).saving && (s.core core).ctx.isSome then s.stopUnits core else s)

/-- The engine writes of a command that have left. -/
def State.cmdWrites (s : State) (c thr id : Nat) : List Acc :=
  s.accs.filter (fun a => a.core = c && a.ctx = s.ctxOf c && a.thr = thr && a.off = id && a.kind.engineWrite)

/-- Whether an engine of the core still waits for a write that no MXU has parked (R125, R126). -/
def State.engineWrites (s : State) (c : Nat) : Bool :=
  s.accs.any (fun a => a.core = c && a.ctx = s.ctxOf c && (a.thr = thrMatrix || a.thr = thrCopy) && a.kind.engineWrite &&
    !a.st.settled && a.st ≠ .parked && a.st ≠ .parkWait)

/-- Whether every write of a command's row or granule has performed, and there is one. -/
def State.writesDone (s : State) (c thr id : Nat) : Bool :=
  let l := s.cmdWrites c thr id
  !l.isEmpty && l.all (fun a => a.st.settled)

/-- The engines stop (R125, R126): a row or granule whose writes have performed counts; any other begins again; an MLDB that
has not finished is queued again. -/
def State.stopEngines (s : State) (c : Nat) : State :=
  let s1 := (s.cur c).copies.foldl (fun (t : State) k =>
    if k.st = .running && t.writesDone c thrCopy k.seq then (t.copyGranule c k).1 else t) s
  let s2 := (s.cur c).cmds.foldl (fun (t : State) k =>
    if k.st = .running && t.writesDone c thrMatrix k.seq then (if k.isProduct then t.productRow c k else t.drainStep c k).1 else t) s1
  let gone := (s2.accs.filter (fun a => a.core = c && a.ctx = s2.ctxOf c && (a.thr = thrMatrix || a.thr = thrCopy))).map (·.id)
  ({ s2 with accs := s2.accs.filter (fun a => !gone.contains a.id), parks := s2.parks.filter (fun p => !gone.contains p.acc) } : State).modCur c (fun b =>
    let loads := b.cmds.filter (fun k => k.op = 0 && k.st = .running && !k.fwd && !k.stop)
    let b1 := loads.foldl (fun (b : Bind) k => b.setCim k.mac ((b.cim k.mac).setShadow Half.zero)) b
    { b1 with cmds := b1.cmds.map (fun k => if k.op = 0 && k.st = .running && !k.fwd && !k.stop then { k with st := .queued } else k) })

/-- A save or restore has failed (R115, R121, R143): SERR, the binding is abandoned, and the context becomes FAULTED. -/
def State.saveError (s : State) (c : Nat) : State :=
  match (s.core c).ctx with
  | some n => (((s.abandon c).modCore c (fun k => { k with serr := true })).faultCtx n 0 3)
  | none => s

/-- What the save area's header adds to a binding (R121), with the undelivered messages in the message buffer (R128). DESIGN CHOICE
(log 116): the buffer keeps them all, also when they and those buffered already exceed its slots. -/
def State.header (s : State) (c : Nat) (b : Bind) : Bind :=
  let k := s.core c
  { b with
    tepc := k.tepc, savedLen := k.trapLen, savedBank := k.bankcfg, savedAt := s.ptime
    msgBuf := b.msgBuf ++ b.inbox.filter (fun h => !h.delivered), inbox := b.inbox.filter (·.delivered)
    paired :=
      let p := s.pairOf c
      if p.mode = .off && p.interval = 0 && p.tiebrk = 0 && p.rollb = 0 then none
      else some ⟨p.mode ≠ .off, p.partner, p.byInstr, p.interval, p.tiebrk, p.rollb⟩ }

/-- SAVE_COMPLETE (R116, R122-R129, R143): every unit has stopped and the save area is written, or the save has failed. -/
def execSaveComplete (core : Nat) (ok : Bool) (s : State) : Result :=
  device s (
    let k := s.core core
    match k.ctx with
    | none => s
    | some n =>
      if !(k.sbusy && k.saving) then s
      else if !ok then s.saveError core
      else if (List.range 16).any (fun m => s.unitBusy core m) then s
      else
        let s1 := s.stopUnits core
        if s1.engineWrites core then s1
        else
          let s2 := (s1.stopEngines core).stopTiles core
          let s3 := s2.modCur core (fun _ => s2.header core (s2.shown core))
          let s4 := { s3 with areas := SMap.put s3.areas (bindKey n core) (s3.cur core) }
          (((s4.freeSpare core).clearArea n core true).modCore core (fun k => { k with sbusy := false, pair := PairSt.none })).latch core)

/-! ## The restore (R116, R121, R124, R128) -/

/-- An entry of the journal with the translation of its virtual address (R290, R324); where there is none, its store is refused (R294). -/
def State.translateEntry (s : State) (n : Nat) (e : JEntry) : JEntry :=
  match s.walk n e.va.toNat with
  | .hit x => { e with la := x.la, attr := x.attr, node := x.node }
  | _ => { e with st := .refused, reason := 1 }

/-- What the restore engine takes from a save area over what it holds (R119, R292): the handler's bytes, and the translation of each
journal entry that they have made or moved. -/
def State.taken (s : State) (n c : Nat) (b : Bind) : Bind :=
  let x := s.absorbed n c b
  { x with journal := x.journal.map (fun p =>
      let old := b.entry p.1
      (p.1, if p.2.st = .held && (old.st = .free || old.va ≠ p.2.va) then s.translateEntry n p.2 else p.2)) }

/-- TSTAT_RESTORE (R121, R143): a restore that the handler has commanded finds the save area of the binding, or no area of
the right magic. -/
def execTstatRestore (core : Nat) (s : State) : Result :=
  device s (
    let k := s.core core
    match k.ctx with
    | none => s
    | some n =>
      if !(k.sbusy && !k.saving && k.hmode && (s.bind n core).st ≠ .restoring) then s
      else
        match SMap.find? s.areas (bindKey n core) with
        | some a =>
          if !s.headerOk n core a then s.saveError core
          else
            let x := s.taken n core ((s.bind n core).loadArea a)
            let s1 := s.setBind n core { x with st := .restoring, cims := x.cims.map (fun p => (p.1, p.2.reload)) }
            ({ s1 with areas := SMap.put s1.areas (bindKey n core) x } : State).clearArea n core false
        | none => s.saveError core)

/-- GMEM of a core of a context (R208): its nonzero groups, ascending, from slot 0 upward. -/
def Ctx.gmem (k : Ctx) (c : Nat) : Word :=
  let gs := ((k.groups.filter (fun p => p.1 ≠ 0 && p.2.members.contains c)).map (·.1)).take 4
  w64 (((List.range gs.length).map (fun n => gs.getD n 0 * 2 ^ (8 * n))).sum + 2 ^ 32 * (2 ^ gs.length - 1))

/-- The registers that a restore writes (R117, R144, R208, R287, R369, R382). -/
def State.loadRecord (s : State) (n c : Nat) : State :=
  let k := s.ctx n
  s.modCore c (fun q =>
    { q with
      hpol := k.hpol &&& 7, kclass := kclassWord 0 k.kclass, lease := leaseWord k.lease, parkto := k.parkto &&& 0x8000_0000_FFFF_FFFF
      fpint := fpintWord k.fpint, gmem := k.gmem c, ctxid := ctxidWord (w64 n), savebase := w64 (areaBase n c) })

/-- The command number under which the load port reads half h of macro m again. -/
def reloadId (m h : Nat) : Nat := 2 * m + h

/-- The key slots that a reload deciphers the rows of a half with (R124): the descriptor's, for each row whose page is MO
ciphertext. -/
def State.reloadKeys (s : State) (c : Nat) (x : Half) : List (Nat × Nat) :=
  (s.rowKeys c x).map (fun k => (if k.1 = 0xFF then 0xFF else x.slot, k.2))

/-- Read one half again (R124): a failure of its permissions, its range or its key leaves it invalid, and FRAME poisoned too
(R354). -/
def State.reloadHalf (s : State) (c m h : Nat) : State :=
  let x := ((s.cur c).cim m).half h
  let put := fun (t : State) (y : Half) => (t.dropEngine c thrReload (reloadId m h)).modCur c (fun b =>
    b.setCim m ((b.cim m).setHalf h { y with ready := x.ready, loading := false }))
  if !x.loading then s
  else if x.slot ≠ 0xFF && !s.keyHeld x.slot then put s { x with invalid := true }
  else
    match s.engineRead c thrReload (reloadId m h) (s.effClass c) rRead
        ((List.range x.kk).map (fun r => ((x.va + w64 r * x.stride).toNat, 16 * x.pb))) with
    | .wait t => t
    | .fail _ _ => put s { x with invalid := true }
    | .ok bs poison frames =>
      let y := s.halfFrom (s.reloadKeys c x) x bs (poison || !frames.isEmpty)
      put (s.engineFrames c frames) { y with invalid := !frames.isEmpty, slot := x.slot }

/-- Read every half again that still has to be. -/
def State.reloadAll (s : State) (c : Nat) : State :=
  (List.range 8).foldl (fun (t : State) k => t.reloadHalf c (k / 2) (k % 2)) s

/-- Whether a half has still to be read again. -/
def Bind.reloading (b : Bind) : Bool := b.cims.any (fun p => p.2.h0.loading || p.2.h1.loading)

/-- What a pair resumes with on one of its cores (R380, R386, R387), or what PAIRSTAT still counts of one that has ended. A partner's
threads are its primary's again, so its own are at rest. -/
def State.resumePair (s : State) (c : Nat) : State :=
  match (s.cur c).paired with
  | none => s
  | some p =>
    (s.modCore c (fun k => { k with pair :=
      { PairSt.none with
        mode := if p.active then .run else .off, partner := p.active && p.partner, byInstr := p.active && p.byInstr, interval := p.interval
        tiebrk := p.tiebrk, rollb := p.rollb, step := p.active
        ckpt := if p.active && !p.partner then some (s.cur c).rolled else none } })).modCur c
      (fun b => { (if p.active && p.partner then b.replica Bind.zero else b) with paired := none })

/-- What a message buffer holds beside messages comes back (R128, R211, R214): notices first, applied ahead of the saved
instruction; the rest takes its way again, ahead of what is on the Lattice. -/
def State.takeNetBuf (s : State) (n c : Nat) : State :=
  let ps := (s.bind n c).netBuf
  let isNote := fun (p : Packet) => match p.body with | .note _ => true | _ => false
  let s1 := s.modBind n c (fun b => { b with netBuf := [] })
  let s2 := ps.foldl (fun (t : State) p => match p.body with | .note m => t.takeNote n c m | _ => t) s1
  { s2 with net := ps.filter (fun p => !isNote p) ++ s2.net }

/-- The binding is BOUND (R116, R128, R149, R150): the record's registers, the notices and the messages that came meanwhile,
the latch, and the control thread at its saved TEPC. -/
def State.bound (s : State) (n c : Nat) : State :=
  let b := s.cur c
  let s1 := (s.loadRecord n c).modBind n c (fun b => { b with st := .bound, wfe := true })
  let s3 := ((s1.takeNetBuf n c).refill c b.msgBuf.length).resumePair c
  let s4 := (s3.modCore c (fun k => { k with sbusy := false, hmode := false, eact := 0 })).trace n c 7 0 (w64 (1 + 256 * b.prsn)) 0
  let s5 := if b.act.isSome then s4.resumeAt c b.tepc else s4
  if recCtx (s.slotRec c) = n && recValid (s.slotRec c) then s5
  else s5.preempt c (if (s.ctx n).st = .destroying then 3 else 0)

/-- The restore engine takes what the handler has stored into the save area of a binding that has been saved. -/
def State.readArea (s : State) (n c : Nat) : State :=
  if (SMap.find? s.areas (bindKey n c)).isNone || (s.areaStores n c).isEmpty then s
  else
    let x := s.taken n c (s.bind n c)
    (s.setBind n c { x with cims := x.cims.map (fun p => (p.1, p.2.reload)) }).clearArea n c false

/-- The save area of a bound binding stands as the restore found it. -/
def State.keepArea (s : State) (n c : Nat) : State :=
  if (SMap.find? s.areas (bindKey n c)).isSome then { s with areas := SMap.put s.areas (bindKey n c) (s.bind n c) } else s

/-- RESTORE_COMPLETE (R116, R121, R124): the header is checked, what the handler has stored is taken, and the macros are read again
first; a wrong magic value, version or CTXID sets SERR. -/
def execRestoreComplete (core : Nat) (ok : Bool) (s : State) : Result :=
  device s (
    let k := s.core core
    match k.ctx with
    | none => s
    | some n =>
      if !(k.sbusy && !k.saving && (s.bind n core).st = .restoring) then s
      else if !(ok && s.headerOk n core (s.bind n core)) then s.saveError core
      else
        let s1 := (s.readArea n core).reloadAll core
        if (s1.cur core).reloading then s1 else (s1.keepArea n core).bound n core)

/-! ## PARKTO (R141) -/

/-- Whether a park has lasted longer than its core's PARKTO, less the time of freezes (R141, R426). -/
def State.expired (s : State) (c : Nat) (p : Park) : Bool :=
  p.saddr = c && p.ctx = s.ctxOf c && p.kind ≠ 8 && fld (s.core c).parkto 0 32 < s.ptime - p.since - p.lost

/-- The wake entry of a park (R141). -/
def State.wakeOf (s : State) (p : Park) : Wake :=
  { mxu := p.mxu, seq := p.seq, ctx := p.ctx, core := p.saddr, acc := p.acc
    page := if p.pri then (match s.acc? p.acc with | some a => s.pageOf a | none => 0) else 0
    store := p.kind = 1 }

/-- PARKTO_EXPIRY (R141): PREEMPT with reason 1, and a wake entry for every parked access of the binding. -/
def execParktoExpiry (core : Nat) (s : State) : Result :=
  device s (
    let n := s.ctxOf core
    if (s.core core).ctx.isSome && (s.cur core).st = .bound && bit (s.core core).parkto 63 && !s.stopped core &&
        s.parks.any (fun p => s.expired core p) then
      let ws := (s.parks.filter (fun p => p.saddr = core && p.ctx = n && p.kind ≠ 8)).map s.wakeOf
      ({ s with wakes := s.wakes ++ ws } : State).preempt core 1
    else s)

/-! ## Apex: bind records (R163-R165) -/

/-- A bind record with its reserved bits zero (R163). -/
def recMask (r : BitVec 128) : BitVec 128 :=
  BitVec.ofNat 128 (fld r 0 33 + 2 ^ 56 * fld r 56 14 + 2 ^ 80 * fld r 80 16)

/-- Write one bind record: a change of CTXID or VALID pre-empts, and binds where the core is free (R164). -/
def State.putRecord (s : State) (c : Nat) (r : BitVec 128) : State :=
  let old := s.slotRec c
  let s1 := { s with slotTab := SMap.set 0 s.slotTab c r }
  if recCtx old = recCtx r && recValid old = recValid r then s1.beginRestore c
  else (s1.preempt c 0).beginRestore c

/-- Write a core's bind record, and its partner's with it (R164, R379). -/
def State.writeRecord (s : State) (c : Nat) (r : BitVec 128) : State :=
  let old := s.slotRec c
  let mine := fun (q : BitVec 128) => recValid q && (s.ctx (recCtx q)).partners.contains (c + 1)
  let s1 := s.putRecord c r
  if mine r then s1.putRecord (c + 1) r
  else if mine old && recCtx (s.slotRec (c + 1)) = recCtx old then s1.putRecord (c + 1) (clrBit (s.slotRec (c + 1)) 32)
  else s1

/-- Whether Apex may write a record (R115, R141, R168, R426, R427): no freeze, and a context that may be bound there, or one
that stays. -/
def State.recordOk (s : State) (c : Nat) (r : BitVec 128) : Bool :=
  let n := recCtx r
  c < 1984 && !s.halted && !s.stopped c &&
    (!recValid r || (s.core c).ctx = some n || ((s.ctx n).cores.contains c && s.bindable n c (recAccount r)))

/-- SLOT_TABLE_WRITE (R164). -/
def execSlotTableWrite (core : Nat) (rec : BitVec 128) (s : State) : Result :=
  device s (if s.recordOk core (recMask rec) then s.writeRecord core (recMask rec) else s)

/-- Whether a context has something to do on a core (R165): a suspended activation, or a message for a resident actor. -/
def State.hasWork (s : State) (n c : Nat) : Bool :=
  let b := s.bind n c
  b.act.isSome || (b.inbox ++ b.msgBuf).any (fun h => (b.slot h.msg.dslot).st ≠ .empty)

/-- The held minimum of a binding that is SAVING or OUT (R131). -/
def State.heldMin (s : State) (n c : Nat) : Option Nat :=
  let b := s.bind n c
  if b.st = .saving || b.st = .out then minStamp (s.stampsOf n c) else none

/-- Whether FLOOR waits for a binding of the core that is out (R131, R165 step 1). -/
def State.holdsFloor (s : State) (least : Option Nat) (n c : Nat) : Bool :=
  least.isSome && s.heldMin n c = least

/-- The order in which Apex prefers contexts (R165): PRIO, then the fewest tokens used by the account, then INDEX. -/
def State.prefers (s : State) (x y : Nat) : Bool :=
  let p := fun (n : Nat) => (s.ctx n).prio
  let u := fun (n : Nat) => (s.account (s.ctx n).account).used
  let i := fun (n : Nat) => n % 2 ^ 24
  p y < p x || (p x = p y && (u x < u y || (u x = u y && (i x < i y || (i x = i y && x < y)))))

/-- The context that Apex's policy puts on a core, where it changes anything (R165). `least` is the least report of the
device. -/
def State.apexChoice (s : State) (least : Option Nat) (c : Nat) : Option Nat :=
  let cs := (s.ctxs.map (·.1)).filter (fun n => (s.ctx n).cores.contains c && s.bindable n c (s.ctx n).account)
  match (cs.filter (fun n => s.holdsFloor least n c)).head? with
  | some n => some n
  | none =>
    match leastBy s.prefers (cs.filter (fun n => s.hasWork n c && (s.core c).ctx ≠ some n)) with
    | none => none
    | some n =>
      match (s.core c).ctx with
      | some m => if s.hasWork m c && (s.ctx n).prio ≤ (s.ctx m).prio then none else some n
      | none => some n

/-- The bind record that Apex writes for a context: every slot may fire. -/
def State.recordFor (s : State) (n : Nat) : BitVec 128 :=
  recMask (BitVec.ofNat 128 (n % 2 ^ 32 + 2 ^ 32 + 2 ^ 56 * ((s.ctx n).prio % 16) + 2 ^ 60 * ((s.ctx n).account % 1024) + 2 ^ 80 * 0xFFFF))

end Sys2Proof.Machine
end

