-- ==== Sys2Proof/Machine/LaunchQueue.lean ====
section
/-! DEFINITION. Launch queues: their registers' own steps, the acceptance of entries, and completions (R151-R162). -/
namespace Sys2Proof.Machine

/-! ## The device's own reads and writes of a function's root space -/

/-- What the device finds: it must wait for a frame, the range cannot be reached, or every byte is at hand. -/
inductive DevIo where
  | wait (s : State)
  | bad
  | ok
  deriving DecidableEq, Repr

/-- The access of a queue or command for one page; `data` for a write. -/
def State.devAcc (s : State) (fn tag : Nat) (data : Option (List Byte)) (va n : Nat) (x : Xlat) : Acc :=
  { id := s.nextAcc, core := 2046, ctx := rootCtx fn, thr := thrQueue, kind := .engine data false, st := .flying, va := w64 va
    la := x.la, size := n, off := tag, attr := x.attr, node := x.node, eff := 2, arr := 0, key := 0, pa := 0, ordinal := 0 }

/-- One page of a range: at hand, to be waited for, to be asked for, or out of reach (R155: ACCESS, poison, FRAME). -/
def State.devPage (s : State) (fn tag : Nat) (data : Option (List Byte)) (p : Nat × Nat) : Piece :=
  match s.walk (rootCtx fn) p.1 with
  | .hit x =>
    let a := s.devAcc fn tag data p.1 p.2 x
    if !bit x.rights (if data.isSome then rWrite else rRead) || (s.refusal a).isSome || !s.mappedVa (rootCtx fn) p.1 p.2 then .bad stAccess
    else if s.misses a then
      match s.accs.find? (fun q => q.thr = thrQueue && q.off = tag && q.va = w64 p.1) with
      | some q => (match q.st with | .valued _ _ true => .bad stFrame | .refused _ => .bad stAccess | _ => .away)
      | none => .ask x
    else if data.isNone && s.poisoned x.la p.2 then .bad stPoison
    else .here [] false false
  | _ => .bad stAccess

/-- The bytes of a write that fall on one page. -/
def pageData (w : Option (Nat × List Byte)) (p : Nat × Nat) : Option (List Byte) :=
  w.map (fun q => (q.2.drop (p.1 - q.1)).take p.2)

/-- Reach every page of some ranges; `w` gives the bytes of a write. -/
def State.devIo (s : State) (fn tag : Nat) (w : Option (Nat × List Byte)) (rs : List (Nat × Nat)) : DevIo :=
  let ps := rs.flatMap (fun r => pieces 4096 r.1 r.2)
  let l := ps.map (fun p => (p, s.devPage fn tag (pageData w p) p))
  if l.any (fun q => match q.2 with | .bad _ => true | _ => false) then .bad
  else if l.any (fun q => match q.2 with | .ask _ => true | _ => false) then
    .wait (l.foldl (fun (t : State) q =>
      match q.2 with
      | .ask x => { t with accs := t.accs ++ [t.devAcc fn tag (pageData w q.1) q.1.1 q.1.2 x], nextAcc := t.nextAcc + 1 }
      | _ => t) s)
  else if l.any (fun q => q.2 = .away) then .wait s
  else .ok

/-- Forget the accesses of a queue or command. -/
def State.dropDev (s : State) (tag : Nat) : State :=
  let gone := (s.accs.filter (fun a => a.thr = thrQueue && a.off = tag)).map (·.id)
  { s with accs := s.accs.filter (fun a => !gone.contains a.id), parks := s.parks.filter (fun p => !gone.contains p.acc) }

/-- The tags of a queue's entry read, of the completion of an entry that it rejects, and of a command's accesses. -/
def queueTag (fn n : Nat) : Nat := fn * 32 + n
def rejectTag (fn n : Nat) : Nat := 2 ^ 16 + queueTag fn n
def cmdTag (seq : Nat) : Nat := 2 ^ 20 + seq

/-! ## A queue's registers (R152-R156) -/

/-- A queue that the function owns (R151). -/
def queueExists (fn n : Nat) : Bool := fn ≤ 128 && n < lqCount fn

def State.lqSize (s : State) (fn n : Nat) : Nat := 2 ^ fld (s.reg (lqReg fn n 8)) 16 4
def State.lqTail (s : State) (fn n : Nat) : Nat := fld (s.reg (lqReg fn n 0x10)) 0 32
def State.lqProg (s : State) (fn n : Nat) : Nat := fld (s.reg (lqReg fn n 0x18)) 0 32
def State.lqPend (s : State) (fn n : Nat) : Nat := (s.lqTail fn n + 2 ^ 32 - s.lqProg fn n) % 2 ^ 32
def State.setLqState (s : State) (fn n v : Nat) : State := s.setRegFld (lqReg fn n 0x20) 0 3 v

/-- LQ_ENABLE (R155): EN written 1. A queue that cannot be enabled keeps EN at 0 (log 100). -/
def execLqEnable (fn n : Nat) (s : State) : Result :=
  device s (
    if !queueExists fn n || s.lqState fn n ≠ 0 then s
    else
      let sz := fld (s.reg (lqReg fn n 8)) 16 4
      if sz < 4 || 12 < sz || (s.laOf (rootCtx fn) (s.reg (lqReg fn n 0)).toNat).isNone then s.setRegFld (lqReg fn n 0x20) 9 1 1
      else
        let s1 := ((s.setReg (lqReg fn n 0x18) (w64 (s.lqTail fn n))).setRegFld (lqReg fn n 8) 0 1 1).setLqState fn n 1
        { s1.setRegFld (lqReg fn n 0x20) 16 16 0 with lqs := SMap.put s1.lqs (queueTag fn n) ⟨s.ptime⟩ })

/-- LQ_DISABLE (R155): EN written 0; entries not yet accepted are dropped, and FERR falls (log 100). -/
def execLqDisable (fn n : Nat) (s : State) : Result :=
  device s (
    if !queueExists fn n || s.lqState fn n = 0 then s
    else
      ((((s.dropDev (queueTag fn n)).dropDev (rejectTag fn n)).setRegFld (lqReg fn n 8) 0 1 0).setRegFld (lqReg fn n 0x20) 10 1 0).setLqState fn n 0)

/-- LQTAIL_WRITE (R154, R156): a tail that runs ahead of the ring or behind itself is refused with TERR. -/
def execLqtailWrite (fn n : Nat) (v : BitVec 32) (s : State) : Result :=
  device s (
    if !queueExists fn n then s
    else if tailOk v.toNat (s.lqProg fn n) (s.lqTail fn n) (s.lqSize fn n) then s.setReg (lqReg fn n 0x10) (zext v)
    else s.setRegFld (lqReg fn n 0x20) 8 1 1)

/-- The queues in a state: function and number. -/
def State.queuesIn (s : State) (st : Nat) : List (Nat × Nat) :=
  (List.range 129).flatMap (fun fn => ((List.range (lqCount fn)).filter (fun n => s.lqState fn n = st)).map (fun n => (fn, n)))

/-- A queue becomes resident (R151, R155). -/
def State.switchIn (s : State) (fn n : Nat) : State :=
  if queueExists fn n && s.lqState fn n = 1 && s.lqPend fn n ≠ 0 && (s.queuesIn 2).length < 128 then s.setLqState fn n 2 else s

/-- QUEUE_SWITCH_IN (R155). -/
def execQueueSwitchIn (fn n : Nat) (s : State) : Result := device s (s.switchIn fn n)

/-- QUEUE_SWITCH_OUT (R155, R156): at the snapshot point PEND is saved; not while an entry is being accepted. -/
def execQueueSwitchOut (fn n : Nat) (s : State) : Result :=
  device s (
    if !queueExists fn n || s.lqState fn n ≠ 2 || s.accs.any (fun a => a.thr = thrQueue && (a.off = queueTag fn n || a.off = rejectTag fn n)) then s
    else
      let s1 := (s.setRegFld (lqReg fn n 0x20) 16 16 (s.lqPend fn n)).setLqState fn n 1
      { s1 with lqs := SMap.put s1.lqs (queueTag fn n) ⟨s.ptime⟩ })

/-- The order in which Apex switches queues in (R165): the owner's highest context PRIO, then the longest time OUT. -/
def State.queueFirst (s : State) (x y : Nat × Nat) : Bool :=
  let p := fun (fn : Nat) => (s.ctxs.filter (fun q => ctxFn q.1 = fn && q.2.st = .live)).foldl (fun m q => max m q.2.prio) 0
  let o := fun (q : Nat × Nat) => ((SMap.find? s.lqs (queueTag q.1 q.2)).map (·.outSince)).getD 0
  p y.1 < p x.1 || (p x.1 = p y.1 && o x < o y)

/-- APEX_SCHEDULE (R131, R165): the policy for one core's binding, and the next queue to switch in. -/
def execApexSchedule (core : Nat) (s : State) : Result :=
  device s (
    let s1 := match leastBy s.queueFirst ((s.queuesIn 1).filter (fun q => s.lqPend q.1 q.2 ≠ 0)) with
      | some q => s.switchIn q.1 q.2
      | none => s
    match s1.apexChoice (minStamp s1.reports) core with
    | some n => if s1.recordOk core (s1.recordFor n) then s1.writeRecord core (s1.recordFor n) else s1
    | none => s1)

/-! ## Completions (R161, R162) -/

/-- The 16 bytes of a completion record (R161). -/
def completion (tag : BitVec 32) (status opc : Nat) (result : Word) : List Byte :=
  leBytes 4 tag.toNat ++ leBytes 1 status ++ leBytes 1 opc ++ [0, 0] ++ leBytes 8 result.toNat

/-- Write a completion record and raise the interrupt (R161); `none` while its frame is awaited. An address that the function's root
space does not map is one of host memory (R157; log 77). -/
def State.putCompletion (s : State) (fn n acc : Nat) (addr : Word) (irq : Bool) (bs : List Byte) : State × Bool :=
  let va := addr.toNat / 16 * 16
  let note := fun (t : State) => if irq then t.notify fn (fld (s.reg (lqReg fn n 8)) 24 8) else t
  match s.devIo fn acc (some (va, bs)) [(va, 16)] with
  | .wait t => (t, false)
  | .bad =>
    let t := s.dropDev acc
    (note (if (s.laOf (rootCtx fn) va).isNone then { t with host := putBytes t.host va bs } else t), true)
  | .ok => (note ((s.dropDev acc).writeVa (rootCtx fn) va bs), true)

/-! ## Entries (R157-R159, R392) -/

def entN (e : List Byte) (o n : Nat) : Nat := ofLe ((e.drop o).take n)

/-- Zero bytes of an entry from `lo` up to `hi`. -/
def entZero (e : List Byte) (lo hi : Nat) : Bool := ((e.drop lo).take (hi - lo)).all (· = 0)

/-- Whether a context's function has a world with compartments (R389, R390). -/
def State.closedWorld (s : State) (ctx : Nat) : Bool := !isRoot ctx && (s.world (ctxFn ctx)).st ≠ .isOpen

/-- Whether a range of a function's root space is host frames, as far as it is mapped, and is mapped at all. -/
def State.hostRange (s : State) (fn va len : Nat) : Bool :=
  let rs := s.runs (rootCtx fn) va len
  !rs.isEmpty && rs.all (fun q => q.parts.all (fun p => isHost p.2.1))

/-- The key that a MAPROOT names (R392): 1 or 2 in a world with compartments, where a range of host frames may name none; 0 in any
other. -/
def State.keyselBad (s : State) (fn : Nat) (e : List Byte) : Bool :=
  let k := entN e 0x32 1
  if s.closedWorld (entN e 8 4) then 2 < k || (k = 0 && !s.hostRange fn (entN e 0x18 8) (entN e 0x28 8)) else k ≠ 0

/-- BADCMD (R157, R161, R392): a reserved OPC or a nonzero reserved field. -/
def State.badCmd (s : State) (fn : Nat) (e : List Byte) : Bool :=
  let opc := entN e 0 1
  let fl := entN e 1 1
  !(1 ≤ opc && opc ≤ 4) || 8 ≤ fl || (nbit fl 2 && opc ≠ 1) || !entZero e 2 4 || entN e 0x10 8 % 16 ≠ 0 ||
    (match opc with
     | 1 => !entZero e 0x30 0x40
     | 2 => 0x3F < entN e 0x30 1 || !entZero e 0x33 0x34 || !entZero e 0x38 0x40 || s.keyselBad fn e
     | 3 => !entZero e 0x18 0x40
     | _ => !entZero e 0x20 0x40)

/-- A command of the journal that reclaims a context and came before `seq` (R161). -/
def State.reclaimed (s : State) (ctx seq : Nat) : Bool :=
  s.journal.any (fun p => p.2.opc = 3 && p.2.ctxid = ctx && p.2.seq < seq && !(p.2.done && p.2.status ≠ 0) && !(p.2.done && (s.ctx ctx).st = .live))

/-- Whether a command may act on a context (R161): the function's own, or any for the physical function, in a state that
the command accepts; MAPROOT also reaches a virtual function's root space (R319). -/
def State.ctxOk (s : State) (fn opc ctx seq : Nat) : Bool :=
  let k := (s.ctx ctx).st
  let st := match opc with
    | 4 => k = .live || k = .faulted
    | 3 => (k = .live || k = .faulted) && !s.reclaimed ctx seq
    | 2 => (k = .live && !s.reclaimed ctx seq) || (isVfRoot ctx && fn = 128)
    | _ => k = .live && !s.reclaimed ctx seq
  ctx < 2 ^ 32 && (fn = 128 || ctxFn ctx = fn) && st

/-- Whether a world takes the LAUNCH of a function (R390, R404): with CREATE while it is OPEN or KEYED, without CREATE only while it is OPEN. -/
def State.worldTakes (s : State) (fn : Nat) (create : Bool) (ctx : Nat) : Bool :=
  if create then fn = 128 || (s.world fn).st = .isOpen || (s.world fn).st = .keyed else !s.closedWorld ctx

/-- Whether the arguments of a LAUNCH are in range, as the entry itself shows (R159, R160): DESIGN CHOICE (log 125), a descriptor address that
is not a multiple of 64 is answered BADDESC as any other fault of the descriptor. -/
def launchArgsOk (desc len dest : Nat) : Bool := desc % 64 = 0 && len ≤ 256 && onGrid (dest % 256) (dest / 2 ^ 8 % 256)

/-- The status of an entry's checks (R158, R161): what the entry and the state show without its descriptor. -/
def State.entryStatus (s : State) (fn : Nat) (e : List Byte) : Nat :=
  let opc := entN e 0 1
  let create := nbit (entN e 1 1) 2
  if s.badCmd fn e then 1
  else if !(opc = 1 && create) && !s.ctxOk fn opc (entN e 8 8) s.jnext then 2
  else if opc = 1 && !(launchArgsOk (entN e 0x18 8) (entN e 0x24 4) (entN e 0x20 4) && s.worldTakes fn create (entN e 8 4)) then 4
  else 0

/-- The journal entry of an accepted command (R158, R162). -/
def State.newCmd (s : State) (fn n : Nat) (e : List Byte) : Cmd :=
  { seq := s.jnext, ptime := s.ptime, stamp := s.floor + 64, fn := fn, queue := n, opc := entN e 0 1, done := false, entry := s.lqProg fn n
    tag := BitVec.ofNat 32 (entN e 4 4), status := 0, ctxid := entN e 8 8, ctime := 0, result := 0, flags := entN e 1 1
    cpladdr := w64 (entN e 0x10 8), args := (e.drop 0x18).take 40, fpcfg := s.reg (fpReg fn 0), fpacct := s.reg (fpReg fn 8)
    started := false, ready := false }

/-- PROG advances (R158). -/
def State.advanceProg (s : State) (fn n : Nat) : State := s.setReg (lqReg fn n 0x18) (w64 ((s.lqProg fn n + 1) % 2 ^ 32))

/-- The journal holds the last 4096 commands, and those that have not completed (R162). -/
def State.journalPut (s : State) (c : Cmd) : State :=
  { s with
    journal := SMap.put (s.journal.filter (fun p => !(p.2.done && p.1 + 4096 ≤ c.seq))) c.seq c
    jnext := s.jnext + 1 }

/-- The 64 bytes of a command in the journal (R162). -/
def Cmd.image (c : Cmd) : List Byte :=
  leBytes 8 c.seq ++ leBytes 8 c.ptime ++ leBytes 8 c.stamp ++ leBytes 1 (if c.fn = 128 then 0x80 else c.fn) ++ leBytes 1 c.queue ++
    leBytes 1 c.opc ++ leBytes 1 (b2n c.done) ++ leBytes 4 c.entry ++ leBytes 4 c.tag.toNat ++ leBytes 1 (if c.done then c.status else 0xFF) ++
    leBytes 3 0 ++ leBytes 8 c.ctxid ++ leBytes 8 (if c.done then c.ctime else 0) ++ leBytes 8 (if c.done then c.result.toNat else 0)

/-- The entry at an index of the ring, as the physical function reads it (R162, R454): the newest command whose sequence number
falls there; any other function reads nothing. -/
def State.journalEntry (s : State) (fn k : Nat) : List Byte :=
  let e := (s.journal.filter (fun p => p.1 % 4096 = k)).getLast?
  if fn = 128 then (e.map (·.2.image)).getD (List.replicate 64 0) else List.replicate 64 0

/-- ENTRY_ACCEPT (R155, R158, R448). -/
def execEntryAccept (fn n : Nat) (s : State) : Result :=
  device s (
    if !queueExists fn n || s.lqState fn n ≠ 2 || s.lqPend fn n = 0 || s.stage ≠ 5 || s.halted then s
    else
      let va := (s.reg (lqReg fn n 0)).toNat / 4096 * 4096 + 64 * (s.lqProg fn n % s.lqSize fn n)
      match s.devIo fn (queueTag fn n) none [(va, 64)] with
      | .wait t => t
      | .bad => ((s.dropDev (queueTag fn n)).setRegFld (lqReg fn n 0x20) 10 1 1).setLqState fn n 3
      | .ok =>
        let s0 := s.dropDev (queueTag fn n)
        let e := s0.readVa (rootCtx fn) va 64
        let st := s0.entryStatus fn e
        if st = 0 then (s0.journalPut (s0.newCmd fn n e)).advanceProg fn n
        else
          let r := s0.putCompletion fn n (rejectTag fn n) (w64 (entN e 0x10 8)) (nbit (entN e 1 1) 1)
            (completion (BitVec.ofNat 32 (entN e 4 4)) st (entN e 0 1) 0)
          if r.2 then r.1.advanceProg fn n else r.1)

/-! ## Starting and completing commands (R158, R161) -/

def State.cmd? (s : State) (seq : Nat) : Option Cmd := SMap.find? s.journal seq

def State.setCmd (s : State) (c : Cmd) : State := { s with journal := SMap.put s.journal c.seq c }

/-- Whether a command may start now (R158): the earlier ones of its queue have started, or with FENCE completed. -/
def State.mayStartCmd (s : State) (c : Cmd) (opc : Nat) : Bool :=
  c.opc = opc && !c.started && !c.done &&
    s.journal.all (fun p => !(p.2.fn = c.fn && p.2.queue = c.queue && p.2.seq < c.seq) || (if nbit c.flags 0 then p.2.done else p.2.started))

/-- A command's outcome is known. -/
def State.outcome (s : State) (c : Cmd) (status : Nat) (result : Word) : State :=
  (s.dropDev (cmdTag c.seq)).setCmd { c with started := true, ready := true, status := status, result := result }

/-- Whether the trigger of a LAUNCH has still to reach its inbox (R159): it is on the Lattice, or in a message buffer. -/
def State.triggerAway (s : State) (seq : Nat) : Bool :=
  let mine := fun (m : Msg) => m.saddr = 0xFFFE && m.seq = seq && m.sslot = 0xFF
  s.net.any (fun p => match p.body with | .msg m => mine m | _ => false) || s.binds.any (fun p => p.2.msgBuf.any (fun h => mine h.msg))

/-- COMMAND_COMPLETE (R161, R162): the journal first, then the record, then the interrupt. -/
def execCommandComplete (seq : Nat) (s : State) : Result :=
  device s (
    match s.cmd? seq with
    | none => s
    | some c =>
      if c.done || !c.started || !(c.ready || (c.opc = 1 && !s.triggerAway seq)) then s
      else
        let r := s.putCompletion c.fn c.queue (cmdTag seq) c.cpladdr (nbit c.flags 1) (completion c.tag c.status c.opc c.result)
        if r.2 then r.1.setCmd { c with done := true, ready := true, ctime := s.ptime } else r.1)

/-! ## QUERY and MAPROOT (R117, R159) -/

/-- The 256 bytes of a context record (R117). -/
def Ctx.record (k : Ctx) (n : Nat) : List Byte :=
  leBytes 8 n ++ leBytes 1 k.st.code ++ leBytes 1 k.prio ++ leBytes 2 k.flags.toNat ++ leBytes 4 k.factor.toNat ++
    leBytes 8 k.hpol.toNat ++ leBytes 8 k.kclass.toNat ++ leBytes 8 k.lease.toNat ++ leBytes 8 k.parkto.toNat ++ leBytes 8 k.fpint.toNat ++
    leBytes 8 k.ebud.toNat ++ leBytes 8 k.gtable.toNat ++ leBytes 8 k.account ++ leBytes 8 k.savetab.toNat ++ leBytes 4 k.bufslots ++
    leBytes 1 k.fcause ++ leBytes 1 k.freason ++ List.replicate 162 0

/-- QUERY (R159). -/
def execQuery (seq : Nat) (s : State) : Result :=
  device s (
    match s.cmd? seq with
    | none => s
    | some c =>
      if !s.mayStartCmd c 4 then s
      else if !s.ctxOk c.fn 4 c.ctxid c.seq then s.outcome c 2 0
      else
        let k := s.ctx c.ctxid
        let va := entN c.args 0 8
        let bs := k.record c.ctxid
        match s.devIo c.fn (cmdTag seq) (some (va, bs)) [(va, 256)] with
        | .wait t => t
        | .bad => s.outcome c 4 0
        | .ok => (s.writeVa (rootCtx c.fn) va bs).outcome c 0 (w64 (k.st.code + 2 ^ 8 * k.fcause + 2 ^ 16 * k.freason)))

/-- MAPROOT (R159, R325, R392, R441): a MAP from the function's root space with the command's stamp, an outside input. -/
def execMaproot (seq : Nat) (s : State) : Result :=
  device s (
    match s.cmd? seq with
    | none => s
    | some c =>
      if !s.mayStartCmd c 2 then s
      else if !s.ctxOk c.fn 2 c.ctxid c.seq then s.outcome c 2 0
      else if s.replaying (ctxFn c.ctxid) then (s.extra (ctxFn c.ctxid)).outcome c 0 0
      else if !s.logRoom (ctxFn c.ctxid) 40 then s
      else
        let m := mkMsg c.stamp s.ptime seq 0xFFFE 0xFF 1 0 0 0 c.args
        let s1 := (s.logInput c.ctxid (mapRootMark + c.fn) m).setCmd { c with started := true }
        s1.holdReq (s.mapRootReq c.fn c.ctxid c.stamp seq c.args))

end Sys2Proof.Machine
end

