-- ==== Sys2Proof/Machine/Launch.lean ====
section
/-! DEFINITION. LAUNCH and RECLAIM, and the end of a context that is destroyed (R115, R159-R161, R174-R176, R203-R206,
R379, R397, R404). -/
namespace Sys2Proof.Machine

/-! ## The launch descriptor (R160) -/

/-- A fault actor of a descriptor or none (R117). -/
def faultActorOk (w : Nat) : Bool := w = 0xFFFF_FFFF || (onGrid (w % 256) (w / 256 % 256) && w / 2 ^ 22 = 0)

/-- The fields of a descriptor that a LAUNCH with CREATE reads, within their ranges and the function's policy (R160, R170).
Reserved bits of its register values are accepted and read as zero once the registers hold them (log 101). -/
def Cmd.descOk (c : Cmd) (d : List Byte) : Bool :=
  let a := entN d 0x40 4
  entN d 0 1 ≤ fld c.fpcfg 12 4 && entN d 1 1 ≤ 1 && entZero d 2 4 && faultActorOk (entN d 4 4) && a ≤ 1023 &&
    fld c.fpacct 0 10 ≤ a && a ≤ fld c.fpacct 32 10 && 16 ≤ entN d 0x44 4 && entN d 0x44 4 ≤ 65535 && entZero d 0x4C 0x50 &&
    entN d 0x38 8 % 4096 = 0

/-- The number of actor entries of a descriptor, and whether it is in range (R160). -/
def actorCount (d : List Byte) : Nat := entN d 0x48 4
def countOk (d : List Byte) : Bool := 1 ≤ actorCount d && actorCount d ≤ 31744

/-! ## The actor list (R160, R175, R176) -/

/-- An actor of a list: its core, its slot and its descriptor. -/
structure Actor where
  core : Nat
  slot : Nat
  desc : Desc
  deriving DecidableEq, Repr

/-- The actor that an entry of 72 bytes gives. -/
def actorOf (e : List Byte) : Actor :=
  { core := coreAddr (entN e 0 1) (entN e 1 1), slot := entN e 2 1
    desc := { entry := w64 (entN e 8 8), flags := BitVec.ofNat 8 (entN e 0x10 1), lookahead := entN e 0x12 2
              incnt := BitVec.ofNat 32 (entN e 0x14 4), outcnt := BitVec.ofNat 32 (entN e 0x18 4) } }

/-- The fields of an entry (R176), but for the save area. -/
def actorFieldsOk (e : List Byte) : Bool :=
  onGrid (entN e 0 1) (entN e 1 1) && entN e 2 1 ≤ 15 && entZero e 3 8 && entN e 8 8 % 2 = 0 && entZero e 0x11 0x12 &&
    entN e 0x12 2 ≠ 0 && entN e 0x14 4 ≠ 0 &&
    entN e 0x18 1 + entN e 0x19 1 + entN e 0x1A 1 + entN e 0x1B 1 ≤ 64 && entZero e 0x1C 0x48

/-- The entries of a list. -/
def entriesOf (n : Nat) (bs : List Byte) : List (List Byte) := (List.range n).map (fun k => (bs.drop (72 * k)).take 72)

/-! ## The group table (R203-R206) -/

/-- The members of an entry (R204). -/
def groupMembers (e : List Byte) : List Nat :=
  (List.range 1984).filter (fun c => nbit (entN e (c / 8) 1) (c % 8))

/-- The cores of a torus (R206). -/
def torusCores (e : List Byte) : List Nat :=
  (List.range 1984).filter (fun c => entN e 0xFD 1 ≤ c % 64 && c % 64 < entN e 0xFD 1 + entN e 0xFB 1 &&
    entN e 0xFE 1 ≤ c / 64 && c / 64 < entN e 0xFE 1 + entN e 0xFC 1)

/-- The torus fields of a valid entry (R204, R206). -/
def torusOk (e : List Byte) : Bool :=
  if nbit (entN e 0xF8 1) 1 then
    1 ≤ entN e 0xFB 1 && 1 ≤ entN e 0xFC 1 && entN e 0xFD 1 + entN e 0xFB 1 ≤ 64 && entN e 0xFE 1 + entN e 0xFC 1 ≤ 31 &&
      groupMembers e = torusCores e
  else entZero e 0xFB 0xFF

/-- A valid entry, or one that holds nothing (R206). -/
def groupEntryOk (g : Nat) (e : List Byte) : Bool :=
  if g = 0 || !nbit (entN e 0xF8 1) 0 then e.all (· = 0)
  else
    let m := groupMembers e
    !m.isEmpty && onGrid (entN e 0xF9 1) (entN e 0xFA 1) && m.contains (coreAddr (entN e 0xF9 1) (entN e 0xFA 1)) &&
      entN e 0xF8 1 ≤ 3 && entZero e 0xFF 0x100 && torusOk e

/-- The group that a valid entry gives. -/
def groupOf (e : List Byte) : Group :=
  { members := groupMembers e, root := coreAddr (entN e 0xF9 1) (entN e 0xFA 1), torus := nbit (entN e 0xF8 1) 1
    tw := entN e 0xFB 1, th := entN e 0xFC 1, tox := entN e 0xFD 1, toy := entN e 0xFE 1 }

/-- The entry of a group in a table. -/
def groupEntry (bs : List Byte) (g : Nat) : List Byte := (bs.drop (256 * g)).take 256

/-- The nonzero groups of a table (R204). -/
def groupsOf (bs : List Byte) : SMap Group :=
  ((List.range 256).filter (fun g => nbit (entN (groupEntry bs g) 0xF8 1) 0)).map (fun g => (g, groupOf (groupEntry bs g)))

/-- Whether a group table may be taken (R206). -/
def groupTableOk (bs : List Byte) : Bool :=
  (List.range 256).all (fun g => groupEntryOk g (groupEntry bs g)) &&
    (List.range 1984).all (fun c => ((groupsOf bs).filter (fun p => p.2.members.contains c)).length ≤ 4)

/-- The cores of a context, ascending (R205). -/
def contextCores (l : List Actor) (gs : SMap Group) : List Nat :=
  (List.range 1984).filter (fun c => l.any (fun a => a.core = c) || gs.any (fun p => p.2.members.contains c))

/-! ## Pairs (R379) -/

/-- Whether a descriptor is of class PAIRED. -/
def Desc.paired (d : Desc) : Bool := d.cls = 3

/-- The actors that a context holds already on its cores. -/
def State.actorsOf (s : State) (n : Nat) : List Actor :=
  (s.ctx n).cores.flatMap (fun c => (s.bind n c).slots.filterMap (fun p => if p.2.st = .empty then none else some ⟨c, p.1, p.2.desc⟩))

/-- Whether a list keeps the rules of pairs beside the actors `old` (R379): `pairen` is the context's KCLASS.PAIREN. -/
def pairsOk (old new : List Actor) (pairen : Bool) : Bool :=
  let l := old ++ new
  new.all (fun a => !a.desc.paired || a.core % 2 = 0) &&
    l.all (fun a => a.core % 2 = 1 || !(a.desc.paired || pairen) || !l.any (fun b => b.core = a.core + 1))

/-- The partners of a context's cores (R379). -/
def partnersOf (l : List Actor) (pairen : Bool) : List Nat :=
  (List.range 1984).filter (fun c => c % 2 = 1 && l.any (fun a => a.core + 1 = c && (a.desc.paired || pairen)))

/-! ## The confidential extension (R397) -/

/-- The entry of a gate table, and whether it keeps its limits (R397). -/
def gateOf (e : List Byte) : GateEnt := { base := w64 (entN e 0 8), len := entN e 8 4, kinds := entN e 0xC 1, other := entN e 0xD 1 }

def gateOk (comp : Nat) (e : List Byte) : Bool :=
  entN e 0 8 % 128 = 0 && entN e 8 4 % 128 = 0 && 128 ≤ entN e 8 4 && entN e 8 4 ≤ 2 ^ 31 && entN e 0xC 1 ≠ 0 && entN e 0xC 1 ≤ 7 &&
    (entN e 0xD 1 = 1 || entN e 0xD 1 = 2) && entN e 0xD 1 ≠ comp && entZero e 0xE 0x10

/-- The extension's own fields. -/
def extensionOk (d : List Byte) : Bool :=
  (entN d 0x58 1 = 1 || entN d 0x58 1 = 2) && entZero d 0x59 0x5C && entN d 0x5C 4 ≤ 64 &&
    (entN d 0x5C 4 = 0 || entN d 0x60 8 % 64 = 0) && entN d 0x68 8 % 4096 = 0 && entN d 0x70 8 % 4096 = 0 &&
    4096 ≤ entN d 0x70 8 && entN d 0x70 8 ≤ 2 ^ 32

/-- Whether every actor's entry lies in the code extent. -/
def entriesInside (d : List Byte) (l : List Actor) : Bool :=
  l.all (fun a => entN d 0x68 8 ≤ a.desc.entry.toNat && a.desc.entry.toNat < entN d 0x68 8 + entN d 0x70 8)

/-! ## Loading actors and sending the trigger (R159, R174) -/

/-- Load a descriptor into a slot (R174). -/
def Bind.loadSlot (b : Bind) (k : Nat) (d : Desc) : Bind :=
  match (b.slot k).st with
  | .empty => b.modSlot k (fun _ => ⟨.idle, d, 0, none⟩)
  | .running => b.modSlot k (fun q => { q with next := some d })
  | _ => (b.modSlot k (fun q => { q with desc := d })).settleSlot k

/-- Load a list of actors. -/
def State.loadActors (s : State) (n : Nat) (l : List Actor) : State :=
  l.foldl (fun (t : State) a => t.modBind n a.core (fun b => b.loadSlot a.slot a.desc)) s

/-- The arguments of a LAUNCH (R159): the descriptor's address, the trigger's destination word, length and payload address. -/
def Cmd.descVa (c : Cmd) : Nat := entN c.args 0 8
def Cmd.dest (c : Cmd) : Nat := entN c.args 8 4
def Cmd.trigLen (c : Cmd) : Nat := entN c.args 12 4
def Cmd.trigVa (c : Cmd) : Nat := entN c.args 16 8

/-- The core that the trigger goes to. -/
def Cmd.destCore (c : Cmd) : Nat := coreAddr (c.dest % 256) (c.dest / 2 ^ 8 % 256)

/-- The trigger message of a LAUNCH (R159, R183): an outside input with the command's stamp and journal number. -/
def Cmd.trigger (c : Cmd) (now : Nat) (payload : List Byte) : Msg :=
  mkMsg c.stamp now c.seq 0xFFFE 0xFF 1 (c.dest / 2 ^ 16 % 16) (c.dest / 2 ^ 20 % 4) 0 payload

/-- The actors stand and the trigger leaves; the command has started, and its result is the CTXID (R159). -/
def State.launched (s : State) (c : Cmd) (n : Nat) (l : List Actor) (payload : List Byte) : State :=
  (((s.dropDev (cmdTag c.seq)).loadActors n l).setCmd { c with started := true, result := w64 n }).postOutside
    0xFFFE c.destCore n (c.trigger s.ptime payload)

/-- What a LAUNCH reads after its descriptor: the actor list, the payload, the group table, the gate table and the code
extent. -/
def Cmd.ranges (c : Cmd) (d : List Byte) (create ext : Bool) : List (Nat × Nat) :=
  let g := entN d 0x38 8
  [(entN d 0x50 8, 72 * actorCount d), (c.trigVa, c.trigLen)] ++
    (if create && g ≠ 0 then [(g, 65536)] else []) ++
    (if ext then (entN d 0x60 8, 16 * entN d 0x5C 4) :: [(entN d 0x68 8, entN d 0x70 8)] else [])

/-! ## Creating a context (R115, R117, R205) -/

/-- The number of a context's function for its first context. -/
def ctxBase (fn : Nat) : Nat := if fn = 128 then 2 ^ 31 else fn * 2 ^ 24

/-- The lowest free context number of the device, from 1 (R144). -/
def State.freeIndex (s : State) : Option Nat :=
  ((List.range (s.ctxs.length + 1)).map (· + 1)).find? (fun k => k < 0xFF_FFFF && s.ctxs.all (fun p => p.2.st = .free || p.1 % 2 ^ 24 ≠ k))

/-- Whether reserved memory has room for the save areas of one more context (R161). -/
def State.areasFit (s : State) (cores slots : Nat) : Bool :=
  (s.ctxs.map (fun p => if p.2.st = .free then 0 else (dedup (p.2.cores ++ p.2.partners)).length * areaSize p.2.bufslots)).sum +
    cores * areaSize slots ≤ Config.areaBytes

/-- The record of a new context (R117, R160, R170, R397). -/
def Cmd.newCtx (c : Cmd) (d : List Byte) (l : List Actor) (gs : SMap Group) (gates : List GateEnt) (ext : Bool) : Ctx :=
  let w := fun (o : Nat) => w64 (entN d o 8)
  let cs := contextCores l gs
  { Ctx.free with
    st := .live, prio := entN d 0 1, flags := BitVec.ofNat 16 (entN d 1 1), factor := BitVec.ofNat 32 (entN d 4 4)
    hpol := w 8 &&& c.fpcfg &&& 7, kclass := w 0x10, lease := w 0x18, parkto := w 0x20, fpint := w 0x28, ebud := w 0x30
    gtable := w 0x38, account := entN d 0x40 4, bufslots := entN d 0x44 4
    groups := SMap.put gs 0 ⟨cs, cs.headD 0, false, 0, 0, 0, 0⟩
    cores := cs, partners := partnersOf l (bit (w 0x10) 7)
    comp := if ext then entN d 0x58 1 else 0, gates := gates
    codeBase := if ext then entN d 0x68 8 else 0, codeLen := if ext then entN d 0x70 8 else 0 }

/-- Build the context and its save areas (R115, R118, R205, R379). -/
def State.create (s : State) (n : Nat) (k : Ctx) : State :=
  let areas := dedup (k.cores ++ k.partners)
  areas.foldl (fun (t : State) c => t.setBind n c { Bind.zero with ebud := k.ebud.setWidth 32 }) (s.modCtx n (fun _ => { k with savetab := Config.saveTab n }))

/-- The running digest of a world after a LAUNCH with CREATE (R404). -/
def State.measure (s : State) (fn : Nat) (bs : List Byte) : State :=
  s.setWorld fn { s.world fn with digest := Config.sha256 ((s.world fn).digest ++ bs) }

/-- A LAUNCH with CREATE whose descriptor and lists are at hand. -/
def State.launchNew (s : State) (c : Cmd) (d : List Byte) (ext : Bool) : State :=
  let rd := fun (va n : Nat) => s.readVa (rootCtx c.fn) va n
  let bytes := rd (entN d 0x50 8) (72 * actorCount d)
  let es := entriesOf (actorCount d) bytes
  let l := es.map actorOf
  let table := rd (entN d 0x38 8) 65536
  let grouped := entN d 0x38 8 ≠ 0
  let gs := if grouped then groupsOf table else []
  let gbytes := rd (entN d 0x60 8) (16 * entN d 0x5C 4)
  let ges := (List.range (entN d 0x5C 4)).map (fun k => (gbytes.drop (16 * k)).take 16)
  let k := c.newCtx d l gs (if ext then ges.map gateOf else []) ext
  let areas := dedup (k.cores ++ k.partners)
  if !es.all actorFieldsOk || !pairsOk [] l (bit k.kclass 7) || (grouped && !groupTableOk table) ||
      (ext && !(ges.all (gateOk k.comp) && entriesInside d l)) ||
      !areas.contains c.destCore then s.outcome c 4 0
  else
    match s.freeIndex with
    | none => s.outcome c 3 0
    | some j =>
      if !s.areasFit areas.length k.bufslots then s.outcome c 3 0
      else
        let n := ctxBase c.fn + j
        let s1 := s.create n k
        let s2 := if ext then s1.measure c.fn (d ++ bytes ++ gbytes ++ rd (entN d 0x68 8) (entN d 0x70 8)) else s1
        s2.launched c n l (rd c.trigVa c.trigLen)

/-- A LAUNCH without CREATE whose descriptor and list are at hand: none of a list is loaded when any entry is rejected
(R176). -/
def State.launchOld (s : State) (c : Cmd) (d : List Byte) : State :=
  let n := c.ctxid
  let k := s.ctx n
  let es := entriesOf (actorCount d) (s.readVa (rootCtx c.fn) (entN d 0x50 8) (72 * actorCount d))
  let l := es.map actorOf
  let held := fun (x : Nat) => k.cores.contains x || k.partners.contains x
  if !es.all actorFieldsOk || !l.all (fun a => held a.core && (!a.desc.paired || held (a.core + 1))) ||
      !pairsOk (s.actorsOf n) l (bit k.kclass 7) || !held c.destCore then s.outcome c 4 0
  else s.launched c n l (s.readVa (rootCtx c.fn) c.trigVa c.trigLen)

/-- The function whose context a LAUNCH loads. -/
def Cmd.launchFn (c : Cmd) : Nat := if nbit c.flags 2 then c.fn else ctxFn c.ctxid

/-- LAUNCH (R159-R161, R176, R390, R397, R404): memory that has to be read is waited for, and so is room in a replay log. -/
def execLaunch (seq : Nat) (s : State) : Result :=
  device s (
    match s.cmd? seq with
    | none => s
    | some c =>
      let create := nbit c.flags 2
      let w := (s.world c.fn).st
      let ext := create && c.fn ≠ 128 && w = .keyed
      if !s.mayStartCmd c 1 then s
      else if !create && !s.ctxOk c.fn 1 c.ctxid c.seq then s.outcome c 2 0
      else if !(launchArgsOk c.descVa c.trigLen c.dest && s.worldTakes c.fn create c.ctxid) then s.outcome c 4 0
      else if !s.logRoom c.launchFn c.trigLen then s
      else
        let dn := if ext then 0x78 else 0x58
        match s.devIo c.fn (cmdTag seq) none (if create then [(c.descVa, dn)] else [(c.descVa + 0x48, 4), (c.descVa + 0x50, 8)]) with
        | .wait t => t
        | .bad => s.outcome c 4 0
        | .ok =>
          let d := s.readVa (rootCtx c.fn) c.descVa dn
          if !countOk d || (create && !c.descOk d) || (ext && !extensionOk d) then s.outcome c 4 0
          else
            match s.devIo c.fn (cmdTag seq) none (c.ranges d create ext) with
            | .wait t => t
            | .bad => s.outcome c 4 0
            | .ok => if create then s.launchNew c d ext else s.launchOld c d)

/-! ## RECLAIM and the end of a destroyed context (R115, R159, R161) -/

/-- The context that a LAUNCH concerns: with CREATE the one that it has made, which its result names. -/
def Cmd.launchCtx (c : Cmd) : Nat := if nbit c.flags 2 then c.result.toNat else c.ctxid

/-- Whether a LAUNCH of a context that was accepted before a command has still to deliver its trigger (R161). -/
def State.launchesDue (s : State) (n seq : Nat) : Bool :=
  s.journal.any (fun p => p.2.opc = 1 && p.2.launchCtx = n && p.2.seq < seq && !p.2.done && !p.2.ready && (!p.2.started || s.triggerAway p.2.seq))

/-- RECLAIM (R115, R159, R161). -/
def execReclaim (seq : Nat) (s : State) : Result :=
  device s (
    match s.cmd? seq with
    | none => s
    | some c =>
      if !s.mayStartCmd c 3 then s
      else if !s.ctxOk c.fn 3 c.ctxid c.seq then s.outcome c 2 0
      else if s.launchesDue c.ctxid seq then s
      else (s.setCmd { c with started := true }).destroy c.ctxid (fun k => { k with reclaim := some seq }))

/-- Whether every binding of a context is OUT or UNBOUND (R115). -/
def State.allOut (s : State) (n : Nat) : Bool :=
  s.cores.all (fun p => p.2.ctx ≠ some n) && s.binds.all (fun p => p.1 / 2048 ≠ n || p.2.st = .out || p.2.st = .unbound)

/-- Whether a context still holds nodes that must be withdrawn (R115). -/
def State.holdsNodes (s : State) (n : Nat) : Bool :=
  s.nodes.any (fun p => p.2.holder = n && (p.2.st = .valid || p.2.st = .revoking))

/-- The withdrawal of a destroyed context's whole space (R115). -/
def State.goneReq (s : State) (n : Nat) : MapReq :=
  let stamp := match (s.ctx n).reclaim.bind s.cmd? with
    | some c => c.stamp
    | none => s.floor + 64
  { op := 8, ctx := n, core := 2047, a := 0, b := 0, rights := 0, e0 := 0, e1 := 0, e2 := 0, e3 := 0, stamp := stamp, saddr := 0xFFFE
    node := none, gen := 0, status := 0, home := 0, keysel := 0, cmd := none }

/-- The save areas are scrubbed and the context is FREE (R115): nothing of it stays, nor what a handler has stored there, and its RECLAIM has its outcome. -/
def State.freeContext (s : State) (n : Nat) : State :=
  let mine := fun (k : Nat) => k / 2048 = n
  let k := s.ctx n
  let s1 : State := { s with
    binds := s.binds.filter (fun p => !mine p.1), areas := s.areas.filter (fun p => !mine p.1)
    accs := s.accs.filter (fun a => a.ctx ≠ n), parks := s.parks.filter (fun p => p.ctx ≠ n || p.pri)
    hmem := s.hmem.filter (fun p => !((dedup (k.cores ++ k.partners)).any (fun c => inAreaOf k.bufslots n c p.1)))
    wakes := s.wakes.filter (fun w => w.ctx ≠ n), net := s.net.filter (fun p => p.ctx ≠ n)
    cores := s.cores.map (fun p => (p.1, { p.2 with tlb := p.2.tlb.filter (fun e => e.ctx ≠ n), delay := p.2.delay.filter (fun e => e.2.ctx ≠ n) })) }
  let s2 := s1.modCtx n (fun _ => Ctx.free)
  match k.reclaim.bind s2.cmd? with
  | some c => s2.outcome c 0 (w64 k.freed)
  | none => s2

/-- CONTEXT_DESTROY_COMPLETE (R115, R116): first the withdrawal of the space, then, with nothing left of it, the end. -/
def execContextDestroyComplete (ctx : Nat) (s : State) : Result :=
  device s (
    let asked := s.reqs.any (fun p => p.2.req.op = 8 && p.2.req.ctx = ctx)
    if (s.ctx ctx).st ≠ .destroying || !s.allOut ctx || asked then s
    else if s.holdsNodes ctx then
      ({ s with binds := s.binds.map (fun p => (p.1, if p.1 / 2048 = ctx then { p.2 with msgBuf := [], inbox := [] } else p.2)) } : State).holdReq
        (s.goneReq ctx)
    else if s.accs.any (fun a => a.ctx = ctx && (a.kind.engineWrite || (match a.kind with | .store _ => true | _ => false)) && !a.st.settled &&
        a.st ≠ .parked && a.st ≠ .parkWait) then s
    else s.freeContext ctx)

end Sys2Proof.Machine
end

