-- ==== Sys2Proof/Machine/Period.lean ====
section
/-! DEFINITION. The period boundary and an exhausted account (R166-R171). -/
namespace Sys2Proof.Machine

/-- Register `o` of budget account a (R171). -/
def acReg (a o : Nat) : Nat := pfReg (0xD_4000 + 0x20 * a + o)

/-- What Apex applies to an account at a period boundary (R171), and the refill (R167); borrowing starts anew. -/
def State.refillAccount (s : State) (a : Nat) : State :=
  let k := s.account a
  let refill := fld (s.reg (acReg a 0)) 0 32
  let repay := min k.debt (refill / 2)
  s.setAccount a
    { refill := refill, debtmax := fld (s.reg (acReg a 8)) 0 32, lend := bit (s.reg (acReg a 0x10)) 63
      reserve := fld (s.reg (acReg a 0x10)) 0 32, bal := refill - repay, debt := k.debt - repay, used := 0, dry := false, lender := none }

/-- The Locus cycles that a function has overdrawn at each Locus (R169). -/
def Activity.overdraft (a : Activity) : SMap Nat :=
  if a.limLoc = noLimit32 then [] else (a.loc.map (fun p => (p.1, p.2 - a.limLoc))).filter (fun p => p.2 ≠ 0)

/-- A function's budgets for the next period (R169, R170). -/
def State.refillFn (s : State) (fn : Nat) : State :=
  s.setAct fn
    { mem := [], loc := (s.act fn).overdraft, cpy := 0, fab := []
      limMem := fld (s.reg (fpReg fn 0x10)) 0 32, limLoc := fld (s.reg (fpReg fn 0x18)) 0 32
      limCpy := (s.reg (fpReg fn 0x20)).toNat, limFab := fld (s.reg (fpReg fn 0x28)) 0 32 }

/-- PERIOD_BOUNDARY (R166, R167, R169-R171): every account and every function at the same instant; flits
that waited for a budget leave (R170). -/
def execPeriodBoundary (s : State) : Result :=
  device s (
    if s.boundaryDue then
      State.drainFab <| (List.range 129).foldl (fun (t : State) f => t.refillFn f)
        ((List.range 1024).foldl (fun (t : State) a => t.refillAccount a) { s with period := s.ptime / 100000 })
    else s)

/-- BUDGET_EXHAUSTED (R168): an account that can neither pay nor borrow; the cores charged to it are pre-empted. -/
def execBudgetExhausted (acct : Nat) (s : State) : Result :=
  device s (
    if 1024 ≤ acct || s.canPay acct then s
    else
      ((s.cores.map (·.1)).filter (fun c => s.charged c && s.chargedAccount c = acct)).foldl (fun (t : State) c => t.preempt c 2)
        (s.setAccount acct { s.account acct with dry := true }))

end Sys2Proof.Machine
end

