-- ==== Sys2Proof/Machine/Scan.lean ====
section
/-! DEFINITION. The management scan path (R444, R453): every bit of a frozen module's state by an address of the model's own numbering
(log 107), with the state of closed worlds hidden. -/
namespace Sys2Proof.Machine

/-! ## What is hidden (R444) -/

/-- Whether a context's world is not OPEN: the scan path shows its state as zeros (R444). -/
def State.scanClosed (s : State) (n : Nat) : Bool := (s.world (ctxFn n)).st ≠ .isOpen

/-- Whether a reader of the scan path is shown zeros for a line (R444): a scratch bank that a context of a world that is not OPEN
owns, the inboxes of one, and the frames of a compartment. -/
def State.scanHidden (s : State) (la : Nat) : Bool :=
  match region la with
  | .scratch c b _ =>
    match (if s.bankMode c b = 2 then (s.core c).ctx else SMap.find? (s.core c).bankOwner b) with
    | some n => s.scanClosed n
    | none => false
  | .memory => (s.frame (la / 4096)).comp ≠ 0
  | _ => false

/-- A byte of a bank as it stands: of a FIFO-mode bank, its message slots (R455). -/
def State.bankByte (s : State) (c b off : Nat) : Byte :=
  if s.bankMode c b = 2 then
    match (s.cur c).inbox.find? (fun h => h.place = 204 * b + off / 320 && off / 320 < 204) with
    | some h => h.msg.slotBytes.getD (off % 320) 0
    | none => 0
  else s.byteAt (scratchLa c b off)

/-- Whether a core's state is hidden (R444): it is bound to a context whose world is not OPEN, or holds the saved state of one. -/
def State.scanCoreHidden (s : State) (c : Nat) : Bool :=
  (s.core c).ctx.any s.scanClosed || s.areas.any (fun p => p.1 % 2048 = c && s.scanClosed (p.1 / 2048)) ||
    s.binds.any (fun p => p.1 % 2048 = c && s.scanClosed (p.1 / 2048))

/-! ## Rows of numbers -/

def byteOfWords (l : List Word) (off : Nat) : Byte := ((l.getD (off / 8) 0) >>> (8 * (off % 8))).setWidth 8

/-- A byte of a table: its rows stand 4 KiB apart, a doubleword for each number. -/
def rowByte (rows : List (List Nat)) (off : Nat) : Byte := byteOfWords ((rows.getD (off / 4096) []).map w64) (off % 4096)

def numsOfBytes (bs : List Byte) : List Nat := bs.map (·.toNat)

def optNum : Option Nat → Nat
  | none => 0
  | some n => n + 1

/-! ## A core (R12) -/

/-- The registers of a core as the scan path shows them, a doubleword each. -/
def Core.scanWords (k : Core) : List Word :=
  [k.tvec, k.tcause, k.tval, k.tepc, k.savebase, k.ctxid, k.hpol, k.fpint, k.lease, k.kclass, k.parkto, k.gmem, k.hpc, k.bankcfg,
    w64 (b2n k.hmode + 2 * b2n k.sbusy + 4 * b2n k.saving + 8 * b2n k.serr + 16 * b2n k.quar + 32 * k.eact.toNat + 2 ^ 8 * k.psje.toNat +
      2 ^ 24 * k.trapLen + 2 ^ 32 * b2n k.trapIdle), w64 (optNum k.ctx), w64 k.lastCycle] ++
    (List.range 32).map (fun r => SMap.get 0 k.hx r) ++ (List.range 8).map (fun r => SMap.get 0 k.he r) ++
    (List.range 8).flatMap (fun n => [(SMap.get Comp.off k.comps n).addr, (SMap.get Comp.off k.comps n).cfg])

/-- A TLB entry as the scan path shows it. -/
def TlbEnt.scanWords (e : TlbEnt) : List Word :=
  [w64 e.ctx, w64 e.page, w64 e.la, w64 (e.rights.toNat + 2 ^ 8 * e.attr + 2 ^ 16 * b2n e.big), w64 (e.mask.toNat % 2 ^ 64), w64 (e.mask.toNat / 2 ^ 64)]

def PairMode.code : PairMode → Nat
  | .off => 0 | .run => 1 | .rerun => 2 | .tiebreak => 3 | .diverged => 4

def PairSt.nums (p : PairSt) : List Nat :=
  [p.mode.code, b2n p.partner, b2n p.byInstr, p.interval, p.tiebrk, p.rollb, b2n p.step, b2n p.agreed, b2n p.closing, p.mark, b2n p.ckpt.isSome,
    b2n p.shut.isSome, optNum p.spare]

def DelayEnt.nums (e : DelayEnt) : List Nat := [b2n e.used, e.ctx, e.saddr, e.sslot, e.count, e.transit, e.wait, e.run, e.maxSum]

def TrapInfo.nums (t : TrapInfo) : List Nat :=
  [t.code, t.slot, t.thr, t.tag, t.tval.toNat, t.tepc.toNat, t.entry.toNat, t.vtime, t.retired, t.ptime]

def PendLoad.nums (p : PendLoad) : List Nat := [p.acc, p.dst, p.size, b2n p.signed, p.len, b2n p.blocking]

def GotPart.nums (g : GotPart) : List Nat := [g.off, b2n g.poison, b2n g.frame] ++ numsOfBytes g.bytes

def Held.nums (h : Held) : List Nat := [h.arrival, b2n h.delivered, h.place] ++ h.poison

/-- What a micro-thread holds beside its record of R120. -/
def Mt.nums (n : Nat) (m : Mt) : List Nat :=
  [n, b2n m.mtf, b2n m.held, b2n m.skip, b2n m.waits, m.prog, m.grp, b2n m.halt, m.crc.toNat, m.retired] ++ m.runNums

/-- What a core's binding holds beside its save area's layout: the fetcher and the nest counters it is root of, its commands, copies,
journal tags, pending loads, the arrivals of its messages, and what its fetches have read. -/
def Bind.scanRows (b : Bind) : List (List Nat) :=
  [b.fetcherNums, [b2n b.endWait, b2n b.waits, b2n b.held, b2n b.skip, b.pendBits.toNat, b.prsn, b.crc.toNat, b.jseq, b2n b.wfe]] ++
    b.cmds.map MtxCmd.nums ++ b.copies.map CopyRec.nums ++
    b.journal.map (fun p => [p.1, p.2.la, p.2.attr, optNum p.2.node, b2n p.2.poison, p.2.seq, p.2.grp, b2n p.2.probe, p.2.ival, p.2.eff]) ++
    b.pend.map PendLoad.nums ++ b.got.map GotPart.nums ++ b.inbox.map Held.nums ++ b.msgBuf.map Held.nums ++ b.netBuf.map Packet.nums ++
    b.mts.map (fun p => p.2.nums p.1) ++ b.mts.flatMap (fun p => p.2.pend.map PendLoad.nums ++ p.2.got.map GotPart.nums) ++
    b.hostReads.map (fun p => [p.1, p.2]) ++ b.flushDue.map (fun p => [p.1, p.2]) ++
    [b.codeFrames, b.codeGot, b.codeLines] ++ b.badQ.map (fun p => [p.1, p.2.1, p.2.2]) ++
    b.code.map (fun p => [p.1, p.2.toNat])

/-- What a core holds beside its registers, TLB and L1 lines. -/
def Core.scanRows (k : Core) : List (List Nat) :=
  [k.pair.nums, k.icache] ++ k.bankOwner.map (fun p => [p.1, p.2]) ++ k.delay.map (fun p => p.1 :: p.2.nums) ++
    k.trCnt.map (fun p => [p.1, p.2]) ++ k.tmsg.map (fun p => b2n p.2 :: p.1.nums) ++ k.hcode.map (fun p => [p.1, p.2.toNat]) ++
    k.l1.map (fun p => [p.1, p.2.poison.toNat, p.2.expiry])

/-- A byte of a CIM half, or of its forward store, 16 KiB each: hidden where its descriptor names a key slot (R444). -/
def Bind.halfByte (b : Bind) (fwd : Bool) (off : Nat) : Byte :=
  let x := (b.cim (off / 2 ^ 15 % 4)).half (off / 2 ^ 14 % 2)
  if x.slot ≠ 0xFF then 0 else SMap.get 0 (if fwd then x.raw else x.plain) (off % 2 ^ 14)

/-- A byte of a core as the scan path shows it (log 107): the state of its context in the layout of a save area; from 2^20 on its
registers; from 2^21 its CIM halves; from 2^22 its TLB; from 2^23 its L1 lines, in the order of their logical addresses; from 2^24 its
forward stores; from 2^25 the core's other tables, and from 2^26 its binding's. -/
def State.scanCore (s : State) (c off : Nat) : Byte :=
  let k := s.core c
  let n := s.ctxOf c
  if s.scanCoreHidden c then 0
  else if off < 2 ^ 20 then (if k.ctx.isSome then s.areaByte n c (s.readoutBind c) off else 0)
  else if off < 2 ^ 21 then byteOfWords k.scanWords (off - 2 ^ 20)
  else if off < 2 ^ 22 then (s.cur c).halfByte false (off - 2 ^ 21)
  else if off < 2 ^ 23 then ((k.tlb[(off - 2 ^ 22) / 64]?).map (fun e => byteOfWords e.scanWords (off % 64))).getD 0
  else if off < 2 ^ 24 then ((k.l1[(off - 2 ^ 23) / 128]?).map (fun e => e.2.bytes.getD (off % 128) 0)).getD 0
  else if off < 2 ^ 25 then (s.cur c).halfByte true (off - 2 ^ 24)
  else if off < 2 ^ 26 then rowByte k.scanRows (off - 2 ^ 25)
  else rowByte (s.cur c).scanRows (off - 2 ^ 26)

/-- A save area as the scan path shows it. -/
def State.scanArea (s : State) (key off : Nat) : Byte :=
  if s.scanClosed (key / 2048) then 0
  else match s.area (key / 2048) (key % 2048) with
    | some b => s.areaByte (key / 2048) (key % 2048) b off
    | none => 0

/-! ## The module's own tables -/

def FrameSt.code : FrameSt → Nat
  | .nonres => 0 | .resident => 1 | .evicting => 2 | .moving => 3

def NodeSt.code : NodeSt → Nat
  | .free => 0 | .valid => 1 | .revoking => 2 | .released => 3

def AccSt.code : AccSt → Nat
  | .flying => 0 | .parked => 1 | .parkWait => 2 | .leaseWait => 3 | .fullWait => 4 | .hostWait => 5 | .hostOut => 6 | .valued _ _ _ => 7
  | .done => 8 | .refused n => 9 + n

def Frame.nums (f : Frame) : List Nat :=
  [f.st.code, f.cell, f.slot, f.cls, f.acct, b2n f.pinned, f.hold, f.last, b2n f.first, optNum f.home, f.comp, f.vf]

def Node.nums (n : Node) : List Nat :=
  [n.st.code, n.holder, n.vbase, n.lbase, n.len, n.rights.toNat, n.attr, n.home, optNum n.parent, n.depth, n.gen, n.notice.toNat, b2n n.conf,
    b2n n.tombed]

def Park.nums (p : Park) : List Nat := [p.mxu, p.seq, p.acc, p.frame, p.ctx, p.saddr, p.kind, p.flags, p.since, b2n p.pri, p.lost]

def Acc.nums (a : Acc) : List Nat :=
  [a.id, a.core, a.ctx, a.thr, a.st.code, a.va.toNat, a.la, a.size, a.off, a.attr, optNum a.node, a.eff, a.arr, a.key, a.pa, a.ordinal, a.rel,
    a.planes]

def Withdraw.nums (w : Withdraw) : List Nat :=
  [w.req, w.phase, w.since, optNum w.shot, w.acked, b2n w.scrub, w.roots.length, w.nodes.length, w.cuts.length, w.shoots.length, w.acks.length] ++
    w.roots ++ w.nodes ++ w.cuts ++ w.shoots ++ w.acks

def Locus.rows (n : Nat) (l : Locus) : List (List Nat) :=
  [n, l.seq, optNum l.relay, l.slot.1, l.slot.2] :: (l.held.map (fun p => [n, p.req, p.stamp, p.saddr, p.order, b2n p.relay]) ++
    l.work.toList.map (fun w => n :: w.nums))

def Cmd.nums (c : Cmd) : List Nat :=
  [c.seq, c.ptime, c.stamp, c.fn, c.queue, c.opc, b2n c.done, c.entry, c.tag.toNat, c.status, c.ctxid, c.ctime, c.result.toNat, c.flags,
    c.cpladdr.toNat, c.fpcfg.toNat, c.fpacct.toNat, b2n c.started, b2n c.ready] ++ numsOfBytes c.args

def Account.nums (a : Account) : List Nat :=
  [a.refill, a.debtmax, b2n a.lend, a.reserve, a.bal, a.debt, a.used, b2n a.dry, optNum a.lender]

def Activity.nums (a : Activity) : List Nat :=
  [a.cpy, a.limMem, a.limLoc, a.limCpy, a.limFab] ++ a.mem.flatMap (fun p => [p.1, p.2]) ++ a.loc.flatMap (fun p => [p.1, p.2]) ++
    a.fab.flatMap (fun p => [p.1, p.2])

def Port.nums (p : Port) : List Nat :=
  [p.st.code, b2n p.en, p.width, p.spared, p.replays, p.nextSeq, p.expect, b2n p.nakSent, p.nextTag, p.arrivals, p.lanes]

def Debug.nums (d : Debug) : List Nat :=
  [d.mode, d.cause, d.hitcore, d.hitthr, d.comp, d.tag, d.slot, b2n d.isOpen, b2n d.isLocal, d.ctxid, d.addr.toNat, d.vtime, d.entry.toNat,
    b2n d.vstop, b2n d.thermal, d.since, d.core, d.frozeAt, b2n d.skip, d.hotAt] ++ d.stepped

def Power.nums (p : Power) : List Nat :=
  [p.sum, p.count, p.last, b2n p.lowered, p.gateCap, p.gateHot, b2n p.restart, p.capNow, p.winNow]

/-- A context but for its lists (R117). -/
def Ctx.nums (x : Ctx) : List Nat :=
  [x.st.code, x.prio, x.flags.toNat, x.factor.toNat, x.hpol.toNat, x.kclass.toNat, x.lease.toNat, x.parkto.toNat, x.fpint.toNat, x.ebud.toNat,
    x.gtable.toNat, x.account, x.savetab.toNat, x.bufslots, x.fcause, x.freason, x.comp, x.codeBase, x.codeLen, optNum x.reclaim, b2n x.forced,
    x.freed] ++ x.cores ++ x.partners

def pairRow (p : Nat × Nat) : List Nat := [p.1, p.2]

def keyRow (p : Nat × Bool) : List Nat := [p.1]

/-- The tables of the module outside its cores, each by its number. A key is not shown, and what is under way for a context of a closed
world is not. -/
def State.scanTable (s : State) (n : Nat) : List (List Nat) :=
  let shown := fun (ctx : Nat) => !s.scanClosed ctx
  match n with
  | 0 => s.l2.map keyRow
  | 1 => s.dirty.map keyRow
  | 2 => s.poison.map keyRow
  | 3 => s.dpoison.map keyRow
  | 4 => s.full.map keyRow
  | 5 => s.leases.map pairRow
  | 6 => s.frames.map (fun p => p.1 :: p.2.nums)
  | 7 => [s.resv.1, s.resv.2] :: s.cells.map (fun p => p.1 :: p.2.1 :: p.2.2)
  | 8 => s.used.map pairRow
  | 9 => s.pinnedCnt.map pairRow
  | 10 => (s.accs.filter (fun a => shown a.ctx)).map Acc.nums
  | 11 => (s.parks.filter (fun p => shown p.ctx)).map Park.nums
  | 12 => (s.wakes.filter (fun w => shown w.ctx)).map (fun w => [w.mxu, w.seq, w.ctx, w.core, w.acc, w.page, b2n w.store])
  | 13 => s.mxus.flatMap (fun p =>
      [p.1, p.2.nextSeq, b2n p.2.full, b2n p.2.prifail, optNum p.2.evict] :: (p.2.recs.filter (fun q => shown q.ctx)).map (fun q => p.1 :: q.nums))
  | 14 => s.atc.map (fun e => [e.rid, e.pasid, e.page, e.len, e.pa, b2n e.rd, b2n e.wr])
  | 15 => s.treqs.map (fun e => [e.rid, e.pasid, e.page, b2n e.stale, e.key])
  | 16 => s.preqs.map (fun e => [e.rid, e.pasid, e.page, b2n e.rd, b2n e.wr, b2n e.answered])
  | 17 => s.invals.map (fun e => [e.rid, e.pasid, e.base, e.len] ++ e.waits)
  | 18 => s.caps.map (fun p => [p.1, b2n p.2.ats, b2n p.2.pri, p.2.alloc])
  | 19 => (s.net.filter (fun p => shown p.ctx)).map Packet.nums
  | 20 => s.nodes.map (fun p => p.1 :: p.2.nums)
  | 21 => s.loci.flatMap (fun p => p.2.rows p.1)
  | 22 => (s.reqs.filter (fun p => shown p.2.req.ctx)).map (fun p =>
      [p.1, p.2.nodes, b2n p.2.dead, p.2.loci.length, p.2.left.length] ++ p.2.loci ++ p.2.left ++ p.2.req.nums)
  | 23 => s.regs.map (fun p => [p.1, p.2.toNat])
  | 24 => s.lqs.map (fun p => [p.1, p.2.outSince])
  | 25 => [s.jnext] :: s.journal.map (fun p => p.2.nums)
  | 26 => s.slotTab.map (fun p => [p.1, p.2.toNat % 2 ^ 64, p.2.toNat / 2 ^ 64])
  | 27 => [s.period] :: s.accounts.map (fun p => p.1 :: p.2.nums)
  | 28 => s.activity.map (fun p => p.1 :: p.2.nums)
  | 29 => s.worlds.map (fun p =>
      [p.1, p.2.st.code, p.2.moslot, p.2.doslot, b2n p.2.mokey, b2n p.2.dokey, b2n p.2.refused, p.2.tdi, p.2.keyset, b2n p.2.oldset, b2n p.2.stopped])
  | 30 => s.keys.map (fun p => [p.1, optNum p.2.owner, b2n p.2.retired])
  | 31 => [[b2n s.hostPort.up, s.hostPort.width], s.hostPort.hostHeld, s.hostPort.snooped]
  | 32 => s.ports.flatMap (fun p => (p.1 :: p.2.nums) :: p.2.buf.map (fun f => p.1 :: numsOfBytes f))
  | 33 => s.proxies.map (fun p => [p.1, p.2.st, b2n p.2.missing, optNum p.2.inval, b2n p.2.invWait, b2n p.2.orphan])
  | 34 => s.remoteInv :: s.remote.map pairRow
  | 35 => s.failedMods :: s.fabTags.map pairRow
  | 36 => s.fabOut.map (fun f => [optNum f.fn, f.type, f.dst] ++ numsOfBytes f.payload) ++ s.fabIn.map numsOfBytes
  | 37 => [s.dbg.nums, s.power.nums, [s.ptime, s.floor, s.nextAcc, s.arrivals, s.nextReq]]
  | 38 => s.msi.map pairRow ++ s.errWait.map numsOfBytes
  | 39 => s.ctxErrs.map (fun e => [e.ptime, e.ctx, e.core, e.code])
  | 40 => s.traceLost.map pairRow ++ s.rpAhead.map pairRow ++ s.logWait.map (fun r => [r.fn, r.stamp, r.saddr, r.seq])
  | 41 => (s.ctxs.filter (fun p => shown p.1)).flatMap (fun p =>
      (p.1 :: p.2.nums) :: (p.2.tombs.map (fun t => [p.1, t.va, t.len]) ++
        p.2.gates.map (fun g => [p.1, g.base.toNat, g.len, g.kinds, g.other]) ++
        p.2.groups.map (fun g => [p.1, g.1, g.2.root, b2n g.2.torus, g.2.tw, g.2.th, g.2.tox, g.2.toy] ++ g.2.members)))
  | 42 => s.digests.map (fun p => p.1 :: numsOfBytes p.2)
  | 43 => (s.dram.filter (fun p => (s.frame (p.1 / 4096)).comp = 0)).map (fun p => [p.1, p.2.toNat])
  | 44 => (s.hmem.filter (fun p =>
      !(s.areas.any (fun q => s.scanClosed (q.1 / 2048) && s.inArea (q.1 / 2048) (q.1 % 2048) p.1)))).map (fun p => [p.1, p.2.toNat])
  | _ => []

/-- Fuse status of a site: 1 fused, 2 in the core map, 4 the old site of a core quarantined since the reset before. -/
def State.siteWord (s : State) (k : Nat) : Word :=
  w64 (b2n ((fusedSites (k / 1024)).contains k) + 2 * b2n (s.coreMap.any (fun p => p.2 = k)) + 4 * b2n (s.quarSites.contains k))

/-- A byte that the scan path reads: a line of logical memory below 2^48; above, by the model's own numbering (log 107), in steps of
2^28: the logical cores; from 4096 the physical map (R10, R448: CMAPDATA of each logical core), 4097 the sites (R11), from 4352 the tables
of `scanTable`, and from 8192 the save areas that exist, in
order. -/
def State.scanByte (s : State) (a : Nat) : Byte :=
  let unit := (a - 2 ^ 48) / 2 ^ 28
  let off := a % 2 ^ 28
  if a < 2 ^ 48 then
    if s.scanHidden a then 0
    else match region a with
      | .scratch c b o => s.bankByte c b o
      | _ => s.byteAt a
  else if unit < 1984 then s.scanCore unit off
  else if unit = 4096 then byteOfWords [s.cmapData (off / 8)] (off % 8)
  else if unit = 4097 then byteOfWords [s.siteWord (off / 8)] (off % 8)
  else if 4352 ≤ unit && unit < 4400 then rowByte (s.scanTable (unit - 4352)) off
  else ((s.areas[unit - 8192]?).map (fun p => s.scanArea p.1 off)).getD 0

/-- SCAN_READ (R453): of a frozen module, the 128 bytes at `la`; of a running one only an orphaned line. Nothing else changes. -/
def execScanRead (orphan : Bool) (la : Nat) (s : State) : Result :=
  .next (
    let held := (SMap.find? s.proxies (la / 128)).any (·.orphan)
    if s.powered && (s.freeze || (orphan && held)) then
      { s with scan := some ((List.range 128).map (fun k => s.scanByte (la / 128 * 128 + k))) }
    else s)

end Sys2Proof.Machine
end

