-- ==== Sys2Proof/Machine/Dispatch.lean ====
section
/-! DEFINITION. One arm for each constructor of Instr: a direct call of its meaning. -/
namespace Sys2Proof.Machine

def exec (i : Instr) (s : State) : Host.Outcome State Fault Refusal :=
  match i with
  | .add b a d => Sys2Proof.Machine.execAdd b a d s
  | .sub b a d => Sys2Proof.Machine.execSub b a d s
  | .sll b a d => Sys2Proof.Machine.execSll b a d s
  | .slt b a d => Sys2Proof.Machine.execSlt b a d s
  | .sltu b a d => Sys2Proof.Machine.execSltu b a d s
  | .xor b a d => Sys2Proof.Machine.execXor b a d s
  | .srl b a d => Sys2Proof.Machine.execSrl b a d s
  | .sra b a d => Sys2Proof.Machine.execSra b a d s
  | .and b a d => Sys2Proof.Machine.execAnd b a d s
  | .or b a d => Sys2Proof.Machine.execOr b a d s
  | .andn b a d => Sys2Proof.Machine.execAndn b a d s
  | .orn b a d => Sys2Proof.Machine.execOrn b a d s
  | .xnor b a d => Sys2Proof.Machine.execXnor b a d s
  | .addi imm a d => Sys2Proof.Machine.execAddi imm a d s
  | .slli h a d => Sys2Proof.Machine.execSlli h a d s
  | .slti imm a d => Sys2Proof.Machine.execSlti imm a d s
  | .sltiu imm a d => Sys2Proof.Machine.execSltiu imm a d s
  | .xori imm a d => Sys2Proof.Machine.execXori imm a d s
  | .srli h a d => Sys2Proof.Machine.execSrli h a d s
  | .srai h a d => Sys2Proof.Machine.execSrai h a d s
  | .ori imm a d => Sys2Proof.Machine.execOri imm a d s
  | .andi imm a d => Sys2Proof.Machine.execAndi imm a d s
  | .lui imm d => Sys2Proof.Machine.execLui imm d s
  | .auipc imm d => Sys2Proof.Machine.execAuipc imm d s
  | .mul b a d => Sys2Proof.Machine.execMul b a d s
  | .mulh b a d => Sys2Proof.Machine.execMulh b a d s
  | .mulhsu b a d => Sys2Proof.Machine.execMulhsu b a d s
  | .mulhu b a d => Sys2Proof.Machine.execMulhu b a d s
  | .div b a d => Sys2Proof.Machine.execDiv b a d s
  | .divu b a d => Sys2Proof.Machine.execDivu b a d s
  | .rem b a d => Sys2Proof.Machine.execRem b a d s
  | .remu b a d => Sys2Proof.Machine.execRemu b a d s
  | .min b a d => Sys2Proof.Machine.execMin b a d s
  | .max b a d => Sys2Proof.Machine.execMax b a d s
  | .minu b a d => Sys2Proof.Machine.execMinu b a d s
  | .maxu b a d => Sys2Proof.Machine.execMaxu b a d s
  | .clz a d => Sys2Proof.Machine.execClz a d s
  | .ctz a d => Sys2Proof.Machine.execCtz a d s
  | .popc a d => Sys2Proof.Machine.execPopc a d s
  | .brev a d => Sys2Proof.Machine.execBrev a d s
  | .beq imm b a => Sys2Proof.Machine.execBeq imm b a s
  | .bne imm b a => Sys2Proof.Machine.execBne imm b a s
  | .blt imm b a => Sys2Proof.Machine.execBlt imm b a s
  | .bge imm b a => Sys2Proof.Machine.execBge imm b a s
  | .bltu imm b a => Sys2Proof.Machine.execBltu imm b a s
  | .bgeu imm b a => Sys2Proof.Machine.execBgeu imm b a s
  | .jal imm d => Sys2Proof.Machine.execJal imm d s
  | .jalr imm a d => Sys2Proof.Machine.execJalr imm a d s
  | .lb imm a d => Sys2Proof.Machine.execLb imm a d s
  | .lh imm a d => Sys2Proof.Machine.execLh imm a d s
  | .lw imm a d => Sys2Proof.Machine.execLw imm a d s
  | .ld imm a d => Sys2Proof.Machine.execLd imm a d s
  | .lbu imm a d => Sys2Proof.Machine.execLbu imm a d s
  | .lhu imm a d => Sys2Proof.Machine.execLhu imm a d s
  | .lwu imm a d => Sys2Proof.Machine.execLwu imm a d s
  | .sb imm b a => Sys2Proof.Machine.execSb imm b a s
  | .sh imm b a => Sys2Proof.Machine.execSh imm b a s
  | .sw imm b a => Sys2Proof.Machine.execSw imm b a s
  | .sd imm b a => Sys2Proof.Machine.execSd imm b a s
  | .swf imm b a => Sys2Proof.Machine.execSwf imm b a s
  | .sdf imm b a => Sys2Proof.Machine.execSdf imm b a s
  | .lwf imm a d => Sys2Proof.Machine.execLwf imm a d s
  | .ldf imm a d => Sys2Proof.Machine.execLdf imm a d s
  | .lwfc imm a d => Sys2Proof.Machine.execLwfc imm a d s
  | .ldfc imm a d => Sys2Proof.Machine.execLdfc imm a d s
  | .amoadd z r b a y d => Sys2Proof.Machine.execAmoadd z r b a y d s
  | .amoswap z r b a y d => Sys2Proof.Machine.execAmoswap z r b a y d s
  | .amoand z r b a y d => Sys2Proof.Machine.execAmoand z r b a y d s
  | .amoor z r b a y d => Sys2Proof.Machine.execAmoor z r b a y d s
  | .amoxor z r b a y d => Sys2Proof.Machine.execAmoxor z r b a y d s
  | .amomin z r b a y d => Sys2Proof.Machine.execAmomin z r b a y d s
  | .amomax z r b a y d => Sys2Proof.Machine.execAmomax z r b a y d s
  | .amominu z r b a y d => Sys2Proof.Machine.execAmominu z r b a y d s
  | .amomaxu z r b a y d => Sys2Proof.Machine.execAmomaxu z r b a y d s
  | .amocas z r b a y d => Sys2Proof.Machine.execAmocas z r b a y d s
  | .fence y k => Sys2Proof.Machine.execFence y k s
  | .discard imm a => Sys2Proof.Machine.execDiscard imm a s
  | .lastuse imm a => Sys2Proof.Machine.execLastuse imm a s
  | .prefetch imm a => Sys2Proof.Machine.execPrefetch imm a s
  | .flushl imm a => Sys2Proof.Machine.execFlushl imm a s
  | .sete a d => Sys2Proof.Machine.execSete a d s
  | .setei imm d => Sys2Proof.Machine.execSetei imm d s
  | .gete a d => Sys2Proof.Machine.execGete a d s
  | .geteI n d => Sys2Proof.Machine.execGeteI n d s
  | .qput b a q => Sys2Proof.Machine.execQput b a q s
  | .qget b q d => Sys2Proof.Machine.execQget b q d s
  | .qpeek q d => Sys2Proof.Machine.execQpeek q d s
  | .qcnt q d => Sys2Proof.Machine.execQcnt q d s
  | .nest b a => Sys2Proof.Machine.execNest b a s
  | .loop imm a => Sys2Proof.Machine.execLoop imm a s
  | .nestq a d => Sys2Proof.Machine.execNestq a d s
  | .send b a => Sys2Proof.Machine.execSend b a s
  | .sendg b a => Sys2Proof.Machine.execSendg b a s
  | .sendf b a => Sys2Proof.Machine.execSendf b a s
  | .mld a d => Sys2Proof.Machine.execMld a d s
  | .mlen d => Sys2Proof.Machine.execMlen d s
  | .mhdr a d => Sys2Proof.Machine.execMhdr a d s
  | .endAct => Sys2Proof.Machine.execEndAct s
  | .endx => Sys2Proof.Machine.execEndx s
  | .grank a d => Sys2Proof.Machine.execGrank a d s
  | .gsize a d => Sys2Proof.Machine.execGsize a d s
  | .gmemb b a d => Sys2Proof.Machine.execGmemb b a d s
  | .barm y o b a => Sys2Proof.Machine.execBarm y o b a s
  | .barv b a => Sys2Proof.Machine.execBarv b a s
  | .barw a d => Sys2Proof.Machine.execBarw a d s
  | .barx a => Sys2Proof.Machine.execBarx a s
  | .barq a d => Sys2Proof.Machine.execBarq a d s
  | .bcast n a => Sys2Proof.Machine.execBcast n a s
  | .bfetch imm a => Sys2Proof.Machine.execBfetch imm a s
  | .stop => Sys2Proof.Machine.execStop s
  | .mtwait a => Sys2Proof.Machine.execMtwait a s
  | .mtstat d => Sys2Proof.Machine.execMtstat d s
  | .mtrst a => Sys2Proof.Machine.execMtrst a s
  | .vaddVv b a d => Sys2Proof.Machine.execVaddVv b a d s
  | .vaddVx b a d => Sys2Proof.Machine.execVaddVx b a d s
  | .vaddVi imm a d => Sys2Proof.Machine.execVaddVi imm a d s
  | .vsubVv b a d => Sys2Proof.Machine.execVsubVv b a d s
  | .vsubVx b a d => Sys2Proof.Machine.execVsubVx b a d s
  | .vsubVi imm a d => Sys2Proof.Machine.execVsubVi imm a d s
  | .vmulVv b a d => Sys2Proof.Machine.execVmulVv b a d s
  | .vmulVx b a d => Sys2Proof.Machine.execVmulVx b a d s
  | .vmulVi imm a d => Sys2Proof.Machine.execVmulVi imm a d s
  | .vminVv b a d => Sys2Proof.Machine.execVminVv b a d s
  | .vminVx b a d => Sys2Proof.Machine.execVminVx b a d s
  | .vminVi imm a d => Sys2Proof.Machine.execVminVi imm a d s
  | .vmaxVv b a d => Sys2Proof.Machine.execVmaxVv b a d s
  | .vmaxVx b a d => Sys2Proof.Machine.execVmaxVx b a d s
  | .vmaxVi imm a d => Sys2Proof.Machine.execVmaxVi imm a d s
  | .vandVv b a d => Sys2Proof.Machine.execVandVv b a d s
  | .vandVx b a d => Sys2Proof.Machine.execVandVx b a d s
  | .vandVi imm a d => Sys2Proof.Machine.execVandVi imm a d s
  | .vorVv b a d => Sys2Proof.Machine.execVorVv b a d s
  | .vorVx b a d => Sys2Proof.Machine.execVorVx b a d s
  | .vorVi imm a d => Sys2Proof.Machine.execVorVi imm a d s
  | .vxorVv b a d => Sys2Proof.Machine.execVxorVv b a d s
  | .vxorVx b a d => Sys2Proof.Machine.execVxorVx b a d s
  | .vxorVi imm a d => Sys2Proof.Machine.execVxorVi imm a d s
  | .vshlVv b a d => Sys2Proof.Machine.execVshlVv b a d s
  | .vshlVx b a d => Sys2Proof.Machine.execVshlVx b a d s
  | .vshlVi imm a d => Sys2Proof.Machine.execVshlVi imm a d s
  | .vshrVv b a d => Sys2Proof.Machine.execVshrVv b a d s
  | .vshrVx b a d => Sys2Proof.Machine.execVshrVx b a d s
  | .vshrVi imm a d => Sys2Proof.Machine.execVshrVi imm a d s
  | .vsraVv b a d => Sys2Proof.Machine.execVsraVv b a d s
  | .vsraVx b a d => Sys2Proof.Machine.execVsraVx b a d s
  | .vsraVi imm a d => Sys2Proof.Machine.execVsraVi imm a d s
  | .vabs a d => Sys2Proof.Machine.execVabs a d s
  | .vneg a d => Sys2Proof.Machine.execVneg a d s
  | .vcmpeqVv b a d => Sys2Proof.Machine.execVcmpeqVv b a d s
  | .vcmpeqVx b a d => Sys2Proof.Machine.execVcmpeqVx b a d s
  | .vcmpeqVi imm a d => Sys2Proof.Machine.execVcmpeqVi imm a d s
  | .vcmpltVv b a d => Sys2Proof.Machine.execVcmpltVv b a d s
  | .vcmpltVx b a d => Sys2Proof.Machine.execVcmpltVx b a d s
  | .vcmpltVi imm a d => Sys2Proof.Machine.execVcmpltVi imm a d s
  | .vselVv b a d => Sys2Proof.Machine.execVselVv b a d s
  | .vselVx b a d => Sys2Proof.Machine.execVselVx b a d s
  | .vselVi imm a d => Sys2Proof.Machine.execVselVi imm a d s
  | .vfaddVv b a d => Sys2Proof.Machine.execVfaddVv b a d s
  | .vfaddVx b a d => Sys2Proof.Machine.execVfaddVx b a d s
  | .vfsubVv b a d => Sys2Proof.Machine.execVfsubVv b a d s
  | .vfsubVx b a d => Sys2Proof.Machine.execVfsubVx b a d s
  | .vfmulVv b a d => Sys2Proof.Machine.execVfmulVv b a d s
  | .vfmulVx b a d => Sys2Proof.Machine.execVfmulVx b a d s
  | .vfmaVv b a d => Sys2Proof.Machine.execVfmaVv b a d s
  | .vfmaVx b a d => Sys2Proof.Machine.execVfmaVx b a d s
  | .vfminVv b a d => Sys2Proof.Machine.execVfminVv b a d s
  | .vfminVx b a d => Sys2Proof.Machine.execVfminVx b a d s
  | .vfmaxVv b a d => Sys2Proof.Machine.execVfmaxVv b a d s
  | .vfmaxVx b a d => Sys2Proof.Machine.execVfmaxVx b a d s
  | .vfexp2 a d => Sys2Proof.Machine.execVfexp2 a d s
  | .vflog2 a d => Sys2Proof.Machine.execVflog2 a d s
  | .vfrcp a d => Sys2Proof.Machine.execVfrcp a d s
  | .vfrsq a d => Sys2Proof.Machine.execVfrsq a d s
  | .vfcmpltVv b a d => Sys2Proof.Machine.execVfcmpltVv b a d s
  | .vfcmpltVx b a d => Sys2Proof.Machine.execVfcmpltVx b a d s
  | .vfcmpeqVv b a d => Sys2Proof.Machine.execVfcmpeqVv b a d s
  | .vfcmpeqVx b a d => Sys2Proof.Machine.execVfcmpeqVx b a d s
  | .vld f a d => Sys2Proof.Machine.execVld f a d s
  | .vst a d => Sys2Proof.Machine.execVst a d s
  | .vldp k a d => Sys2Proof.Machine.execVldp k a d s
  | .vstp k a d => Sys2Proof.Machine.execVstp k a d s
  | .vcvt p f a d => Sys2Proof.Machine.execVcvt p f a d s
  | .vsplit p f a d => Sys2Proof.Machine.execVsplit p f a d s
  | .vscale b a d => Sys2Proof.Machine.execVscale b a d s
  | .vtag a d => Sys2Proof.Machine.execVtag a d s
  | .vrsumRow a d => Sys2Proof.Machine.execVrsumRow a d s
  | .vrsumCol a d => Sys2Proof.Machine.execVrsumCol a d s
  | .vrmaxRow a d => Sys2Proof.Machine.execVrmaxRow a d s
  | .vrmaxCol a d => Sys2Proof.Machine.execVrmaxCol a d s
  | .vrminRow a d => Sys2Proof.Machine.execVrminRow a d s
  | .vrminCol a d => Sys2Proof.Machine.execVrminCol a d s
  | .vscanRow a d => Sys2Proof.Machine.execVscanRow a d s
  | .vscanCol a d => Sys2Proof.Machine.execVscanCol a d s
  | .vshape a => Sys2Proof.Machine.execVshape a s
  | .vmov a d => Sys2Proof.Machine.execVmov a d s
  | .vbcr b a d => Sys2Proof.Machine.execVbcr b a d s
  | .vbcc b a d => Sys2Proof.Machine.execVbcc b a d s
  | .vtrn a d => Sys2Proof.Machine.execVtrn a d s
  | .vins b a d => Sys2Proof.Machine.execVins b a d s
  | .vext b a d => Sys2Proof.Machine.execVext b a d s
  | .mldb m y o g => Sys2Proof.Machine.execMldb m y o g s
  | .mmul t m y o g => Sys2Proof.Machine.execMmul t m y o g s
  | .mmrot t m y o g => Sys2Proof.Machine.execMmrot t m y o g s
  | .mdrain t y o g => Sys2Proof.Machine.execMdrain t y o g s
  | .mzero t y o g => Sys2Proof.Machine.execMzero t y o g s
  | .mwait => Sys2Proof.Machine.execMwait s
  | .mstat d => Sys2Proof.Machine.execMstat d s
  | .cpy y o g => Sys2Proof.Machine.execCpy y o g s
  | .cpyx y o g => Sys2Proof.Machine.execCpyx y o g s
  | .cpyw a => Sys2Proof.Machine.execCpyw a s
  | .cpyq d => Sys2Proof.Machine.execCpyq d s
  | .map r b a d => Sys2Proof.Machine.execMap r b a d s
  | .grant r b a d => Sys2Proof.Machine.execGrant r b a d s
  | .unmap a d => Sys2Proof.Machine.execUnmap a d s
  | .mquery a d => Sys2Proof.Machine.execMquery a d s
  | .release a => Sys2Proof.Machine.execRelease a s
  | .accept a d => Sys2Proof.Machine.execAccept a d s
  | .csrr y d => Sys2Proof.Machine.execCsrr y d s
  | .csrw y a d => Sys2Proof.Machine.execCsrw y a d s
  | .csrs y a d => Sys2Proof.Machine.execCsrs y a d s
  | .csrc y a d => Sys2Proof.Machine.execCsrc y a d s
  | .trap a => Sys2Proof.Machine.execTrap a s
  | .eret => Sys2Proof.Machine.execEret s
  | .checkerr d => Sys2Proof.Machine.execCheckerr d s
  | .brkpt => Sys2Proof.Machine.execBrkpt s
  | .trace a => Sys2Proof.Machine.execTrace a s
  | .pair => Sys2Proof.Machine.execPair s
  | .unpair => Sys2Proof.Machine.execUnpair s
  | .wfe => Sys2Proof.Machine.execWfe s
  | .gate a d => Sys2Proof.Machine.execGate a d s
  | .gstat a d => Sys2Proof.Machine.execGstat a d s
  | .cAddi r imm => Sys2Proof.Machine.execCAddi r imm s
  | .cLi r imm => Sys2Proof.Machine.execCLi r imm s
  | .cMv r y => Sys2Proof.Machine.execCMv r y s
  | .cAdd r y => Sys2Proof.Machine.execCAdd r y s
  | .cSub r y => Sys2Proof.Machine.execCSub r y s
  | .cAnd r y => Sys2Proof.Machine.execCAnd r y s
  | .cLd o a d => Sys2Proof.Machine.execCLd o a d s
  | .cSd o a y => Sys2Proof.Machine.execCSd o a y s
  | .cBeqz a o => Sys2Proof.Machine.execCBeqz a o s
  | .cBnez a o => Sys2Proof.Machine.execCBnez a o s
  | .cJ o => Sys2Proof.Machine.execCJ o s
  | .cQput q r => Sys2Proof.Machine.execCQput q r s
  | .cQget q r => Sys2Proof.Machine.execCQget q r s
  | .cNop => Sys2Proof.Machine.execCNop s
  | .cEnd => Sys2Proof.Machine.execCEnd s
  | .cStop => Sys2Proof.Machine.execCStop s
  | .cBrk => Sys2Proof.Machine.execCBrk s
  | .asyncTrapTake core => Sys2Proof.Machine.execAsyncTrapTake core s
  | .tstatSave core => Sys2Proof.Machine.execTstatSave core s
  | .tstatRestore core => Sys2Proof.Machine.execTstatRestore core s
  | .saveComplete core ok => Sys2Proof.Machine.execSaveComplete core ok s
  | .restoreComplete core ok => Sys2Proof.Machine.execRestoreComplete core ok s
  | .parktoExpiry core => Sys2Proof.Machine.execParktoExpiry core s
  | .contextDestroyComplete ctx => Sys2Proof.Machine.execContextDestroyComplete ctx s
  | .slotTableWrite core rec => Sys2Proof.Machine.execSlotTableWrite core rec s
  | .apexSchedule core => Sys2Proof.Machine.execApexSchedule core s
  | .lqEnable fn n => Sys2Proof.Machine.execLqEnable fn n s
  | .lqDisable fn n => Sys2Proof.Machine.execLqDisable fn n s
  | .lqtailWrite fn n v => Sys2Proof.Machine.execLqtailWrite fn n v s
  | .queueSwitchIn fn n => Sys2Proof.Machine.execQueueSwitchIn fn n s
  | .queueSwitchOut fn n => Sys2Proof.Machine.execQueueSwitchOut fn n s
  | .entryAccept fn n => Sys2Proof.Machine.execEntryAccept fn n s
  | .launch seq => Sys2Proof.Machine.execLaunch seq s
  | .maproot seq => Sys2Proof.Machine.execMaproot seq s
  | .reclaim seq => Sys2Proof.Machine.execReclaim seq s
  | .query seq => Sys2Proof.Machine.execQuery seq s
  | .commandComplete seq => Sys2Proof.Machine.execCommandComplete seq s
  | .periodBoundary => Sys2Proof.Machine.execPeriodBoundary s
  | .budgetExhausted acct => Sys2Proof.Machine.execBudgetExhausted acct s
  | .messageArrival k => Sys2Proof.Machine.execMessageArrival k s
  | .messageDelivery core slot => Sys2Proof.Machine.execMessageDelivery core slot s
  | .actorFire core => Sys2Proof.Machine.execActorFire core s
  | .floorPublish => Sys2Proof.Machine.execFloorPublish s
  | .outboxDepart core => Sys2Proof.Machine.execOutboxDepart core s
  | .endOutboxDrained core => Sys2Proof.Machine.execEndOutboxDrained core s
  | .nestJoinArrival k => Sys2Proof.Machine.execNestJoinArrival k s
  | .nestClaimServe ctx g => Sys2Proof.Machine.execNestClaimServe ctx g s
  | .loopGrantArrival k => Sys2Proof.Machine.execLoopGrantArrival k s
  | .loopLeave k => Sys2Proof.Machine.execLoopLeave k s
  | .barrierArrival k => Sys2Proof.Machine.execBarrierArrival k s
  | .barrierAbort k => Sys2Proof.Machine.execBarrierAbort k s
  | .barrierNotice k => Sys2Proof.Machine.execBarrierNotice k s
  | .matrixCommandStart core n => Sys2Proof.Machine.execMatrixCommandStart core n s
  | .mldbLoadDone core n => Sys2Proof.Machine.execMldbLoadDone core n s
  | .tileForwardArrival k => Sys2Proof.Machine.execTileForwardArrival k s
  | .matrixCommandComplete core n rows => Sys2Proof.Machine.execMatrixCommandComplete core n rows s
  | .matrixTokenPlace core n => Sys2Proof.Machine.execMatrixTokenPlace core n s
  | .copyComplete core n granules => Sys2Proof.Machine.execCopyComplete core n granules s
  | .journalSend core n => Sys2Proof.Machine.execJournalSend core n s
  | .journalAck core n => Sys2Proof.Machine.execJournalAck core n s
  | .journalRefusal core n => Sys2Proof.Machine.execJournalRefusal core n s
  | .psjeSelect core v => Sys2Proof.Machine.execPsjeSelect core v s
  | .psjeDismiss core v => Sys2Proof.Machine.execPsjeDismiss core v s
  | .leaseGrant acc => Sys2Proof.Machine.execLeaseGrant acc s
  | .homeWritePerform acc => Sys2Proof.Machine.execHomeWritePerform acc s
  | .l1LeaseExpiry core line => Sys2Proof.Machine.execL1LeaseExpiry core line s
  | .locusMap n => Sys2Proof.Machine.execLocusMap n s
  | .locusGrant n => Sys2Proof.Machine.execLocusGrant n s
  | .locusUnmap n => Sys2Proof.Machine.execLocusUnmap n s
  | .locusRelease n => Sys2Proof.Machine.execLocusRelease n s
  | .locusAccept n => Sys2Proof.Machine.execLocusAccept n s
  | .revokeCut n target => Sys2Proof.Machine.execRevokeCut n target s
  | .shootdown n core => Sys2Proof.Machine.execShootdown n core s
  | .shootdownAck n core => Sys2Proof.Machine.execShootdownAck n core s
  | .locusPhaseEnd n => Sys2Proof.Machine.execLocusPhaseEnd n s
  | .mxuPark acc => Sys2Proof.Machine.execMxuPark acc s
  | .faultRecordWrite mxu => Sys2Proof.Machine.execFaultRecordWrite mxu s
  | .replay mxu v => Sys2Proof.Machine.execReplay mxu v s
  | .rqtailWrite mxu v => Sys2Proof.Machine.execRqtailWrite mxu v s
  | .fill mxu ok data => Sys2Proof.Machine.execFill mxu ok data s
  | .evict mxu => Sys2Proof.Machine.execEvict mxu s
  | .pin mxu => Sys2Proof.Machine.execPin mxu s
  | .unpin mxu => Sys2Proof.Machine.execUnpin mxu s
  | .evictCopyoutDone mxu ok => Sys2Proof.Machine.execEvictCopyoutDone mxu ok s
  | .mxstatRead mxu => Sys2Proof.Machine.execMxstatRead mxu s
  | .fgbWrite acct v => Sys2Proof.Machine.execFgbWrite acct v s
  | .translationCompletion page pa len rd wr => Sys2Proof.Machine.execTranslationCompletion page pa len rd wr s
  | .prgResponse page code => Sys2Proof.Machine.execPrgResponse page code s
  | .atsInvalidationRequest rid pasid base len => Sys2Proof.Machine.execAtsInvalidationRequest rid pasid base len s
  | .invalidationCompletion => Sys2Proof.Machine.execInvalidationCompletion s
  | .errorCorrected site => Sys2Proof.Machine.execErrorCorrected site s
  | .errorUncorrectable site => Sys2Proof.Machine.execErrorUncorrectable site s
  | .memoryScrub frame => Sys2Proof.Machine.execMemoryScrub frame s
  | .relayoutGo n v => Sys2Proof.Machine.execRelayoutGo n v s
  | .relayoutRun n => Sys2Proof.Machine.execRelayoutRun n s
  | .intervalClose core => Sys2Proof.Machine.execIntervalClose core s
  | .fingerprintAgree core => Sys2Proof.Machine.execFingerprintAgree core s
  | .fingerprintDisagree core => Sys2Proof.Machine.execFingerprintDisagree core s
  | .tiebreakResult core agrees => Sys2Proof.Machine.execTiebreakResult core agrees s
  | .pairCloseTimeout core => Sys2Proof.Machine.execPairCloseTimeout core s
  | .wcfgConf vf tdi => Sys2Proof.Machine.execWcfgConf vf tdi s
  | .wcfgRetire vf => Sys2Proof.Machine.execWcfgRetire vf s
  | .keySet vf comp key => Sys2Proof.Machine.execKeySet vf comp key s
  | .keyRevoke vf comp => Sys2Proof.Machine.execKeyRevoke vf comp s
  | .tdiError vf => Sys2Proof.Machine.execTdiError vf s
  | .functionLevelReset vf => Sys2Proof.Machine.execFunctionLevelReset vf s
  | .worldRetireComplete vf => Sys2Proof.Machine.execWorldRetireComplete vf s
  | .cxlMemRequest write tbit stream hpa data => Sys2Proof.Machine.execCxlMemRequest write tbit stream hpa data s
  | .cxlH2dSnoop line => Sys2Proof.Machine.execCxlH2dSnoop line s
  | .ideKeySwitch stream => Sys2Proof.Machine.execIdeKeySwitch stream s
  | .hostLinkUp width => Sys2Proof.Machine.execHostLinkUp width s
  | .hostLinkRecovery => Sys2Proof.Machine.execHostLinkRecovery s
  | .hostLinkDown => Sys2Proof.Machine.execHostLinkDown s
  | .skonovPortEnable p => Sys2Proof.Machine.execSkonovPortEnable p s
  | .skonovPortDisable p => Sys2Proof.Machine.execSkonovPortDisable p s
  | .skonovRetrain p => Sys2Proof.Machine.execSkonovRetrain p s
  | .portTrained p lanes => Sys2Proof.Machine.execPortTrained p lanes s
  | .portTrainingTimeout p => Sys2Proof.Machine.execPortTrainingTimeout p s
  | .laneFailure p lane => Sys2Proof.Machine.execLaneFailure p lane s
  | .retrainComplete p => Sys2Proof.Machine.execRetrainComplete p s
  | .flitReceive p flit => Sys2Proof.Machine.execFlitReceive p flit s
  | .flitNak p expected => Sys2Proof.Machine.execFlitNak p expected s
  | .proxyGrant line st num data => Sys2Proof.Machine.execProxyGrant line st num data s
  | .proxyInvalidation line num => Sys2Proof.Machine.execProxyInvalidation line num s
  | .directoryRecall line inv => Sys2Proof.Machine.execDirectoryRecall line inv s
  | .moduleFailed module => Sys2Proof.Machine.execModuleFailed module s
  | .orphrel => Sys2Proof.Machine.execOrphrel s
  | .quiesce => Sys2Proof.Machine.execQuiesce s
  | .quiesceComplete => Sys2Proof.Machine.execQuiesceComplete s
  | .fabricArrival p rctx x y header payload => Sys2Proof.Machine.execFabricArrival p rctx x y header payload s
  | .sessionOpen v => Sys2Proof.Machine.execSessionOpen v s
  | .sessionClose => Sys2Proof.Machine.execSessionClose s
  | .dbgStop => Sys2Proof.Machine.execDbgStop s
  | .dbgResume v => Sys2Proof.Machine.execDbgResume v s
  | .dbgStep v => Sys2Proof.Machine.execDbgStep v s
  | .freezeComplete => Sys2Proof.Machine.execFreezeComplete s
  | .stopTimeout => Sys2Proof.Machine.execStopTimeout s
  | .stepComplete => Sys2Proof.Machine.execStepComplete s
  | .stepTimeout => Sys2Proof.Machine.execStepTimeout s
  | .comparatorConfig n v => Sys2Proof.Machine.execComparatorConfig n v s
  | .traceSample core => Sys2Proof.Machine.execTraceSample core s
  | .counterSelect fn v => Sys2Proof.Machine.execCounterSelect fn v s
  | .replayInject fn => Sys2Proof.Machine.execReplayInject fn s
  | .freezeAssert => Sys2Proof.Machine.execFreezeAssert s
  | .freezeRelease fabricTime => Sys2Proof.Machine.execFreezeRelease fabricTime s
  | .scanRead orphan la => Sys2Proof.Machine.execScanRead orphan la s
  | .deviceReset passed trained signed => Sys2Proof.Machine.execDeviceReset passed trained signed s
  | .pcapwWrite v => Sys2Proof.Machine.execPcapwWrite v s
  | .pcapwinWrite v => Sys2Proof.Machine.execPcapwinWrite v s
  | .powerSample watts => Sys2Proof.Machine.execPowerSample watts s
  | .powerAdjust gate => Sys2Proof.Machine.execPowerAdjust gate s
  | .powerWindowEnd avg => Sys2Proof.Machine.execPowerWindowEnd avg s
  | .thermRead => Sys2Proof.Machine.execThermRead s
  | .thermalThrottle t0 t1 gate => Sys2Proof.Machine.execThermalThrottle t0 t1 gate s
  | .thermalFreeze t0 t1 => Sys2Proof.Machine.execThermalFreeze t0 t1 s
  | .thermalTrip t0 t1 => Sys2Proof.Machine.execThermalTrip t0 t1 s
  | .thermalRecover t0 t1 => Sys2Proof.Machine.execThermalRecover t0 t1 s
  | .errorRecordWrite => Sys2Proof.Machine.execErrorRecordWrite s
  | .registerWrite fn bar off v => Sys2Proof.Machine.execRegisterWrite fn bar off v s
  | .unassignedEncoding w => Sys2Proof.Machine.execUnassignedEncoding w s
  | .accessReachesTarget acc ok => Sys2Proof.Machine.execAccessReachesTarget acc ok s
  | .nonPostedCompletion acc ok data => Sys2Proof.Machine.execNonPostedCompletion acc ok data s
  | .birspArrival line => Sys2Proof.Machine.execBirspArrival line s
  | .pcieCompletionTimeout acc => Sys2Proof.Machine.execPcieCompletionTimeout acc s
  | .priEnableWrite fn => Sys2Proof.Machine.execPriEnableWrite fn s

end Sys2Proof.Machine
end

