-- ==== Sys2Proof/Machine/Outside.lean ====
section
/-! DEFINITION. What reaches the module from outside and is no row of the opcode table: the host's configuration writes, TDISP, SPDM,
AtomicOps that target a BAR, other modules, and a power cycle (R307, R357, R359, R390, R404, R407, R416, R419, R451; log 130). -/
namespace Sys2Proof.Machine

/-- The completion of an AtomicOp that targets a BAR: Unsupported Request (R407). -/
def unsupported (fn addr : Nat) : List Byte := leBytes 1 1 ++ leBytes 2 fn ++ leBytes 8 addr

/-- What an input from outside does. Without power only a power cycle has an effect, after which boot begins anew (R445, R451); while FREEZE
stops the clocks none has (R444). -/
def State.outside (s : State) (x : Outside) : State :=
  match x with
  | .powerCycle => s.cleared
  | .capability fn k => if s.powered && !s.freeze then s.capWrite fn k else s
  | .tdi vf st => if s.powered && !s.freeze then s.tdiTo vf st else s
  | .spdm fn n nonce => if s.powered && !s.freeze && fn ≤ 128 then s.spdm n nonce else s
  | .barAtomic fn addr => if s.powered && !s.freeze then { s with sent := s.sent ++ [unsupported fn addr] } else s
  | .remoteGrant module line alone => if s.powered && !s.freeze then s.grantRemote module line alone else s
  | .remoteAck line data => if s.powered && !s.freeze then s.remoteAnswer line data else s
  | .moduleReturned module => if s.powered && !s.freeze then s.moduleBack module else s

end Sys2Proof.Machine
end

