-- ==== Sys2Proof/Machine/Program.lean ====
section
/-! DEFINITION. A program placed for the next step (log 4). -/
namespace Sys2Proof.Machine

/-- The context of a program placed from outside: the physical function's root, whose space is the identity (R319). -/
def placeCtx : Nat := 0x8000_0000

/-- The address where a placed program begins: frame 1 of main memory. -/
def placeAt : Nat := 0x1000

/-- The trigger of a placed program's activation: an outside input with every field zero. -/
def placeTrigger : Msg := mkMsg 0 0 0 0 0 0 0 0 0 []

/-- The state in which the instruction of bits `w` is the next one run: what binding a context, filling a frame and firing
an actor would have left (log 4). An instruction that only a micro-thread may run is given to m0 as fetched code. -/
def State.placeProgram (s : State) (nbits w : Nat) : State :=
  let v := w % 2 ^ nbits
  let bytes := leBytes 4 v
  let onMt := match decodeTableWord nbits w with
    | some i => decide (kindOf i = .mt)
    | none => false
  let b0 := s.bind placeCtx 0
  let b1 : Bind := { b0 with
    st := .bound, pc := w64 placeAt, act := some ⟨0, 0, true, 0, false, 0, 0, placeTrigger⟩, endWait := false, held := false,
    waits := false, pend := [], loop := none, pendBits := 0, code := putBytes b0.code placeAt bytes,
    codeFrames := placeAt / 4096 :: b0.codeFrames }
  let b2 := b1.modMt 0 (fun m => { m with pc := w64 placeAt, run := .fetched, held := false, waits := false, pend := [] })
  let s1 : State := { s with
    focus := ⟨0, b2n onMt⟩, agenda := [], mem := putBytes s.mem placeAt bytes, freeze := false, powered := true
    dbg := { s.dbg with mode := 0, thermal := false } }
  let s2 := s1.modFrame (placeAt / 4096) (fun r => { r with st := .resident })
  let s3 := s2.modCtx placeCtx (fun k => { k with st := .live })
  let s4 := s3.modCore 0 (fun k => { k with ctx := some placeCtx, hmode := false, icache := [placeAt / 128], pair := { k.pair with partner := false } })
  s4.setBind placeCtx 0 (if onMt then b2 else b1)

end Sys2Proof.Machine
end

