-- ==== Sys2Proof/Machine/Step.lean ====
section
/-! DEFINITION. One step of the machine, as the schedule orders it (log 1): a device step, an instruction of a thread, time
that passes, the host's own write, or another outside input; with nothing scheduled, the focused thread runs its next instruction. -/
namespace Sys2Proof.Machine

/-- One instruction of the focused thread. -/
def turn (s : State) : Host.Outcome State Fault Refusal :=
  match s.fetch with
  | .idle t => .next t
  | .instr t i => exec i t

/-- One step. -/
def step (s : State) : Host.Outcome State Fault Refusal :=
  match s.agenda with
  | [] => turn s
  | .event i :: t => if kindOf i = .dev then exec i { s with agenda := t } else .next { s with agenda := t }
  | .turn c n :: t => turn { s with agenda := t, focus := ⟨c, n⟩ }
  | .elapse ns :: t => .next ({ s with agenda := t }.elapse ns)
  | .host a bs :: t => .next { s with agenda := t, host := putBytes s.host a bs }
  | .outside x :: t => .next (({ s with agenda := t } : State).outside x)

/-- The state with the instruction of bits `w` placed where the next step fetches (log 4). -/
def State.withFetchWord (s : State) (nbits w : Nat) : State := s.placeProgram nbits w

end Sys2Proof.Machine
end

