-- ==== Sys2Proof/Safety.lean ====
section
/-! DEFINITION. What a safe run is, and the words that statements about the machine use: when an instruction issues, what
finishing one changes, and that it changes nothing else. -/
namespace Sys2Proof.Machine

/-- A step of the machine from `s` answers a next state. -/
def State.advances (s : State) : Prop := ∃ t, step s = .next t

/-- The first `n` steps from `s` all answer a next state. -/
def safeFor : Nat → State → Prop
  | 0, _ => True
  | n + 1, s => ∃ t, step s = .next t ∧ safeFor n t

/-- The prologue lets an instruction of the focused thread issue: the thread may run, no breakpoint matches, the encoding is
legal there, and no outstanding load holds it back (R78, R83, R90, R93, R424). -/
abbrev Issues (i : Instr) (s : State) : Prop := issue i s = .go

/-- No close of a pair holds the instruction (R383): the core is not paired, or has agreed here; of a partner its primary's close
counts (R387). -/
abbrev Closed (f : Focus) (s : State) : Prop :=
  s.forceClose (if (s.core f.core).pair.partner then ⟨f.core - 1, f.thr⟩ else f) = none

/-- The module has power and its clocks run (R444, R451). -/
abbrev Alive (s : State) : Prop := s.powered = true ∧ s.freeze = false

/-! ## What an instruction leaves alone -/

/-- A micro-thread without what executing an instruction changes by itself: its general registers, program counter, run state,
block, count of instructions, comparator pass, outstanding loads, fingerprint, and whether it is to stop at its next boundary. -/
def Mt.blank (m : Mt) : Mt :=
  { m with w := [], pc := 0, run := .stopped, block := [], retired := 0, skip := false, pend := [], halt := false, crc := 0 }

/-- The same of the control thread, whose iteration fetcher belongs to its program counter (R200). -/
def Bind.blank (b : Bind) : Bind :=
  { b with x := [], pc := 0, retired := 0, skip := false, cnt := Counters.zero, pend := [], loop := none, i := [], views := [], crc := 0 }

/-- A core without what executing an instruction of its control thread changes by itself: the handler's program counter and registers,
and what a loop of a paired core sends once its interval has agreed (R384). -/
def Core.blank (k : Core) : Core := { k with hpc := 0, hx := [], pair := { k.pair with out := [], closing := false } }

/-- The state without what executing an instruction of a thread changes by itself. Two states with equal blanks agree in every
other register of every thread, context and core, in every special register, and in all of memory. -/
def State.blank (f : Focus) (s : State) : State :=
  let s1 : State := { s with net := [], dbg := { s.dbg with stepped := [] } }
  if f.thr = 0 then (s1.modCur f.core Bind.blank).modCore f.core Core.blank
  else s1.modCur f.core (fun b => { b.modMt (f.thr - 1) Mt.blank with wfe := false, cnt := Counters.zero })

/-- Nothing changes but what executing an instruction changes by itself; outside a loop nothing is sent and the iteration
fetcher stays as it is. -/
def Kept (f : Focus) (s t : State) : Prop :=
  t.blank f = s.blank f ∧
    ((s.cur f.core).loop = none →
      t.net = s.net ∧ (t.cur f.core).loop = none ∧ (t.cur f.core).i = (s.cur f.core).i ∧
        (t.cur f.core).views = (s.cur f.core).views ∧ (t.core f.core).pair = (s.core f.core).pair)

/-- Register `d` of the thread takes a value, unless it is register 0, which reads as zero; every other register of it keeps
its own (R91). -/
def SetsReg (f : Focus) (d : Nat) (v : Word) (s t : State) : Prop :=
  ∀ r, t.rd f r = if r = 0 then 0 else if r = d then v else s.rd f r

/-- Control goes to an address, unless the iteration fetcher of a loop has its say (R200). -/
def GoesTo (f : Focus) (target : Word) (s t : State) : Prop :=
  (f.thr ≠ 0 ∨ s.inHandler f = true ∨ (s.cur f.core).loop = none) → t.pcOf f = target

/-- The thread has executed one more instruction; the handler does not count (R92, R134). -/
def Counts (f : Focus) (s t : State) : Prop :=
  if f.thr = 0 then (t.cur f.core).retired = (s.cur f.core).retired + (if s.inHandler f then 0 else 1)
  else ((t.cur f.core).mt (f.thr - 1)).retired = ((s.cur f.core).mt (f.thr - 1)).retired + 1

/-- An instruction that writes register `d`, goes to `target`, and does nothing else. -/
def Writes (f : Focus) (target : Word) (d : Nat) (v : Word) (s t : State) : Prop :=
  SetsReg f d v s t ∧ GoesTo f target s t ∧ Counts f s t ∧ Kept f s t

/-- The same with the next instruction `len` bytes on. -/
abbrev Finishes (f : Focus) (len d : Nat) (v : Word) (s t : State) : Prop := Writes f (s.pcOf f + w64 len) d v s t

/-- An instruction that writes no general register, goes to `target`, and does nothing else. -/
abbrev Passes (f : Focus) (target : Word) (s t : State) : Prop := Writes f target 0 0 s t

/-! ## Data accesses -/

/-- A data access of `n` bytes at `va`, outside the handler, passes every check (R90): alignment, passages, rights and classes,
watchpoints; and `va` translates to `x`. `right` and `kind` are the right and the passage it needs, `dir` what a watchpoint would
see (0 a load, 1 a store, 2 both), `tombOk` whether a tombstone is no exact fault (R324). -/
abbrev Reaches (f : Focus) (n right kind dir : Nat) (tombOk : Bool) (va : Word) (x : Xlat) (s : State) : Prop :=
  s.inHandler f = false ∧
    s.accessCause f.core (s.ctxOf f.core) va.toNat n n right kind tombOk = none ∧
    s.watchHit f va.toNat n dir = none ∧
    s.look f.core (s.ctxOf f.core) va.toNat = .hit x

/-- The value of a list of bytes, the first being the least significant (R3). -/
def littleEndian : List Byte → Nat
  | [] => 0
  | b :: t => b.toNat + 256 * littleEndian t

/-- What a load of `n` bytes delivers for the number they hold (R295). -/
def loaded (signed : Bool) (n v : Nat) : Word := if signed then wInt (BitVec.ofNat (8 * n) v).toInt else w64 v

/-- The `n` bytes at a logical address hold a number, least significant byte first. -/
abbrev Holds (s : State) (la n v : Nat) : Prop := ∀ k < n, s.byteAt (la + k) = BitVec.ofNat 8 (v / 256 ^ k)

/-- Every byte of memory outside `n` bytes at `la` reads as before. -/
def ElsewhereSame (la n : Nat) (s t : State) : Prop := ∀ a, a < la ∨ la + n ≤ a → t.byteAt a = s.byteAt a

/-! ## Vector registers (R223 to R225) -/

/-- An instruction of a micro-thread that only writes vector register `d` (R225): its active elements, of `fmtBytes fd` bytes in the
first `rows` rows and `cols` columns, are the `e r j`; every other byte of the register and its scale column stay; the tag is the
one given. Nothing else changes. -/
def WritesVector (f : Focus) (d fd rows cols : Nat) (tag : BitVec 16) (e : Nat → Nat → Nat) (s t : State) : Prop :=
  let w := fmtBytes fd
  let old := (s.mtOf f).vreg d
  let new := (t.mtOf f).vreg d
  new.tag = tag ∧
    (∀ r < rows, ∀ j < cols, new.elem w r j = e r j % 2 ^ (8 * w)) ∧
    (∀ r < 32, ∀ k < 64, ¬(r < rows ∧ k < cols * w) → new.byte (64 * r + k) = old.byte (64 * r + k)) ∧
    (∀ r < 32, new.scaleByte r = old.scaleByte r) ∧
    (∀ n, n ≠ d → (t.mtOf f).vreg n = (s.mtOf f).vreg n) ∧
    (∀ k, t.rd f k = s.rd f k) ∧ GoesTo f (s.pcOf f + 4) s t ∧ Counts f s t ∧ t.mem = s.mem ∧ t.host = s.host

/-- The tag of a result (R55, R58, R225): POISON of the sources, and the old one's where bytes of the register stay. -/
def resultTag (old : VReg) (fd planes : Nat) (scaled sources : Bool) (written : Nat) : BitVec 16 :=
  mkTag fd planes scaled (sources || (decide (written < 2048) && old.poison))

end Sys2Proof.Machine
end

