-- ==== Sys2Proof/Certificates/Slice0/Obligations.lean ====
section
/-! DEFINITION. The statements about this model that provers are asked to prove. `Issues i s` says that the prologue lets the
focused thread issue `i` (R78, R83, R90, R93, R424); `Alive s` that the module has power and its clocks run. -/

open Sys2Proof Sys2Proof.Machine

/-! ## Scalar instructions (chapter 05) -/

/-- Register-register arithmetic and logic (R95): each of the thirteen instructions answers a next state in which the destination
holds the result that the entry gives, register 0 still reads as zero, control goes on by four bytes, the instruction counts, and
nothing else changes. -/
def Obligations.AluRegisterResults : Prop :=
  ∀ (b a d : Reg) (s : State),
    let f := s.focus
    let x := s.rd f a.toNat
    let y := s.rd f b.toNat
    let n := y.toNat % 64
    ∀ p ∈ [
      (Instr.add b a d, w64 (x.toNat + y.toNat)),
      (Instr.sub b a d, wInt (x.toInt - y.toInt)),
      (Instr.sll b a d, w64 (x.toNat * 2 ^ n)),
      (Instr.slt b a d, if x.toInt < y.toInt then 1 else 0),
      (Instr.sltu b a d, if x.toNat < y.toNat then 1 else 0),
      (Instr.xor b a d, x ^^^ y),
      (Instr.srl b a d, w64 (x.toNat / 2 ^ n)),
      (Instr.sra b a d, wInt (x.toInt / 2 ^ n)),
      (Instr.and b a d, x &&& y),
      (Instr.or b a d, x ||| y),
      (Instr.andn b a d, x &&& ~~~y),
      (Instr.orn b a d, x ||| ~~~y),
      (Instr.xnor b a d, ~~~(x ^^^ y))],
    Issues p.1 s → ∃ t, exec p.1 s = .next t ∧ Finishes f 4 d.toNat p.2 s t

/-- Register-immediate arithmetic and logic (R96) and the two upper-immediate forms (R97): results as the entries give them, and
nothing else changes. -/
def Obligations.AluImmediateResults : Prop :=
  ∀ (i : BitVec 12) (h : BitVec 6) (u : BitVec 20) (a d : Reg) (s : State),
    let f := s.focus
    let x := s.rd f a.toNat
    let k := i.toInt
    let top := ((u.toInt * 2 ^ 12 : Int))
    ∀ p ∈ [
      (Instr.addi i a d, wInt (x.toInt + k)),
      (Instr.slti i a d, if x.toInt < k then 1 else 0),
      (Instr.sltiu i a d, if x.toNat < (wInt k).toNat then 1 else 0),
      (Instr.xori i a d, x ^^^ wInt k),
      (Instr.ori i a d, x ||| wInt k),
      (Instr.andi i a d, x &&& wInt k),
      (Instr.slli h a d, w64 (x.toNat * 2 ^ h.toNat)),
      (Instr.srli h a d, w64 (x.toNat / 2 ^ h.toNat)),
      (Instr.srai h a d, wInt (x.toInt / 2 ^ h.toNat)),
      (Instr.lui u d, wInt top),
      (Instr.auipc u d, wInt ((s.pcOf f).toInt + top))],
    Issues p.1 s → ∃ t, exec p.1 s = .next t ∧ Finishes f 4 d.toNat p.2 s t

/-- Multiplication and division (R98), with a divisor of zero and the one signed overflow as the entry gives them.

Minima, maxima, counts and bit reversal (R99): of CLZ and CTZ the count is the one that the highest and the lowest 1 bit
leave; BREV puts bit 63 − j at bit j. -/
def Obligations.MulDivAndBitResults : Prop :=
  (∀ (b a d : Reg) (s : State),
      let f := s.focus
      let x := s.rd f a.toNat
      let y := s.rd f b.toNat
      ∀ p ∈ [
        (Instr.mul b a d, wInt (x.toInt * y.toInt)),
        (Instr.mulh b a d, wInt (x.toInt * y.toInt / 2 ^ 64)),
        (Instr.mulhsu b a d, wInt (x.toInt * (y.toNat : Int) / 2 ^ 64)),
        (Instr.mulhu b a d, w64 (x.toNat * y.toNat / 2 ^ 64)),
        (Instr.div b a d, if y.toNat = 0 then 0xFFFF_FFFF_FFFF_FFFF else if x.toInt = -2 ^ 63 ∧ y.toInt = -1 then x
          else wInt (x.toInt.tdiv y.toInt)),
        (Instr.divu b a d, if y.toNat = 0 then 0xFFFF_FFFF_FFFF_FFFF else w64 (x.toNat / y.toNat)),
        (Instr.rem b a d, if y.toNat = 0 then x else if x.toInt = -2 ^ 63 ∧ y.toInt = -1 then 0
          else wInt (x.toInt - y.toInt * x.toInt.tdiv y.toInt)),
        (Instr.remu b a d, if y.toNat = 0 then x else w64 (x.toNat % y.toNat))],
      Issues p.1 s → ∃ t, exec p.1 s = .next t ∧ Finishes f 4 d.toNat p.2 s t) ∧
  (∀ (b a d : Reg) (s : State),
      let f := s.focus
      let x := s.rd f a.toNat
      let y := s.rd f b.toNat
      (∀ p ∈ [
        (Instr.min b a d, if x.toInt ≤ y.toInt then x else y),
        (Instr.max b a d, if x.toInt ≥ y.toInt then x else y),
        (Instr.minu b a d, if x.toNat ≤ y.toNat then x else y),
        (Instr.maxu b a d, if x.toNat ≥ y.toNat then x else y)],
        Issues p.1 s → ∃ t, exec p.1 s = .next t ∧ Finishes f 4 d.toNat p.2 s t) ∧
      (Issues (.clz a d) s → ∃ t n, exec (.clz a d) s = .next t ∧ Finishes f 4 d.toNat (w64 n) s t ∧ n ≤ 64 ∧
        (∀ j < 64, 64 - n ≤ j → x.getLsbD j = false) ∧ (n < 64 → x.getLsbD (63 - n) = true)) ∧
      (Issues (.ctz a d) s → ∃ t n, exec (.ctz a d) s = .next t ∧ Finishes f 4 d.toNat (w64 n) s t ∧ n ≤ 64 ∧
        (∀ j < n, x.getLsbD j = false) ∧ (n < 64 → x.getLsbD n = true)) ∧
      (Issues (.popc a d) s → ∃ t, exec (.popc a d) s = .next t ∧
        Finishes f 4 d.toNat (w64 ((List.range 64).countP (fun j => x.getLsbD j))) s t) ∧
      (Issues (.brev a d) s → ∃ t v, exec (.brev a d) s = .next t ∧ Finishes f 4 d.toNat v s t ∧
        ∀ j < 64, v.getLsbD j = x.getLsbD (63 - j)))

/-- Branches (R100): taken, control goes to the branch's own address plus the offset; not taken, to the next instruction. Jumps
(R101, R102): the link is the address of the next instruction; the target of JALR comes from the register's old value, and an odd
target is MISALIGN, which writes no register. -/
def Obligations.BranchesAndJumps : Prop :=
  ∀ (o : BitVec 12) (j : BitVec 20) (b a d : Reg) (s : State),
    let f := s.focus
    let x := s.rd f a.toNat
    let y := s.rd f b.toNat
    let pc := s.pcOf f
    let target := x + wInt o.toInt
    (∀ p ∈ [
      (Instr.beq o b a, decide (x = y)), (Instr.bne o b a, decide (x ≠ y)),
      (Instr.blt o b a, decide (x.toInt < y.toInt)), (Instr.bge o b a, decide (x.toInt ≥ y.toInt)),
      (Instr.bltu o b a, decide (x.toNat < y.toNat)), (Instr.bgeu o b a, decide (x.toNat ≥ y.toNat))],
      Issues p.1 s → ∃ t, exec p.1 s = .next t ∧ Passes f (if p.2 then pc + wInt (2 * o.toInt) else pc + 4) s t) ∧
    (Issues (.jal j d) s → ∃ t, exec (.jal j d) s = .next t ∧ Writes f (pc + wInt (2 * j.toInt)) d.toNat (pc + 4) s t) ∧
    (Issues (.jalr o a d) s → target.getLsbD 0 = false →
      ∃ t, exec (.jalr o a d) s = .next t ∧ Writes f target d.toNat (pc + 4) s t) ∧
    (Issues (.jalr o a d) s → target.getLsbD 0 = true → s.pendOf f = [] →
      exec (.jalr o a d) s = .next (s.exact f 4 cMisalign target))

/-- Operand-extension registers (R104): SETE and SETEI write one, GETE reads one or an index register; no general register
changes where none is named, and no other e-register changes.

The 16-bit scalar forms (R85, R113): each is two bytes long and does what its 32-bit counterpart does. -/
def Obligations.ExtensionAndShortForms : Prop :=
  (∀ (i : BitVec 12) (n : BitVec 2) (a d : Reg) (s : State),
      let f := s.focus
      (∀ p ∈ [(Instr.sete a d, s.rd f a.toNat), (Instr.setei i d, wInt i.toInt)],
        Issues p.1 s → ∃ t, exec p.1 s = .next t ∧ Passes f (s.pcOf f + 4) (s.wrE f d.toNat p.2) t ∧
          t.mem = s.mem ∧ ∀ r, t.rd f r = s.rd f r ∧ t.rdE f r = if r = d.toNat then p.2 else s.rdE f r) ∧
      (∀ p ∈ [(Instr.gete a d, s.rdE f a.toNat), (Instr.geteI n d, SMap.get 0 (s.cur f.core).i n.toNat)],
        Issues p.1 s → ∃ t, exec p.1 s = .next t ∧ Finishes f 4 d.toNat p.2 s t)) ∧
  (∀ (r x : Reg) (i : BitVec 6) (q : BitVec 3) (o : BitVec 8) (j : BitVec 12) (s : State),
      let f := s.focus
      let v := s.rd f r.toNat
      let w := s.rd f x.toNat
      let z := s.rd f (8 + q.toNat)
      let pc := s.pcOf f
      (∀ p ∈ [
        (Instr.cAddi r i, wInt (v.toInt + i.toInt)), (Instr.cLi r i, wInt i.toInt), (Instr.cMv r x, w),
        (Instr.cAdd r x, w64 (v.toNat + w.toNat)), (Instr.cSub r x, wInt (v.toInt - w.toInt)), (Instr.cAnd r x, v &&& w)],
        Issues p.1 s → ∃ t, exec p.1 s = .next t ∧ Finishes f 2 r.toNat p.2 s t) ∧
      (Issues (.cBeqz q o) s → ∃ t, exec (.cBeqz q o) s = .next t ∧
        Passes f (if z = 0 then pc + wInt (2 * o.toInt) else pc + 2) s t) ∧
      (Issues (.cBnez q o) s → ∃ t, exec (.cBnez q o) s = .next t ∧
        Passes f (if z = 0 then pc + 2 else pc + wInt (2 * o.toInt)) s t) ∧
      (Issues (.cJ j) s → ∃ t, exec (.cJ j) s = .next t ∧ Passes f (pc + wInt (2 * j.toInt)) s t) ∧
      (Issues .cNop s → ∃ t, exec .cNop s = .next t ∧ Passes f (pc + 2) s t))

/-! ## Memory (chapters 14 and 15) -/

/-- A load that finds its bytes in a scratch bank of its own core (R289, R295): they are read as one number, least significant byte
first, extended as the instruction says; a poisoned granule sets the thread's bit of CHKI (R372). Nothing else changes. -/
def Obligations.LoadsFromOwnBank : Prop :=
  ∀ (o : BitVec 12) (q : BitVec 6) (a d : Reg) (a' d' : BitVec 3) (x : Xlat) (s : State),
    let f := s.focus
    ∀ p ∈ [
      (Instr.lb o a d, a.toNat, o.toInt, d.toNat, 1, true, 4), (Instr.lh o a d, a.toNat, o.toInt, d.toNat, 2, true, 4),
      (Instr.lw o a d, a.toNat, o.toInt, d.toNat, 4, true, 4), (Instr.ld o a d, a.toNat, o.toInt, d.toNat, 8, true, 4),
      (Instr.lbu o a d, a.toNat, o.toInt, d.toNat, 1, false, 4), (Instr.lhu o a d, a.toNat, o.toInt, d.toNat, 2, false, 4),
      (Instr.lwu o a d, a.toNat, o.toInt, d.toNat, 4, false, 4),
      (Instr.cLd q a' d', 8 + a'.toNat, 8 * (q.toNat : Int), 8 + d'.toNat, 8, true, 2)],
    let (i, base, off, dst, n, signed, len) := p
    Issues i s → Reaches f n rRead kRead 0 false (s.rd f base + wInt off) x s → isOwnBank f.core x.la = true →
      (∀ k < n, (s.openJournal f.core).newestFor (x.la + k) = none) → (x.attr ≠ 0 ∨ s.soBusy f = false) →
      s.readBehind f x.la n = false →
      (s.poisoned x.la n = true → s.pendOf f = []) →
      ∃ t, exec i s = .next t ∧
        Finishes f len dst (loaded signed n (littleEndian (s.bytesAt x.la n)))
          (s.chkiIf f.core (if f.thr = 0 then 0 else 1) (s.poisoned x.la n)) t

/-- A load sees the stores that its own core has posted (R291): where the newest live journal entries that have not performed hold
every byte, those bytes are delivered with their poison (R58) and no access leaves. In the handler (R134) a load reads the resident region. -/
def Obligations.LoadsSeeTheirOwnStores : Prop :=
  ∀ (o : BitVec 12) (q : BitVec 6) (a d : Reg) (a' d' : BitVec 3) (x : Xlat) (s : State),
    let f := s.focus
    ∀ p ∈ [
      (Instr.lb o a d, a.toNat, o.toInt, d.toNat, 1, true, 4), (Instr.lh o a d, a.toNat, o.toInt, d.toNat, 2, true, 4),
      (Instr.lw o a d, a.toNat, o.toInt, d.toNat, 4, true, 4), (Instr.ld o a d, a.toNat, o.toInt, d.toNat, 8, true, 4),
      (Instr.lbu o a d, a.toNat, o.toInt, d.toNat, 1, false, 4), (Instr.lhu o a d, a.toNat, o.toInt, d.toNat, 2, false, 4),
      (Instr.lwu o a d, a.toNat, o.toInt, d.toNat, 4, false, 4),
      (Instr.cLd q a' d', 8 + a'.toNat, 8 * (q.toNat : Int), 8 + d'.toNat, 8, true, 2)],
    let (i, base, off, dst, n, signed, len) := p
    let va := s.rd f base + wInt off
    (∀ es : List JEntry, Issues i s → Reaches f n rRead kRead 0 false va x s → x.attr ≠ 0 → s.readBehind f x.la n = false →
      es.length = n → (∀ k, k < n → (s.openJournal f.core).newestFor (x.la + k) = es[k]?) →
      (∀ e ∈ es, e.thr = f.thr ∨ (s.openJournal f.core).unsure e = false) → (es.any (·.poison) = true → s.pendOf f = []) →
      ∃ t, exec i s = .next t ∧ t.accs = s.accs ∧
        Finishes f len dst (loaded signed n (littleEndian ((List.range n).map (fun k =>
          ((es[k]?.getD JEntry.free).data.getD (x.la + k - (es[k]?.getD JEntry.free).la) 0)))))
          (s.chkiIf f.core (if f.thr = 0 then 0 else 1) (es.any (·.poison))) t) ∧
    (Issues i s → s.inHandler f = true → va.toNat % n = 0 →
      ∃ t, exec i s = .next t ∧ Finishes f len dst (loaded signed n (littleEndian (s.hbytes va.toNat n))) s t)

/-- A load whose bytes no nearer place holds leaves as one access to its target (R289, R295): the access names the thread, the
addresses and the size; memory and every general register stay as they are until it returns. -/
def Obligations.LoadsLeave : Prop :=
  ∀ (o : BitVec 12) (q : BitVec 6) (a d : Reg) (a' d' : BitVec 3) (x : Xlat) (s : State),
    let f := s.focus
    ∀ p ∈ [
      (Instr.lb o a d, a.toNat, o.toInt, d.toNat, 1), (Instr.lh o a d, a.toNat, o.toInt, d.toNat, 2),
      (Instr.lw o a d, a.toNat, o.toInt, d.toNat, 4), (Instr.ld o a d, a.toNat, o.toInt, d.toNat, 8),
      (Instr.lbu o a d, a.toNat, o.toInt, d.toNat, 1), (Instr.lhu o a d, a.toNat, o.toInt, d.toNat, 2),
      (Instr.lwu o a d, a.toNat, o.toInt, d.toNat, 4), (Instr.cLd q a' d', 8 + a'.toNat, 8 * (q.toNat : Int), 8 + d'.toNat, 8)],
    let (i, base, off, dst, n) := p
    let va := s.rd f base + wInt off
    Issues i s → Reaches f n rRead kRead 0 false va x s → isOwnBank f.core x.la = false →
      (∀ k < n, (s.openJournal f.core).newestFor (x.la + k) = none) → s.l1Copy f.core (x.la / 128) = none →
      (x.attr ≠ 0 ∨ s.soBusy f = false) → s.readBehind f x.la n = false →
      ∃ t r, exec i s = .next t ∧ t.accs = s.accs ++ [r] ∧ r.core = f.core ∧ r.thr = f.thr ∧ r.ctx = s.ctxOf f.core ∧
        r.kind = .load ∧ r.st = .flying ∧ r.va = va ∧ r.la = x.la ∧ r.size = n ∧
        (∀ k, t.rd f k = s.rd f k) ∧ t.mem = s.mem ∧ t.host = s.host ∧
        (∃ w ∈ t.pendOf f, w.acc = r.id ∧ w.dst = dst ∧ w.size = n)

/-- A store to a scratch bank of its own core, unless the core is of a pair, performs at issue (R289, R296): the bytes of the source register stand at the
address, least significant first, every other byte of memory reads as before, a full-bit store sets its granule's full bit, and no
general register changes.

In the handler a store writes the resident region and nothing else (R134): the bytes of the source register read back at the
address, every other byte of the region reads as before. -/
def Obligations.StoresToOwnBank : Prop :=
  (∀ (o : BitVec 12) (q : BitVec 6) (b a : Reg) (a' b' : BitVec 3) (x : Xlat) (s : State),
      let f := s.focus
      ∀ p ∈ [
        (Instr.sb o b a, a.toNat, o.toInt, b.toNat, 1, false, 4), (Instr.sh o b a, a.toNat, o.toInt, b.toNat, 2, false, 4),
        (Instr.sw o b a, a.toNat, o.toInt, b.toNat, 4, false, 4), (Instr.sd o b a, a.toNat, o.toInt, b.toNat, 8, false, 4),
        (Instr.swf o b a, a.toNat, o.toInt, b.toNat, 4, true, 4), (Instr.sdf o b a, a.toNat, o.toInt, b.toNat, 8, true, 4),
        (Instr.cSd q a' b', 8 + a'.toNat, 8 * (q.toNat : Int), 8 + b'.toNat, 8, false, 2)],
      let (i, base, off, src, n, full, len) := p
      Issues i s → Reaches f n rWrite kWrite 1 true (s.rd f base + wInt off) x s → s.storesAtOnce f.core x.la = true →
        s.frameShut (s.ctxOf f.core) x.la = false → s.claimed f.core x.la n = false → (x.attr ≠ 0 ∨ s.soBusy f = false) →
        s.pendOf f = [] →
        ∃ t, exec i s = .next t ∧ Holds t x.la n (s.rd f src).toNat ∧ ElsewhereSame x.la n s t ∧
          (full = true → SMap.get false t.full (x.la / 16) = true) ∧ (full = false → t.full = s.full) ∧
          Passes f (s.pcOf f + w64 len) { s with mem := t.mem, full := t.full, poison := t.poison } t) ∧
  (∀ (o : BitVec 12) (q : BitVec 6) (b a : Reg) (a' b' : BitVec 3) (s : State),
      let f := s.focus
      ∀ p ∈ [
        (Instr.sb o b a, a.toNat, o.toInt, b.toNat, 1, 4), (Instr.sh o b a, a.toNat, o.toInt, b.toNat, 2, 4),
        (Instr.sw o b a, a.toNat, o.toInt, b.toNat, 4, 4), (Instr.sd o b a, a.toNat, o.toInt, b.toNat, 8, 4),
        (Instr.cSd q a' b', 8 + a'.toNat, 8 * (q.toNat : Int), 8 + b'.toNat, 8, 2)],
      let (i, base, off, src, n, len) := p
      let va := s.rd f base + wInt off
      Issues i s → s.inHandler f = true → va.toNat % n = 0 →
        ∃ t, exec i s = .next t ∧ Passes f (s.pcOf f + w64 len) { s with hmem := t.hmem } t ∧
          (∀ k < n, t.hbyte (va.toNat + k) = BitVec.ofNat 8 ((s.rd f src).toNat / 256 ^ k)) ∧
          (∀ c, c < va.toNat ∨ va.toNat + n ≤ c → t.hbyte c = s.hbyte c))

/-- A store to anywhere else is posted (R289, R290, R292), as every store of a paired core is (R384): it takes the lowest free journal
entry, which holds its address, its bytes, its size and whether it sets full bits, and has not been sent; memory stays as it is until
the entry performs, and control goes on to the next instruction. -/
def Obligations.StoresArePosted : Prop :=
  ∀ (o : BitVec 12) (q : BitVec 6) (b a : Reg) (a' b' : BitVec 3) (x : Xlat) (n' : Nat) (s : State),
    let f := s.focus
    ∀ p ∈ [
      (Instr.sb o b a, a.toNat, o.toInt, b.toNat, 1, false, 4), (Instr.sh o b a, a.toNat, o.toInt, b.toNat, 2, false, 4),
      (Instr.sw o b a, a.toNat, o.toInt, b.toNat, 4, false, 4), (Instr.sd o b a, a.toNat, o.toInt, b.toNat, 8, false, 4),
      (Instr.swf o b a, a.toNat, o.toInt, b.toNat, 4, true, 4), (Instr.sdf o b a, a.toNat, o.toInt, b.toNat, 8, true, 4),
      (Instr.cSd q a' b', 8 + a'.toNat, 8 * (q.toNat : Int), 8 + b'.toNat, 8, false, 2)],
    let (i, base, off, src, n, full, len) := p
    let va := s.rd f base + wInt off
    Issues i s → Reaches f n rWrite kWrite 1 true va x s → s.storesAtOnce f.core x.la = false →
      (full = true → isScratch x.la = true) → s.claimed f.core x.la n = false →
      (s.cur f.core).freeEntry = some n' → (s.cur f.core).recFor.isSome = true →
      ∃ t, exec i s = .next t ∧
        (let e := (t.cur f.core).entry n'
         e.st = .held ∧ e.va = va ∧ e.size = n ∧ e.la = x.la ∧ e.thr = f.thr ∧ e.full = full ∧ e.lineOp = 0 ∧ e.reason = 0 ∧
           littleEndian e.data = (s.rd f src).toNat % 2 ^ (8 * n)) ∧
        t.mem = s.mem ∧ t.host = s.host ∧ (∀ k, t.rd f k = s.rd f k) ∧ Counts f s t ∧ GoesTo f (s.pcOf f + w64 len) s t

/-- Full-bit loads in the own bank (R284, R297): with the granule full they deliver its bytes sign-extended; LWFC and LDFC leave
the granule's full bit clear, LWF and LDF leave it set; no byte of memory changes. -/
def Obligations.FullBitLoads : Prop :=
  ∀ (o : BitVec 12) (a d : Reg) (x : Xlat) (s : State),
    let f := s.focus
    let va := s.rd f a.toNat + wInt o.toInt
    ∀ p ∈ [(Instr.lwf o a d, 4, false), (Instr.ldf o a d, 8, false), (Instr.lwfc o a d, 4, true), (Instr.ldfc o a d, 8, true)],
    let (i, n, clear) := p
    Issues i s → s.inHandler f = false → s.rwCause f.core (s.ctxOf f.core) va.toNat n clear false = none →
      s.watchHit f va.toNat n (if clear then 2 else 0) = none → s.look f.core (s.ctxOf f.core) va.toNat = .hit x →
      isOwnBank f.core x.la = true → SMap.get false s.full (x.la / 16) = true → s.fullQueue (x.la / 16) = false →
      (∀ k < n, (s.openJournal f.core).newestFor (x.la + k) = none) → (x.attr ≠ 0 ∨ s.soBusy f = false) → s.readBehind f x.la n = false →
      (clear = true → Closed f s) → s.poisoned x.la n = false →
      ∃ t, exec i s = .next t ∧ SetsReg f d.toNat (loaded true n (littleEndian (s.bytesAt x.la n))) s t ∧
        SMap.get false t.full (x.la / 16) = !clear ∧ t.mem = s.mem ∧ GoesTo f (s.pcOf f + 4) s t ∧ Counts f s t ∧
        ((clear = true → s.agreedHere f = false) → Kept f { s with full := t.full } t)

/-- Atomic operations in the own bank (R298): the destination takes the old value, sign-extended; memory takes the operation's
result of the old value and the operand, AMOCAS only where the old value equals e0; every other byte of memory stays. -/
def Obligations.AtomicsInOwnBank : Prop :=
  ∀ (z : BitVec 1) (r : BitVec 2) (b a d : Reg) (sc : BitVec 3) (x : Xlat) (s : State),
    let f := s.focus
    let n := if z = 0 then 4 else 8
    let old := littleEndian (s.bytesAt x.la n)
    let v := (s.rd f b.toNat).toNat % 2 ^ (8 * n)
    let so := (BitVec.ofNat (8 * n) old).toInt
    let sv := (BitVec.ofNat (8 * n) v).toInt
    ∀ p ∈ [
      (Instr.amoadd z r b a sc d, old + v), (Instr.amoswap z r b a sc d, v), (Instr.amoand z r b a sc d, old &&& v),
      (Instr.amoor z r b a sc d, old ||| v), (Instr.amoxor z r b a sc d, old ^^^ v),
      (Instr.amomin z r b a sc d, if so ≤ sv then old else v), (Instr.amomax z r b a sc d, if so ≥ sv then old else v),
      (Instr.amominu z r b a sc d, if old ≤ v then old else v), (Instr.amomaxu z r b a sc d, if old ≥ v then old else v),
      (Instr.amocas z r b a sc d, if old = (s.rdE f 0).toNat % 2 ^ (8 * n) then v else old)],
    Issues p.1 s → Reaches f n rRead kRead 2 false (s.rd f a.toNat) x s → Reaches f n rWrite kWrite 2 false (s.rd f a.toNat) x s →
      s.scopeAllowed f.core sc.toNat = true → isOwnBank f.core x.la = true → s.claimed f.core x.la n = false →
      (s.cur f.core).lineBusy x.la = false → (x.attr ≠ 0 ∨ s.soBusy f = false) → Closed f s →
      s.poisoned x.la n = false → (r.getLsbD 1 = true → s.releaseWaits f sc.toNat false = false) →
      ∃ t, exec p.1 s = .next t ∧ SetsReg f d.toNat (loaded true n old) s t ∧ Holds t x.la n p.2 ∧ ElsewhereSame x.la n s t ∧
        t.full = s.full ∧ GoesTo f (s.pcOf f + 4) s t ∧ Counts f s t

/-- Fences and line operations (R300, R312). A FENCE whose scope is allowed and whose releases have performed passes, and an
acquire at a scope wider than CORE leaves the core no leased L1 copy. A PREFETCH that no watchpoint matches passes and changes no register and no byte.
DISCARD, LASTUSE and FLUSHL pass without effect where the address is none of main memory, and otherwise take the lowest free
journal entry with their code. -/
def Obligations.FencesAndLineOps : Prop :=
  ∀ (sc : BitVec 3) (k : BitVec 4) (i : BitVec 12) (a : Reg) (x : Xlat) (n' : Nat) (s : State),
    let f := s.focus
    let va := s.rd f a.toNat + wInt i.toInt
    (Issues (.fence sc k) s → s.scopeAllowed f.core sc.toNat = true → s.releaseWaits f sc.toNat true = false →
      s.releaseWaits f sc.toNat false = false → (k.getLsbD 3 = true → (s.cur f.core).enginesDone = true) → Closed f s →
      ∃ t, exec (.fence sc k) s = .next t ∧ GoesTo f (s.pcOf f + 4) s t ∧ Counts f s t ∧ (∀ r, t.rd f r = s.rd f r) ∧
        t.mem = s.mem ∧ t.host = s.host ∧
        (k.getLsbD 0 = true → sc ≠ 0 → (t.core f.core).l1 = []) ∧
        (k.getLsbD 0 = false → k.getLsbD 2 = false → (t.core f.core).l1 = (s.core f.core).l1)) ∧
    (Issues (.prefetch i a) s → s.watchHit f (va &&& ~~~127).toNat 128 0 = none →
      ∃ t, exec (.prefetch i a) s = .next t ∧ GoesTo f (s.pcOf f + 4) s t ∧ Counts f s t ∧ (∀ r, t.rd f r = s.rd f r) ∧
        t.mem = s.mem ∧ t.host = s.host) ∧
    (∀ p ∈ [(Instr.discard i a, 1, rWrite), (Instr.lastuse i a, 2, rRead), (Instr.flushl i a, 3, rRead)],
      Issues p.1 s → s.inHandler f = false → s.lineCause f.core va.toNat p.2.2 = none →
      s.look f.core (s.ctxOf f.core) va.toNat = .hit x → s.watchHit f (va &&& ~~~127).toNat 128 1 = none →
      (isMemory x.la = false → ∃ t, exec p.1 s = .next t ∧ Passes f (s.pcOf f + 4) s t) ∧
      (isMemory x.la = true → (s.cur f.core).freeEntry = some n' → (s.cur f.core).recFor.isSome = true →
        ∃ t, exec p.1 s = .next t ∧ (∀ r, t.rd f r = s.rd f r) ∧ t.mem = s.mem ∧ t.dram = s.dram ∧
          (let e := (t.cur f.core).entry n'
           e.st = .held ∧ e.lineOp = p.2.1 ∧ e.va = va &&& ~~~127 ∧ e.la = x.la / 128 * 128 ∧ e.size = 0))) ∧
    (∀ p ∈ [Instr.discard i a, .lastuse i a, .flushl i a], Issues p s → s.inHandler f = true →
      ∃ t, exec p s = .next t ∧ Passes f (s.pcOf f + 4) s t)

/-! ## Queues (R75, R105 to R111) -/

/-- QPUT and C.QPUT complete when there is room (R75, R106). The control thread's q0 delivers the value to every selected
micro-thread at once: those of MTMASK, and of them those that a nonzero selection register names. A micro-thread's q1 leads to the
control thread with the sender's number and sets the latch of R150; its q3 and q5 lead to the next and to the previous micro-thread
of the ring (R258). No general register changes.

QGET and C.QGET remove the oldest entry of a read end and QPEEK does not (R107, R108), and a poisoned one sets CHKI (R364); on the control thread's q1 a named
register takes the sender's number. QCNT delivers the number of entries, or of free places, of an end (R109). An empty read end
holds the thread (R107). -/
def Obligations.QueueInstructions : Prop :=
  (∀ (b a r : Reg) (q : Reg) (q' : BitVec 3) (s : State),
      let f := s.focus
      let c := f.core
      let n := f.thr - 1
      let sel := fun (u : Reg) (m : Nat) =>
        (s.cur c).mtmask.getLsbD m && (decide (u.toNat = 0 ∨ (s.rd f u.toNat).toNat % 65536 = 0) || (s.rd f u.toNat).getLsbD m)
      ∀ p ∈ [(Instr.qput b a q, q.toNat, a.toNat, b, 4), (Instr.cQput q' r, q'.toNat, r.toNat, 0, 2)],
      let (i, e, src, u, len) := p
      let v := s.rd f src
      let passes := fun (t : State) => exec i s = .next t ∧ GoesTo f (s.pcOf f + w64 len) s t ∧ Counts f s t ∧
        (∀ k, t.rd f k = s.rd f k) ∧ t.mem = s.mem ∧ t.host = s.host
      Issues i s →
        (f.thr = 0 → e = 0 → (∀ m < 16, sel u m = true → ((s.cur c).mt m).q0.length < 4) →
          ∃ t, passes t ∧ ∀ m < 16, ((t.cur c).mt m).q0 = ((s.cur c).mt m).q0 ++ (if sel u m then [v] else [])) ∧
        (f.thr ≠ 0 → u = 0 → e = 1 → (s.cur c).q1.length < 16 →
          ∃ t, passes t ∧ (t.cur c).q1 = (s.cur c).q1 ++ [(v, n)] ∧ (t.cur c).wfe = true) ∧
        (f.thr ≠ 0 → u = 0 → e = 3 → ((s.cur c).mt n).east.length < 2 →
          ∃ t, passes t ∧ t.entries ⟨c, (n + 1) % 16 + 1⟩ 2 = s.entries ⟨c, (n + 1) % 16 + 1⟩ 2 ++ [(v, 0)]) ∧
        (f.thr ≠ 0 → u = 0 → e = 5 → ((s.cur c).mt n).west.length < 2 →
          ∃ t, passes t ∧ t.entries ⟨c, (n + 15) % 16 + 1⟩ 4 = s.entries ⟨c, (n + 15) % 16 + 1⟩ 4 ++ [(v, 0)])) ∧
  (∀ (b d r : Reg) (q : Reg) (q' : BitVec 3) (v : Word) (m : Nat) (rest : List (Word × Nat)) (s : State),
      let f := s.focus
      (∀ p ∈ [(Instr.qget b q d, q.toNat, d.toNat, b, 4), (Instr.cQget q' r, q'.toNat, r.toNat, 0, 2)],
        let (i, e, dst, u, len) := p
        Issues i s → getEnd f.thr e = true → (u.toNat ≠ 0 → f.thr = 0 ∧ e = 1) →
          (s.entries f e = (v, m) :: rest →
            ∃ t, exec i s = .next t ∧ t.entries f e = rest ∧ GoesTo f (s.pcOf f + w64 len) s t ∧ Counts f s t ∧ t.mem = s.mem ∧
              ∀ k, t.rd f k = if k = 0 then 0 else if k = u.toNat then w64 m else if k = dst then v else s.rd f k) ∧
          (s.entries f e = [] → exec i s = .next s)) ∧
      (Issues (.qpeek q d) s → getEnd f.thr q.toNat = true → s.entries f q.toNat = (v, m) :: rest →
        ∃ t, exec (.qpeek q d) s = .next t ∧ Finishes f 4 d.toNat v (s.badRead f (s.headBad f q.toNat)) t) ∧
      (Issues (.qcnt q d) s → cntEnd f.thr q.toNat = true →
        ∃ t, exec (.qcnt q d) s = .next t ∧ Finishes f 4 d.toNat (w64 (s.queueCount f q.toNat)) s t))

/-! ## Messages, activations and groups (chapters 08 and 09) -/

/-- A send that passes its checks puts its message at the end of the outbox (R189, R190, R191): SEND one to the core that e0 names,
SENDG one to every member of the group, SENDF the main payload to e0's core and the outliers to e1's. The stamp is VTIME + RETIRED +
LOOKAHEAD (R184) and no general register changes. -/
def Obligations.SendsWaitInTheOutbox : Prop :=
  ∀ (b a : Reg) (bs : List Byte) (s : State),
    let f := s.focus
    let c := f.core
    let e0 := s.rdE f 0
    let e1 := s.rdE f 1
    let va := (s.rd f a.toNat).toNat
    let len := (s.rd f b.toNat).toNat
    let stamp := (s.cur c).vtime + (s.cur c).retired + (s.cur c).actDesc.lookahead
    let at_ := fun (e : Word) => fld e 0 8 + 64 * fld e 8 8
    ∀ p ∈ [(Instr.send b a, 0), (Instr.sendg b a, 1), (Instr.sendf b a, 2)],
    let (i, kind) := p
    Issues i s → s.inHandler f = false → (kind = 1 → s.member c (fld e0 0 8) = true) → len ≤ 256 →
      s.accessCause c (s.ctxOf c) va len 1 rRead kRead false = none → s.badDest f kind = none →
      (kind = 2 → (rowFmt e1).bad len (s.rdE f 2) (s.rdE f 3) = false) →
      (s.cur c).outbox.length + (if kind = 2 then 2 else 1) ≤ 64 →
      ∀ z fr, s.gather f va len = .done bs z fr → bs.length = len →
      ∃ t, exec i s = .next t ∧ GoesTo f (s.pcOf f + 4) s t ∧ Counts f s t ∧ (∀ k, t.rd f k = s.rd f k) ∧ t.mem = s.mem ∧
        (kind = 0 → ∃ m, (t.cur c).outbox = (s.cur c).outbox ++ [.msg [at_ e0] m e0] ∧ m.payload = bs ∧ m.stamp = stamp ∧
          m.saddr = c ∧ m.dslot = fld e0 16 4 ∧ m.dchan = fld e0 20 2 ∧ m.tag = fld e0 32 16) ∧
        (kind = 1 → ∃ m, (t.cur c).outbox = (s.cur c).outbox ++ [.msg (s.group (s.ctxOf c) c (fld e0 0 8)).members m e0] ∧
          m.payload = bs ∧ m.stamp = stamp ∧ m.saddr = c ∧ m.dslot = fld e0 16 4 ∧ m.dchan = fld e0 20 2) ∧
        (kind = 2 → ∃ m k, (t.cur c).outbox = (s.cur c).outbox ++ [.msg [at_ e0] m e0, .msg [at_ e1] k e1] ∧
          m.payload.length = bs.length ∧ m.stamp = stamp ∧ k.stamp = stamp ∧ m.dslot = fld e0 16 4 ∧ k.dslot = fld e1 16 4)

/-- MLD, MHDR and MLEN read the input set and change nothing else (R192): eight bytes of a message's payload from an offset, and
zero past its end or where there is no such message; a doubleword of its header; the length of the trigger. Poison in the bytes read
of the slot sets CHKI (R364). -/
def Obligations.InputSetReads : Prop :=
  ∀ (a d : Reg) (s : State),
    let f := s.focus
    let w := s.rd f a.toNat
    let m := (s.cur f.core).inputMsg w
    ∀ p ∈ [
      (Instr.mld a d, (m.map (fun m => littleEndian ((m.payload.drop (fld w 0 8)).take 8))).getD 0,
        (s.cur f.core).inputBad w (64 + fld w 0 8)),
      (Instr.mhdr a d, (m.map (fun m => littleEndian ((m.header.drop (8 * fld w 0 3)).take 8))).getD 0,
        (s.cur f.core).inputBad w (8 * fld w 0 3)),
      (Instr.mlen d, ((s.cur f.core).act.map (fun a => a.trigger.payload.length)).getD 0, false)],
    Issues p.1 s → (p.2.2 = true → s.pendOf f = []) →
      ∃ t, exec p.1 s = .next t ∧ Finishes f 4 d.toNat (w64 p.2.1) (s.badRead f p.2.2) t

/-- The end of an activation. END and C.END, with every output rate met, CHKI clear or an effective class U, the micro-threads still and
no close of a pair due, count and release the outbox as it stands (R191, R193). ENDX drops the
outbox and no activation runs any more (R194): with REPL and fewer than three redeliveries the input set stays in its channels,
unchanged, and REDLV counts one more; otherwise the input set is consumed and REDLV is zero; the slot is IDLE or READY and VTIME zero.
Before every micro-thread is still each of the three waits. -/
def Obligations.ActivationEnds : Prop :=
  ∀ (s : State) (a : Activation),
    let f := s.focus
    let c := f.core
    let b := s.cur c
    (b.arrayStill = false → ∀ i ∈ [Instr.endAct, .cEnd, .endx], Issues i s → exec i s = .next s) ∧
    (b.act = some a → b.arrayStill = true → Closed f s →
      (∀ i ∈ [Instr.endAct, .cEnd], Issues i s → b.rateError = none → (b.chki = 0 ∨ s.effClass c = 2) →
        ∃ t, exec i s = .next t ∧ (t.cur c).endWait = true ∧ Counts f s t ∧ (t.cur c).act = some a ∧
          (t.cur c).outbox = b.outbox ∧ (t.cur c).inbox = b.inbox ∧ t.mem = s.mem ∧
          ∀ k, t.rd f k = s.rd f k) ∧
      (Issues .endx s →
        ∃ t, exec .endx s = .next t ∧ (t.cur c).act = none ∧ (t.cur c).outbox = [] ∧ (t.cur c).vtime = 0 ∧
          (t.cur c).cnt.failed = b.cnt.failed + 1 ∧
          (let q := b.slot a.slot
           let u := (t.cur c).slot a.slot
           let again := q.desc.repl = true ∧ q.redlv < 3
           (u.st = .idle ∨ u.st = .ready) ∧
             (again → (t.cur c).inbox = b.inbox ∧ (t.cur c).msgBuf = b.msgBuf ∧ u.redlv = q.redlv + 1) ∧
             (¬again → (t.cur c).inbox = (b.setParts a.slot).1.2 ∧ (t.cur c).msgBuf = (b.setParts a.slot).2.2 ∧ u.redlv = 0))))

/-- GRANK, GSIZE and GMEMB of a group that the core is a member of (R207, R209, R212): the rank, the size and the root, the address
of a member or all ones past the last. A core that is no member raises GROUP with the group's number. -/
def Obligations.GroupQueries : Prop :=
  ∀ (b a d : Reg) (s : State),
    let f := s.focus
    let n := fld (s.rd f a.toNat) 0 8
    let g := s.group (s.ctxOf f.core) f.core n
    let k := (s.rd f b.toNat).toNat
    (s.member f.core n = true →
      (Issues (.grank a d) s → ∃ t v, exec (.grank a d) s = .next t ∧ Finishes f 4 d.toNat v s t ∧
        (g.torus = false → v = w64 (g.rank (s.asCore f.core)))) ∧
      (Issues (.gsize a d) s → ∃ t v, exec (.gsize a d) s = .next t ∧ Finishes f 4 d.toNat v s t ∧
        (g.torus = false → v = w64 (g.members.length + 2 ^ 32 * g.root))) ∧
      (Issues (.gmemb b a d) s → ∃ t v, exec (.gmemb b a d) s = .next t ∧ Finishes f 4 d.toNat v s t ∧
        (∀ m, g.members[k]? = some m → v = w64 (m % 64 + 256 * (m / 64))) ∧
        (g.members.length ≤ k → v = 0xFFFF_FFFF_FFFF_FFFF))) ∧
    (s.member f.core n = false → ∀ i ∈ [Instr.grank a d, .gsize a d, .gmemb b a d],
      Issues i s → s.pendOf f = [] → exec i s = .next (s.exact f 4 cGroup (w64 n)))

/-- NEST joins the next generation of a group's nest (R199): the join with this core's bounds and stamp leaves for the root, and
the view shows JOINED. LOOP claims a chunk for a generation that it has joined, and passes to its target for one that it has not, or
has left (R200); the claim of a paired core leaves when its interval has agreed (R384). NESTQ reads a view (R202). -/
def Obligations.NestsAndLoops : Prop :=
  ∀ (i : BitVec 12) (b a d : Reg) (s : State),
    let f := s.focus
    let c := f.core
    let g := fld (s.rd f a.toNat) 0 8
    let w := s.rd f b.toNat
    let v := SMap.get NestView.none (s.cur c).views g
    s.member c g = true → s.inHandler f = false →
      (Issues (.nest b a) s → Closed f s → (s.cur c).loop = none →
        ∃ t j, exec (.nest b a) s = .next t ∧ t.net = s.net ++ [⟨c, s.groupRoot (s.ctxOf c) g, s.ctxOf c, .join g j⟩] ∧
          j.core = c ∧ j.gen = SMap.get 0 (s.cur c).gens g + 1 ∧ j.minch = max 1 (fld w 0 16) ∧
          j.bounds = (List.range (fld w 16 2 + 1)).map (fun k => fld (s.rdE f k) 0 16) ∧
          j.stamp = (s.cur c).vtime + (s.cur c).retired ∧
          (let u := SMap.get NestView.none (t.cur c).views g
           u.gen = j.gen ∧ u.st = 1 ∧ u.out = false) ∧ (∀ k, t.rd f k = s.rd f k) ∧ t.mem = s.mem) ∧
      (Issues (.loop i a) s → (s.cur c).loop = none → (v.gen = 0 ∨ v.out = true) →
        ∃ t, exec (.loop i a) s = .next t ∧ t.pcOf f = s.pcOf f + w64 (2 * i.toNat) ∧ (t.cur c).loop = none ∧ t.net = s.net ∧
          Counts f s t ∧ ∀ k, t.rd f k = s.rd f k) ∧
      (Issues (.loop i a) s → (s.cur c).loop = none → v.gen ≠ 0 → v.out = false →
        ∃ t l, exec (.loop i a) s = .next t ∧ (t.cur c).loop = some l ∧ l.group = g ∧ l.body = s.pcOf f + 4 ∧
          l.target = s.pcOf f + w64 (2 * i.toNat) ∧ l.claim = true ∧ l.left = 0 ∧ Counts f s t ∧
          (let q : Packet := ⟨c, s.groupRoot (s.ctxOf c) g, s.ctxOf c, .claim g ⟨c, v.gen, (s.cur c).vtime + (s.cur c).retired⟩⟩
           let p := (s.core c).pair
           if p.mode = .off ∨ p.mode = .diverged then t.net = s.net ++ [q]
           else t.net = s.net ∧ (t.core c).pair.out = p.out ++ [(p.interval, q)]) ∧
          ∀ k, t.rd f k = s.rd f k) ∧
      (Issues (.nestq a d) s → ∃ t, exec (.nestq a d) s = .next t ∧
        Finishes f 4 d.toNat (w64 (g + 2 ^ 8 * v.left + 2 ^ 44 * v.st + 2 ^ 48 * (v.gen % 2 ^ 16))) s t)

/-- Barrier instructions (R213, R214, R222). BARM arms an IDLE entry for its next generation. BARV posts an arrival to the root and
the entry is ARRIVED. BARW of a completed entry delivers the value and makes it IDLE with no count; BARW of one that has arrived
waits. BARX posts an abort. BARQ reads the entry. -/
def Obligations.BarrierInstructions : Prop :=
  ∀ (x o : BitVec 3) (b a d : Reg) (s : State),
    let f := s.focus
    let c := f.core
    let id := fld (s.rd f a.toNat) 0 8
    let g := fld (s.rd f b.toNat) 0 8
    let e := (s.cur c).bar id
    let root := fun (n : Nat) => s.groupRoot (s.ctxOf c) n
    s.inHandler f = false → (s.cur c).loop = none →
      (Issues (.barm x o b a) s → e.st = 0 → SMap.find? e.early ((e.gen + 1) % 65536) = none → s.member c g = true → s.scopeAllowed c x.toNat = true →
        ∃ t, exec (.barm x o b a) s = .next t ∧ Counts f s t ∧ (∀ k, t.rd f k = s.rd f k) ∧ t.net = s.net ∧
          (let u := (t.cur c).bar id
           u.st = 1 ∧ u.gen = (e.gen + 1) % 65536 ∧ u.group = g ∧ u.op = o.toNat ∧ u.scope = x.toNat ∧ u.count = 0)) ∧
      (Issues (.barv b a) s → e.st = 1 → s.stoppedWaits c e.scope = false → s.stoppedOwe c e.scope = false → Closed f s →
        s.releaseWaits f e.scope true = false →
        ∃ t, exec (.barv b a) s = .next t ∧ Counts f s t ∧ (∀ k, t.rd f k = s.rd f k) ∧ ((t.cur c).bar id).st = 2 ∧
          t.net = s.net ++ [⟨c, root e.group, s.ctxOf c,
            .bar ⟨id, e.group, e.gen, e.op, e.scope, s.rd f b.toNat, false, s.asCore c⟩⟩]) ∧
      (Issues (.barw a d) s → e.st = 2 → exec (.barw a d) s = .next s) ∧
      (Issues (.barw a d) s → 3 ≤ e.st →
        ∃ t, exec (.barw a d) s = .next t ∧ Counts f s t ∧ SetsReg f d.toNat e.value s t ∧
          (let u := (t.cur c).bar id
           u.st = 0 ∧ u.last = e.st - 3 ∧ u.count = 0 ∧ u.gen = e.gen)) ∧
      (Issues (.barx a) s → (e.st = 1 ∨ e.st = 2) →
        ∃ t, exec (.barx a) s = .next t ∧ Counts f s t ∧ (∀ k, t.rd f k = s.rd f k) ∧ t.net = s.net ++ [⟨c, root e.group, s.ctxOf c,
          .bar ⟨id, e.group, e.gen, e.op, e.scope, 0, true, s.asCore c⟩⟩]) ∧
      (Issues (.barq a d) s → ∃ t, exec (.barq a d) s = .next t ∧ Finishes f 4 d.toNat (w64 (e.st + 2 ^ 16 * e.last + 2 ^ 18 * e.op +
        2 ^ 21 * e.scope + 2 ^ 24 * e.group + 2 ^ 32 * e.gen + 2 ^ 48 * e.count)) s t)

/-- The micro-thread array (R249 to R255). BCAST delivers its block to every selected micro-thread that is not in FAULT and passes
over it; BFETCH sets a micro-thread fetching from its target, unless it was to stop at its next boundary; STOP and C.STOP stop it, and the latch of R150 is set; MTWAIT passes
once every selected one is still; MTSTAT reads which run, which fetch and which are in FAULT; MTRST leaves the selected ones
STOPPED with their registers zero and their queues empty. -/
def Obligations.MicroThreadArray : Prop :=
  ∀ (n : BitVec 4) (o : BitVec 12) (a d : Reg) (l : List (Nat × IWord)) (s : State),
    let f := s.focus
    let c := f.core
    let b := s.cur c
    let sel := fun (m : Nat) => if (s.rd f a.toNat).toNat % 65536 = 0 then b.mtmask.getLsbD m else (s.rd f a.toNat).getLsbD m
    let target := s.rd f a.toNat + wInt o.toInt
    (Issues (.bcast n a) s → s.readBlock f n.toNat (s.pcOf f + 4).toNat [] = .ok l →
      (∀ m < 16, sel m = true → b.mtmask.getLsbD m = true → (b.mt m).run = .stopped ∨ (b.mt m).run = .fault) →
      ∃ t, exec (.bcast n a) s = .next t ∧ Counts f s t ∧ GoesTo f (s.pcOf f + w64 (4 + (l.map (·.1)).sum)) s t ∧
        ∀ m < 16, (t.cur c).mt m = if sel m && b.mtmask.getLsbD m && decide ((b.mt m).run ≠ .fault) then
          { b.mt m with block := l, pc := s.pcOf f + 4, run := .broadcast } else b.mt m) ∧
    (Issues (.bfetch o a) s → target.getLsbD 0 = false →
      ∃ t, exec (.bfetch o a) s = .next t ∧ t.pcOf f = target ∧
        ((t.cur c).mt (f.thr - 1)).run = (if (b.mt (f.thr - 1)).halt then .stopped else .fetched) ∧
        ((t.cur c).mt (f.thr - 1)).block = [] ∧ ∀ k, t.rd f k = s.rd f k) ∧
    (∀ i ∈ [Instr.stop, .cStop], Issues i s →
      ∃ t, exec i s = .next t ∧ ((t.cur c).mt (f.thr - 1)).run = .stopped ∧ (t.cur c).wfe = true ∧ Counts f s t ∧
        ∀ k, t.rd f k = s.rd f k) ∧
    (Issues (.mtwait a) s → (∀ m < 16, sel m = true → (b.mt m).run = .stopped ∨ (b.mt m).run = .fault) →
      ∃ t, exec (.mtwait a) s = .next t ∧ Passes f (s.pcOf f + 4) s t) ∧
    (Issues (.mtstat d) s → ∃ t v, exec (.mtstat d) s = .next t ∧ Finishes f 4 d.toNat v s t ∧ ∀ m < 16,
      v.getLsbD m = decide ((b.mt m).run = .broadcast ∨ (b.mt m).run = .fetched) ∧
      v.getLsbD (16 + m) = decide ((b.mt m).run = .fetched) ∧ v.getLsbD (32 + m) = decide ((b.mt m).run = .fault)) ∧
    (Issues (.mtrst a) s → (∀ m < 16, sel m = true → (b.mt m).run = .stopped ∨ (b.mt m).run = .fault ∨ s.inPath c m = false) →
      ∃ t, exec (.mtrst a) s = .next t ∧ Counts f s t ∧ GoesTo f (s.pcOf f + 4) s t ∧ (∀ k, t.rd f k = s.rd f k) ∧ t.mem = s.mem ∧
        ∀ m < 16, sel m = true → (let k := (t.cur c).mt m
          k.run = .stopped ∧ k.w = [] ∧ k.e = [] ∧ k.q0 = [] ∧ k.east = [] ∧ k.west = [] ∧ k.pc = 0 ∧ k.block = [] ∧ k.shape = 0x3F1F ∧
            ∀ r < 8, (SMap.get VReg.zero k.v r).tag = 0))

/-! ## Vector instructions (chapter 11) -/

/-- Integer and bitwise vector arithmetic (R226, R229), in all three operand forms: for an unscaled vA of an integer format (or a
mask, of the bitwise ones), and in the register form a vB of the same format, every active element of vD is the result that the
entry gives of vA's element and the second operand, and nothing else changes (R225). The comparisons deliver a mask.

VABS and VNEG of an unscaled integer vA (R229), and VSEL in its three forms: where the mask in v0 is nonzero vA's element, and
elsewhere the second operand (R229). -/
def Obligations.VectorIntegerResults : Prop :=
  (∀ (b a d : VNum) (x : Reg) (k : BitVec 5) (s : State),
      let f := s.focus
      let m := s.mtOf f
      let va := m.vreg a.toNat
      let vb := m.vreg b.toNat
      let fmt := va.fmt
      let W := fmtWidth fmt
      let el := fun (v : VReg) (r j : Nat) => v.elem (fmtBytes fmt) r j
      let sg := fun (n : Nat) => (BitVec.ofNat W n).toInt
      let wr := fun (n : Int) => (BitVec.ofInt W n).toNat
      ∀ p ∈ [
        (Instr.vaddVv b a d, Instr.vaddVx x a d, Instr.vaddVi k a d, fmt, false, fun (p q : Nat) => (p + q) % 2 ^ W),
        (.vsubVv b a d, .vsubVx x a d, .vsubVi k a d, fmt, false, fun p q => wr ((p : Int) - (q : Int))),
        (.vmulVv b a d, .vmulVx x a d, .vmulVi k a d, fmt, false, fun p q => p * q % 2 ^ W),
        (.vminVv b a d, .vminVx x a d, .vminVi k a d, fmt, false, fun p q => if sg p ≤ sg q then p else q),
        (.vmaxVv b a d, .vmaxVx x a d, .vmaxVi k a d, fmt, false, fun p q => if sg p ≥ sg q then p else q),
        (.vandVv b a d, .vandVx x a d, .vandVi k a d, fmt, true, fun p q => p &&& q),
        (.vorVv b a d, .vorVx x a d, .vorVi k a d, fmt, true, fun p q => p ||| q),
        (.vxorVv b a d, .vxorVx x a d, .vxorVi k a d, fmt, true, fun p q => p ^^^ q),
        (.vshlVv b a d, .vshlVx x a d, .vshlVi k a d, fmt, false, fun p q => p * 2 ^ (q % W) % 2 ^ W),
        (.vshrVv b a d, .vshrVx x a d, .vshrVi k a d, fmt, false, fun p q => p / 2 ^ (q % W)),
        (.vsraVv b a d, .vsraVx x a d, .vsraVi k a d, fmt, false, fun p q => wr (sg p / 2 ^ (q % W))),
        (.vcmpeqVv b a d, .vcmpeqVx x a d, .vcmpeqVi k a d, 10, false, fun p q => if p = q then 0xFF else 0),
        (.vcmpltVv b a d, .vcmpltVx x a d, .vcmpltVi k a d, 10, false, fun p q => if sg p < sg q then 0xFF else 0)],
      let (vv, vx, vi, fd, bitwise, g) := p
      va.scaled = false → (isIntFmt fmt = true ∨ (bitwise = true ∧ fmt = 10)) →
        ∀ q ∈ [
          (vv, vb.poison, fun r j => el vb r j), (vx, false, fun _ _ => (s.rd f x.toNat).toNat % 2 ^ W),
          (vi, false, fun _ _ => (wInt k.toInt).toNat % 2 ^ W)],
        Issues q.1 s → (q.1 = vv → vb.fmt = fmt ∧ vb.scaled = false) →
          ∃ t, exec q.1 s = .next t ∧ WritesVector f d.toNat fd m.rows (m.cols fmt)
            (resultTag (m.vreg d.toNat) fd 0 false (va.poison || q.2.1) (m.rows * m.cols fmt * fmtBytes fd))
            (fun r j => g (el va r j) (q.2.2 r j)) s t) ∧
  (∀ (b a d : VNum) (x : Reg) (k : BitVec 5) (s : State),
      let f := s.focus
      let m := s.mtOf f
      let va := m.vreg a.toNat
      let vb := m.vreg b.toNat
      let v0 := m.vreg 0
      let fmt := va.fmt
      let W := fmtWidth fmt
      let w := fmtBytes fmt
      let sg := fun (n : Nat) => (BitVec.ofNat W n).toInt
      let size := m.rows * m.cols fmt * w
      (va.scaled = false → isIntFmt fmt = true →
        ∀ p ∈ [(Instr.vabs a d, fun (n : Nat) => (BitVec.ofInt W (sg n).natAbs).toNat), (.vneg a d, fun n => (BitVec.ofInt W (-sg n)).toNat)],
        Issues p.1 s → ∃ t, exec p.1 s = .next t ∧ WritesVector f d.toNat fmt m.rows (m.cols fmt)
          (resultTag (m.vreg d.toNat) fmt 0 false va.poison size) (fun r j => p.2 (va.elem w r j)) s t) ∧
      (va.scaled = false → 1 ≤ fmt → fmt ≤ 9 → v0.fmt = 10 → v0.scaled = false →
        ∀ q ∈ [
          (Instr.vselVv b a d, vb.poison, fun (r j : Nat) => vb.elem w r j),
          (.vselVx x a d, false, fun _ _ => s.scalarOf f fmt (va.planes + 1) (.vx x)),
          (.vselVi k a d, false, fun _ _ => (wInt k.toInt).toNat % 2 ^ W)],
        Issues q.1 s → (q.1 = .vselVv b a d → vb.fmt = fmt ∧ vb.scaled = false ∧ (fmt = 1 → vb.planes = va.planes)) →
          (q.1 = .vselVi k a d → viForm fmt = true) →
          ∃ t, exec q.1 s = .next t ∧ WritesVector f d.toNat fmt m.rows (m.cols fmt)
            (resultTag (m.vreg d.toNat) fmt va.planes false (va.poison || v0.poison || q.2.1) size)
            (fun r j => if (v0.byte (64 * r + j)).toNat ≠ 0 then va.elem w r j else q.2.2 r j) s t))

/-- Floating-point vector arithmetic (R50, R65, R230): every active element is the exact result of the operands' values rounded once
into the format; the comparisons deliver a mask; VFMA adds vD's old element to the exact product. Of VFEXP2, VFLOG2, VFRCP and VFRSQ the
element is that of the model's functions fnExp2, fnLog2, fnRcp and fnRsq, whose exactness is the model's choice (log 93). -/
def Obligations.VectorFloatResults : Prop :=
  ∀ (b a d : VNum) (x : Reg) (p : FpFmt) (s : State),
    let f := s.focus
    let m := s.mtOf f
    let va := m.vreg a.toNat
    let vb := m.vreg b.toNat
    let vd := m.vreg d.toNat
    let fmt := va.fmt
    let w := fmtBytes fmt
    let el := fun (v : VReg) (r j : Nat) => v.elem w r j
    let scalar := fun (_ _ : Nat) => (s.rd f x.toNat).toNat % 2 ^ fmtWidth fmt
    let tag := fun (fd : Nat) (more : Bool) => resultTag vd fd 0 false (va.poison || more) (m.rows * m.cols fmt * fmtBytes fd)
    isFpFmt fmt = true → fpFmt fmt = some p → va.scaled = false →
      (∀ q ∈ [
        (Instr.vfaddVv b a d, Instr.vfaddVx x a d, fmt, false, fun (y z : ExactNum) (_ : ExactNum) => p.round (y.add z)),
        (.vfsubVv b a d, .vfsubVx x a d, fmt, false, fun y z _ => p.round (y.add z.negate)),
        (.vfmulVv b a d, .vfmulVx x a d, fmt, false, fun y z _ => p.round (y.mul z)),
        (.vfmaVv b a d, .vfmaVx x a d, fmt, true, fun y z u => p.round ((y.mul z).add u)),
        (.vfminVv b a d, .vfminVx x a d, fmt, false, fun y z _ => p.round (y.minOf z)),
        (.vfmaxVv b a d, .vfmaxVx x a d, fmt, false, fun y z _ => p.round (y.maxOf z)),
        (.vfcmpltVv b a d, .vfcmpltVx x a d, 10, false, fun y z _ => if y.lt z then 0xFF else 0),
        (.vfcmpeqVv b a d, .vfcmpeqVx x a d, 10, false, fun y z _ => if y.eqv z then 0xFF else 0)],
        let (vv, vx, fd, fma, g) := q
        (fma = true → vd.fmt = fmt ∧ vd.scaled = false) →
          (Issues vv s → vb.fmt = fmt → vb.scaled = false → ∃ t, exec vv s = .next t ∧
            WritesVector f d.toNat fd m.rows (m.cols fmt) (tag fd (vb.poison || (fma && vd.poison)))
              (fun r j => g (p.value (el va r j)) (p.value (el vb r j)) (p.value (el vd r j))) s t) ∧
          (Issues vx s → ∃ t, exec vx s = .next t ∧
            WritesVector f d.toNat fd m.rows (m.cols fmt) (tag fd (fma && vd.poison))
              (fun r j => g (p.value (el va r j)) (p.value (scalar r j)) (p.value (el vd r j))) s t)) ∧
      (∀ q ∈ [(Instr.vfexp2 a d, p.fnExp2), (.vflog2 a d, p.fnLog2), (.vfrcp a d, p.fnRcp), (.vfrsq a d, p.fnRsq)],
        Issues q.1 s → ∃ t, exec q.1 s = .next t ∧
          WritesVector f d.toNat fmt m.rows (m.cols fmt) (tag fmt false) (fun r j => q.2 (p.value (el va r j))) s t)

/-- Vector loads and stores (R231 to R233). With its bytes at hand VLD fills the active elements row by row; VLDP fills them from
plane-major rows. VST and VSTP into the own bank leave the bytes of the active elements, row by row, or the plane-major rows, at the
address, and every other byte as it was. -/
def Obligations.VectorMemory : Prop :=
  ∀ (q : BitVec 5) (a : Reg) (d : VNum) (bs : List Byte) (z : Bool) (x : Xlat) (s : State),
    let f := s.focus
    let c := f.core
    let m := s.mtOf f
    let v := m.vreg d.toNat
    let va := (s.rd f a.toNat).toNat
    let fmt := q.toNat
    let w := fmtBytes fmt
    let n := 16 * q.toNat
    let paired := (m.rows + 1) / 2
    (Issues (.vld q a d) s → s.rangesCause c (s.ctxOf c) va w [(va, m.rows * m.cols fmt * w)] rRead kRead false = none →
      s.watchHit f va (m.rows * m.cols fmt * w) 0 = none → s.gatherAll f va 0 [(va, m.rows * m.cols fmt * w)] = .done bs z none →
      bs.length = m.rows * m.cols fmt * w →
      ∃ t, exec (.vld q a d) s = .next t ∧ WritesVector f d.toNat fmt m.rows (m.cols fmt)
        (resultTag v fmt (if fmt = 1 then 7 else 0) false z (m.rows * m.cols fmt * w))
        (fun r j => littleEndian ((bs.drop ((r * m.cols fmt + j) * w)).take w)) s t) ∧
    (let rs := (List.range paired).map (fun k => (va + 128 * k, n))
     Issues (.vldp q a d) s → s.rangesCause c (s.ctxOf c) va 128 rs rRead kRead false = none →
      rs.findSome? (fun r => s.watchHit f r.1 r.2 0) = none → s.gatherAll f va n rs = .done bs z none →
      ∃ t, exec (.vldp q a d) s = .next t ∧ WritesVector f d.toNat 1 m.rows 64
        (resultTag v 1 (q.toNat - 1) false z (m.rows * 64))
        (fun r j => planeByte ((bs.drop (n * (r / 2))).take n) q.toNat (64 * (r % 2) + j)) s t) ∧
    (∀ p ∈ [
      (Instr.vst a d, max (fmtBytes v.fmt) 1, decide (v.fmt ≠ 0),
        (List.range m.rows).flatMap (fun r => (List.range (m.cols v.fmt * fmtBytes v.fmt)).map (fun k => v.byte (64 * r + k)))),
      (.vstp q a d, 128, decide (v.fmt = 1 ∧ q.toNat ≤ v.planes + 1), (List.range paired).flatMap (fun r =>
        planeRow (fun e => ni8Fill q.toNat (v.byte (64 * (2 * r + e / 64) + e % 64)).toNat)))],
      let (i, align, fits, out) := p
      Issues i s → fits = true → m.prog = 0 → m.grp = 0 →
        s.accessCause c (s.ctxOf c) va out.length align rWrite kWrite true = none → s.watchHit f va out.length 1 = none →
        (∀ k < out.length, s.look c (s.ctxOf c) (va + k) = .hit { x with la := x.la + k } ∧ s.storesAtOnce c (x.la + k) = true ∧
          (x.la + k) / 4096 = x.la / 4096) → s.frameShut (s.ctxOf c) x.la = false →
        s.soBusy f = false → (s.cur c).cmds = [] → s.pendOf f = [] →
        ∃ t, exec i s = .next t ∧ (∀ k < out.length, t.byteAt (x.la + k) = out.getD k 0) ∧ ElsewhereSame x.la out.length s t ∧
          (∀ k, t.rd f k = s.rd f k) ∧ (∀ k, (t.mtOf f).vreg k = m.vreg k) ∧ GoesTo f (s.pcOf f + 4) s t ∧ Counts f s t)

/-- Conversions, scales and tags (R234 to R237). VCVT converts every element that both formats have room for. VSPLIT does the same
and leaves in vA what the conversion lost. VSCALE writes, adds to, moves in, moves out or drops the scale column. VTAG replaces the
tag and keeps a set POISON.

Moves and element access (R239 to R243): VSHAPE sets the active part; VMOV copies a register whole; VBCR and VBCC repeat a row
or a column; VTRN transposes; VINS writes one element, of NI8 with the
planes that the register lacks as zero; VEXT reads one, and a poisoned source sets CHKI (R372). -/
def Obligations.VectorConversionsAndMoves : Prop :=
  (∀ (p : BitVec 3) (q : BitVec 4) (b : Reg) (a d : VNum) (pf : FpFmt) (s : State),
      let f := s.focus
      let m := s.mtOf f
      let va := m.vreg a.toNat
      let vd := m.vreg d.toNat
      let fd := q.toNat
      let n := min (m.cols va.fmt) (m.cols fd)
      let w := s.rd f b.toNat
      let planes := if fd = 1 then p.toNat else 0
      let tag := resultTag vd fd planes (decide (fd = 1) && vd.scaled) va.poison (m.rows * n * fmtBytes fd)
      let rest := fun (t : State) => (∀ k, k ≠ d.toNat → (t.mtOf f).vreg k = m.vreg k) ∧ (∀ k, t.rd f k = s.rd f k) ∧
        GoesTo f (s.pcOf f + 4) s t ∧ Counts f s t ∧ t.mem = s.mem
      (Issues (.vcvt p q a d) s → 1 ≤ va.fmt → va.fmt ≤ 9 → 1 ≤ fd → fd ≤ 9 →
        ∃ t, exec (.vcvt p q a d) s = .next t ∧ WritesVector f d.toNat fd m.rows n tag (fun r j =>
          if fd = 1 then quantise (p.toNat + 1) ((va.value r j).scale (-(vd.rowScale r))) else convertTo fd 0 (va.value r j)) s t) ∧
      (a ≠ d → Issues (.vsplit p q a d) s → isFpFmt va.fmt = true → fpFmt va.fmt = some pf → va.scaled = false → (fd = 1 ∨ 5 ≤ fd ∧ fd ≤ 8) →
        ∃ t, exec (.vsplit p q a d) s = .next t ∧
          (let hi := (t.mtOf f).vreg d.toNat
           let lo := (t.mtOf f).vreg a.toNat
           hi.tag = tag ∧ (∀ r < m.rows, ∀ j < n, hi.elem (fmtBytes fd) r j = cvtElem va vd fd p.toNat r j % 2 ^ (8 * fmtBytes fd)) ∧
             (∀ r < m.rows, ∀ j < n, lo.elem (fmtBytes va.fmt) r j =
               residual pf (va.value r j) (hi.value r j) % 2 ^ (8 * fmtBytes va.fmt))) ∧
          (∀ k, t.rd f k = s.rd f k) ∧ Counts f s t ∧ t.mem = s.mem) ∧
      (Issues (.vscale b a d) s → fld w 8 3 = 0 → 1 ≤ va.fmt → va.fmt ≤ 9 →
        ∃ t, exec (.vscale b a d) s = .next t ∧ rest t ∧ (let u := (t.mtOf f).vreg d.toNat
          u.scaled = true ∧ u.fmt = va.fmt ∧ u.data = va.data ∧
            ∀ r < 32, u.scaleByte r = if r < m.rows then BitVec.ofNat 8 (fld w 0 8) else va.scaleByte r)) ∧
      (Issues (.vscale b a d) s → fld w 8 3 = 1 → va.scaled = true →
        (∀ r < m.rows, -128 ≤ va.scaleOf r + (BitVec.ofNat 8 (fld w 0 8)).toInt ∧ va.scaleOf r + (BitVec.ofNat 8 (fld w 0 8)).toInt ≤ 127) →
        ∃ t, exec (.vscale b a d) s = .next t ∧ rest t ∧ (let u := (t.mtOf f).vreg d.toNat
          u.tag = va.tag ∧ u.data = va.data ∧
            ∀ r < m.rows, u.scaleOf r = va.scaleOf r + (BitVec.ofNat 8 (fld w 0 8)).toInt)) ∧
      (Issues (.vscale b a d) s → fld w 8 3 = 2 → va.fmt = 2 → va.scaled = false → 1 ≤ vd.fmt → vd.fmt ≤ 9 →
        ∃ t, exec (.vscale b a d) s = .next t ∧ rest t ∧ (let u := (t.mtOf f).vreg d.toNat
          u.scaled = true ∧ u.fmt = vd.fmt ∧ u.data = vd.data ∧
            ∀ r < 32, u.scaleByte r = if r < m.rows then va.byte (64 * r + fld w 0 6) else vd.scaleByte r)) ∧
      (Issues (.vscale b a d) s → fld w 8 3 = 3 → va.fmt ≠ 0 →
        ∃ t, exec (.vscale b a d) s = .next t ∧ rest t ∧ (let u := (t.mtOf f).vreg d.toNat
          u.scaled = false ∧ u.fmt = 2 ∧ ∀ r < 32, ∀ j < 64, u.byte (64 * r + j) =
            if r < m.rows ∧ j = fld w 0 6 then va.scaleByte r else vd.byte (64 * r + j))) ∧
      (Issues (.vscale b a d) s → fld w 8 3 = 4 → va.fmt ≠ 0 →
        ∃ t, exec (.vscale b a d) s = .next t ∧ rest t ∧ (let u := (t.mtOf f).vreg d.toNat
          u.scaled = false ∧ u.data = va.data ∧ u.scale = va.scale)) ∧
      (Issues (.vtag b d) s → badTag (fld w 0 16) = false →
        ∃ t, exec (.vtag b d) s = .next t ∧ rest t ∧ (let u := (t.mtOf f).vreg d.toNat
          u.data = vd.data ∧ u.scale = vd.scale ∧ u.fmt = fld w 0 4 ∧ u.planes = fld w 4 3 ∧ u.scaled = w.getLsbD 7 ∧
            u.poison = (vd.poison || w.getLsbD 8)))) ∧
  (∀ (a d : VNum) (x y : Reg) (s : State),
      let f := s.focus
      let m := s.mtOf f
      let va := m.vreg a.toNat
      let vd := m.vreg d.toNat
      let fmt := va.fmt
      let w := fmtBytes fmt
      let k := s.rd f x.toNat
      let el := fun (r j : Nat) => va.elem w r j
      let rest := fun (t : State) => (∀ k, k ≠ d.toNat → (t.mtOf f).vreg k = m.vreg k) ∧ (∀ k, t.rd f k = s.rd f k) ∧
        GoesTo f (s.pcOf f + 4) s t ∧ Counts f s t ∧ t.mem = s.mem
      (Issues (.vshape x) s → ∃ t, exec (.vshape x) s = .next t ∧ (t.mtOf f).rows = fld k 0 5 + 1 ∧
        (∀ g, (t.mtOf f).cols g = min (fld k 8 6 + 1) (fmtEpr g)) ∧ (t.mtOf f).v = m.v ∧ (∀ k, t.rd f k = s.rd f k) ∧ Counts f s t) ∧
      (Issues (.vmov a d) s → fmt ≠ 0 → ∃ t, exec (.vmov a d) s = .next t ∧ (t.mtOf f).vreg d.toNat = va ∧ rest t) ∧
      (Issues (.vbcr x a d) s → 1 ≤ fmt → fmt ≤ 10 → ∃ t, exec (.vbcr x a d) s = .next t ∧ rest t ∧ (let u := (t.mtOf f).vreg d.toNat
        u.fmt = fmt ∧ (∀ r < m.rows, ∀ j < m.cols fmt, u.elem w r j = el (fld k 0 5) j) ∧
          ∀ r < m.rows, u.scaleByte r = va.scaleByte (fld k 0 5))) ∧
      (Issues (.vbcc x a d) s → 1 ≤ fmt → fmt ≤ 10 → ∃ t, exec (.vbcc x a d) s = .next t ∧ rest t ∧ (let u := (t.mtOf f).vreg d.toNat
        u.fmt = fmt ∧ (∀ r < m.rows, ∀ j < m.cols fmt, u.elem w r j = el r (fld k 0 6 % fmtEpr fmt)) ∧
          ∀ r < m.rows, u.scaleByte r = va.scaleByte r)) ∧
      (Issues (.vtrn a d) s → 1 ≤ fmt → fmt ≤ 10 → va.scaled = false → ∃ t, exec (.vtrn a d) s = .next t ∧ rest t ∧
        (let u := (t.mtOf f).vreg d.toNat
         u.fmt = fmt ∧ ∀ r < min (m.cols fmt) 32, ∀ j < min m.rows (fmtEpr fmt), u.elem w r j = el j r)) ∧
      (Issues (.vins x y d) s → 1 ≤ vd.fmt → vd.fmt ≤ 10 → ∃ t, exec (.vins x y d) s = .next t ∧ rest t ∧
        (let u := (t.mtOf f).vreg d.toNat
         let r0 := fld k 8 5
         let c0 := fld k 0 6 % fmtEpr vd.fmt
         let v := (s.rd f y.toNat).toNat % 2 ^ fmtWidth vd.fmt
         let low := if vd.fmt = 1 then 2 ^ (7 - vd.planes) else 1
         u.tag = vd.tag ∧ ∀ r < 32, ∀ j < fmtEpr vd.fmt, u.elem (fmtBytes vd.fmt) r j =
           if r = r0 ∧ j = c0 then v / low * low else vd.elem (fmtBytes vd.fmt) r j)) ∧
      (Issues (.vext x a y) s → fmt ≠ 0 → (va.poison = true → s.pendOf f = []) → ∃ t, exec (.vext x a y) s = .next t ∧
        Finishes f 4 y.toNat (extracted va (el (fld k 8 5) (fld k 0 6 % fmtEpr fmt))) (s.chkiIf f.core 2 va.poison) t))

/-- Reductions and scans (R64, R238): along every active row or column the elements are combined in order. A sum of integers is
formed in 32 bits; the result of line r stands in row r, or of column j in place j counted through the rows; a scan leaves every
running sum. -/
def Obligations.VectorReductions : Prop :=
  ∀ (a d : VNum) (s : State),
    let f := s.focus
    let m := s.mtOf f
    let va := m.vreg a.toNat
    let vd := m.vreg d.toNat
    let fs := va.fmt
    let el := fun (r j : Nat) => va.elem (fmtBytes fs) r j
    let row := fun (r : Nat) => (List.range (m.cols fs)).map (fun j => el r j)
    let col := fun (j : Nat) => (List.range m.rows).map (fun r => el r j)
    let last := fun (op : Nat) (l : List Nat) => (((reduceRuns op fs l).map (reduceOut op fs)).getLast?).getD 0
    let rest := fun (t : State) => (∀ k, k ≠ d.toNat → (t.mtOf f).vreg k = m.vreg k) ∧ (∀ k, t.rd f k = s.rd f k) ∧
      GoesTo f (s.pcOf f + 4) s t ∧ Counts f s t ∧ t.mem = s.mem
    (isIntFmt fs = true ∨ isFpFmt fs = true) → va.scaled = false →
      (∀ p ∈ [(Instr.vrsumRow a d, 0), (.vrmaxRow a d, 1), (.vrminRow a d, 2)], Issues p.1 s →
        ∃ t, exec p.1 s = .next t ∧ WritesVector f d.toNat (reduceFmt p.2 fs) m.rows 1
          (resultTag vd (reduceFmt p.2 fs) 0 false va.poison (m.rows * fmtBytes (reduceFmt p.2 fs))) (fun r _ => last p.2 (row r)) s t) ∧
      (∀ p ∈ [(Instr.vrsumCol a d, 0), (.vrmaxCol a d, 1), (.vrminCol a d, 2)], Issues p.1 s →
        ∃ t, exec p.1 s = .next t ∧ rest t ∧ (let u := (t.mtOf f).vreg d.toNat
          u.fmt = reduceFmt p.2 fs ∧ ∀ j < m.cols fs, u.elem (fmtBytes (reduceFmt p.2 fs)) (j / fmtEpr (reduceFmt p.2 fs))
            (j % fmtEpr (reduceFmt p.2 fs)) = last p.2 (col j) % 2 ^ (8 * fmtBytes (reduceFmt p.2 fs)))) ∧
      (Issues (.vscanRow a d) s → ∃ t, exec (.vscanRow a d) s = .next t ∧ WritesVector f d.toNat fs m.rows (m.cols fs)
        (resultTag vd fs 0 false va.poison (m.rows * m.cols fs * fmtBytes fs))
        (fun r j => ((reduceRuns 3 fs (row r)).map (reduceOut 3 fs)).getD j 0) s t) ∧
      (Issues (.vscanCol a d) s → ∃ t, exec (.vscanCol a d) s = .next t ∧ WritesVector f d.toNat fs m.rows (m.cols fs)
        (resultTag vd fs 0 false va.poison (m.rows * m.cols fs * fmtBytes fs))
        (fun r j => ((reduceRuns 3 fs (col j)).map (reduceOut 3 fs)).getD r 0) s t) ∧
      (isIntFmt fs = true → ∀ l, l ≠ [] →
        last 0 l = (BitVec.ofInt 32 ((l.map (fun n => (BitVec.ofNat (fmtWidth fs) n).toInt)).sum)).toNat)

/-! ## The matrix engine and the copy engine (chapters 13 and 15) -/

/-- Issuing a matrix command (R263, R270 to R276): where no fault of its entry applies, a record is free and the pair of a paired
core need not close, the command stands last in the list with its fields and operand-extension values, control goes on, and nothing
else changes. With the four records taken it waits.

What a matrix command refuses at issue, in the order of R90: an MZERO can only fail on its scope; a product on a macro whose
active half will hold no tile raises FORMAT naming the macro, and one into a tile that is not I32 raises FORMAT naming the tile
(R89, R273). -/
def Obligations.MatrixCommandsIssue : Prop :=
  ∀ (t m : BitVec 2) (x : BitVec 3) (o : BitVec 2) (g : BitVec 5) (s : State),
    let f := s.focus
    let b := s.cur f.core
    let e2 := s.rdE f 2
    (∀ p ∈ [
      (Instr.mldb m x o g, 0, 0, m.toNat), (Instr.mmul t m x o g, 1, t.toNat, m.toNat), (Instr.mmrot t m x o g, 2, t.toNat, m.toNat),
      (Instr.mdrain t x o g, 3, t.toNat, 0), (Instr.mzero t x o g, 4, t.toNat, 0)],
      let (i, op, tile, mac) := p
      let k : MtxCmd := {
        op := op, tile := tile, mac := mac, ord := o.toNat, scope := x.toNat, tag := g.toNat, e0 := s.rdE f 0, e1 := s.rdE f 1,
        e2 := s.rdE f 2, e3 := s.rdE f 3, rows := 0, st := .queued, fwd := false, accepted := 0, stop := false, status := 0, addr := 0,
        eff := s.effClass f.core, seq := b.jseq }
      Issues i s → s.mtxCause f.core i k = none → Closed f s →
        (b.cmds.length < 4 → ∃ u, exec i s = .next u ∧ (u.cur f.core).cmds = b.cmds ++ [k] ∧ Counts f s u ∧ (∀ r, u.rd f r = s.rd f r) ∧
          (s.agreedHere f = false →
            Passes f (s.pcOf f + 4) (s.modCur f.core (fun q => { q with cmds := b.cmds ++ [k], jseq := b.jseq + 1 })) u)) ∧
        (4 ≤ b.cmds.length → exec i s = .next s)) ∧
    (Issues (.mzero t x o g) s → s.scopeAllowed f.core x.toNat = false →
      exec (.mzero t x o g) s = .next (s.exact f 4 cScope (w64 x.toNat))) ∧
    (Issues (.mmul t m x o g) s → 2 ≤ fld e2 16 4 → fld e2 16 4 ≤ 8 → (s.rdE f 1).toNat % 128 = 0 → fld e2 8 7 + fld e2 0 7 + 1 ≤ 128 →
      e2.getLsbD 15 = false → s.scopeAllowed f.core x.toNat = true → (s.ctx (s.ctxOf f.core)).comp = 0 → b.cmds = [] →
      ((b.cim m.toNat).active.loaded = false → (b.cim m.toNat).shadow.ready = false →
        exec (.mmul t m x o g) s = .next (s.exact f 4 cFormat (w64 (0x20 + m.toNat)))) ∧
      ((b.cim m.toNat).shadow.ready = true → (b.tile t.toNat).fmt ≠ 4 →
        exec (.mmul t m x o g) s = .next (s.exact f 4 cFormat (w64 (0x10 + t.toNat)))))

/-- MWAIT passes once every command has completed and waits before that; MSTAT reads the overflow flag, the number of records, and
of every macro whether its shadow half is loading, whether it is ready, and which half is active (R271, R277).

The matrix engine's events. MATRIX_COMMAND_START (R260, R264): an MLDB reserves the shadow half with its operands; a product
on a ready shadow half swaps the halves, and the old active half becomes free; MZERO and MDRAIN run. MLDB_LOAD_DONE (R272): the
half holds the rows read and is ready. TILE_FORWARD_ARRIVAL (R274): a free shadow half is LOADING for the forwarded tile, and is ready once the load port has its
rows. MATRIX_TOKEN_PLACE
(R269): a completed command's token enters q2 and its record is free. -/
def Obligations.MatrixWaitsAndEvents : Prop :=
  (∀ (d : Reg) (s : State),
      let f := s.focus
      let b := s.cur f.core
      (Issues .mwait s → (∀ k ∈ b.cmds, k.st = .complete) → ∃ t, exec .mwait s = .next t ∧ Passes f (s.pcOf f + 4) s t) ∧
      (Issues .mwait s → (∃ k ∈ b.cmds, k.st ≠ .complete) → exec .mwait s = .next s) ∧
      (Issues (.mstat d) s → b.cmds.length ≤ 4 →
        ∃ t v, exec (.mstat d) s = .next t ∧ Finishes f 4 d.toNat v s t ∧ v.getLsbD 0 = b.movf ∧ fld v 1 3 = b.cmds.length ∧
          ∀ m < 4, v.getLsbD (4 + m) = (b.cim m).shadow.loading ∧ v.getLsbD (8 + m) = (b.cim m).shadow.ready ∧
            v.getLsbD (12 + m) = decide ((b.cim m).act = 1))) ∧
  (∀ (c n : Nat) (k : MtxCmd) (s : State),
      let b := s.cur c
      let q := b.cim k.mac
      Alive s → s.engineOn c = true →
      (b.cmds[n]? = some k → b.mayStart (s.portBusy (s.ctxOf c) c) n k = true → k.op = 0 →
        ∃ t, exec (.matrixCommandStart c n) s = .next t ∧ ((t.cur c).cim k.mac).active = q.active ∧
          ((t.cur c).cim k.mac).shadow = { Half.zero with va := k.e0, stride := k.e1, pb := fld k.e2 0 4, kk := fld k.e2 8 7 + 1, loading := true } ∧
          { k with st := .running } ∈ (t.cur c).cmds) ∧
      (b.cmds[n]? = some k → b.mayStart (s.portBusy (s.ctxOf c) c) n k = true → k.op = 1 → k.wide = false → q.shadow.ready = true → q.shadow.loaded = true →
        q.shadow.invalid = false →
        ∃ t, exec (.matrixCommandStart c n) s = .next t ∧ ((t.cur c).cim k.mac).active = { q.shadow with ready := false } ∧
          ((t.cur c).cim k.mac).shadow = Half.zero ∧ (∃ r ∈ (t.cur c).cmds, r.seq = k.seq ∧ r.st = .running)) ∧
      (b.cmds[n]? = some k → b.mayStart (s.portBusy (s.ctxOf c) c) n k = true → (k.op = 3 ∨ k.op = 4) →
        ∃ t, exec (.matrixCommandStart c n) s = .next t ∧ (t.cur c).cims = b.cims ∧ (t.cur c).tiles = b.tiles ∧
          { k with st := .running } ∈ (t.cur c).cmds) ∧
      (∀ bs z, b.cmds[n]? = some k → k.op = 0 → k.st = .running → k.fwd = false → k.stop = false →
        (∀ y ∈ s.rowKeys c q.shadow, y.1 = 0xFF) →
        s.engineRead c thrMatrix k.seq k.eff rRead ((List.range k.count).map k.row) = .ok bs z [] →
        q.shadow.pb ≤ 8 → q.shadow.kk ≤ 128 → bs.length = 16 * q.shadow.pb * q.shadow.kk →
        ∃ t, exec (.mldbLoadDone c n) s = .next t ∧ ((t.cur c).cim k.mac).active = q.active ∧
          (let h := ((t.cur c).cim k.mac).shadow
           h.loaded = true ∧ h.ready = true ∧ h.loading = false ∧ h.invalid = false ∧ h.poison = z ∧ h.va = q.shadow.va ∧
             ∀ r < q.shadow.kk, ∀ j < 16 * q.shadow.pb, SMap.get 0 h.plain (128 * r + j) = bs.getD (16 * q.shadow.pb * r + j) 0)) ∧
      (∀ p m h sender cmd, s.net[n]? = some p → p.dst = c → p.ctx = s.ctxOf c → s.exists? p.ctx = true →
        (p.body = .tile m h sender cmd false → (b.cim m).shadow.ready = false → (b.cim m).shadow.loading = false →
          s.portBusy p.ctx c = false →
          ∃ t, exec (.tileForwardArrival n) s = .next t ∧ t.net = setAt s.net n { p with body := .tile m h sender cmd true } ∧
            ((t.cur c).cim m).shadow = { h with loaded := false, ready := false, loading := true } ∧
            ((t.cur c).cim m).active = (b.cim m).active) ∧
        (p.body = .tile m h sender cmd true → h.slot = 0xFF → (∀ y ∈ h.rowsAt, y.1 = 0xFF) → h.pb ≤ 8 → h.kk ≤ 128 →
          ∃ t, exec (.tileForwardArrival n) s = .next t ∧ t.net = dropAt s.net n ∧ ((t.cur c).cim m).active = (b.cim m).active ∧
            (let u := ((t.cur c).cim m).shadow
             u.loaded = true ∧ u.ready = true ∧ u.loading = false ∧ u.invalid = false ∧ u.poison = h.poison ∧ u.va = h.va ∧
               ∀ r < h.kk, ∀ j < 16 * h.pb, SMap.get 0 u.plain (128 * r + j) = SMap.get 0 h.raw (128 * r + j)))) ∧
      (b.cmds[n]? = some k → k.st = .complete → (∀ r ∈ b.cmds.take n, r.st ≠ .complete) → b.q2.length < tokenDepth →
        ∃ t, exec (.matrixTokenPlace c n) s = .next t ∧ (t.cur c).q2 = b.q2 ++ [k.token] ∧ (t.cur c).cmds = dropAt b.cmds n ∧
          (t.cur c).wfe = true))

/-- The products and the zeroing of the matrix engine (R62, R266, R276): as MATRIX_COMMAND_COMPLETE runs a started MMUL on by one
row (one event for one row is the model's choice, log 10) with the row's bytes at hand, every accumulator of that row gains the exact dot product of the A row and the column of the
active tile, kept modulo 2^32, and no other accumulator of the tile changes. A started MZERO leaves its tile all zeros in I32 and
is done. -/
def Obligations.MatrixArithmetic : Prop :=
  ∀ (c n : Nat) (k : MtxCmd) (a : List Byte) (z : Bool) (s : State),
    let b := s.cur c
    let h := (b.cim k.mac).active
    let va := rowValues a k.planes h.kk
    let vb := h.values
    let row := fld k.e2 8 7 + k.rows
    let old := fun (p : Nat) => SMap.get 0 (b.tile k.tile).acc p
    Alive s → s.engineOn c = true → b.cmds[n]? = some k →
      b.cmds.find? (fun q => decide (q.seq = k.seq) && decide (q.st = .running)) = some k → k.stop = false →
    (k.op = 1 → k.wide = false → k.rows < k.count → s.engineRead c thrMatrix k.seq k.eff rRead [k.row k.rows] = .ok a z [] →
      ∃ t, exec (.matrixCommandComplete c n 0) s = .next t ∧
        ((t.cur c).tile k.tile).fmt = 4 ∧ ((t.cur c).tile k.tile).poison = ((b.tile k.tile).poison || z || h.poison) ∧
        (∀ j < 128, SMap.get 0 ((t.cur c).tile k.tile).acc (128 * row + j) =
          BitVec.ofInt 32 ((old (128 * row + j)).toInt +
            ((List.range h.kk).map (fun p => va.getD p 0 * (vb.getD p []).getD j 0)).sum)) ∧
        (∀ p, p / 128 ≠ row → SMap.get 0 ((t.cur c).tile k.tile).acc p = old p) ∧
        { k with rows := k.rows + 1 } ∈ (t.cur c).cmds) ∧
    (k.op = 4 → s.engineOwes c k.ord k.scope = false →
      ∃ t, exec (.matrixCommandComplete c n 0) s = .next t ∧ (t.cur c).tile k.tile = ⟨[], BitVec.ofNat 16 4⟩ ∧
        ∀ q ∈ (t.cur c).cmds, q.seq = k.seq → q.st = .complete)

/-- Copies (R302 to R305). CPY and CPYX take a place in flight with their operands and go on. CPYW passes when no copy of its tag is
in flight. CPYQ reads how many copies are in flight and how many tokens wait. COPY_COMPLETE: a copy whose last byte has moved and
whose release has performed leaves, its token goes to q3, and the next granule of one that runs is moved; one event for one granule is
the model's choice (log 10). -/
def Obligations.Copies : Prop :=
  ∀ (x : BitVec 3) (o : BitVec 2) (g : BitVec 5) (a d : Reg) (s : State),
    let f := s.focus
    let b := s.cur f.core
    (∀ p ∈ [(Instr.cpy x o g, 0), (Instr.cpyx x o g, 1)],
      let k : CopyRec := {
        op := p.2, ord := o.toNat, scope := x.toNat, tag := g.toNat, e0 := s.rdE f 0, e1 := s.rdE f 1, e2 := s.rdE f 2,
        e3 := s.rdE f 3, moved := 0, stop := false, st := .queued, status := 0, addr := 0, lost := 0, eff := s.effClass f.core, seq := b.jseq }
      Issues p.1 s → k.badFields = false → s.scopeAllowed f.core x.toNat = true → s.copyGated f.core k = false →
        Closed f s → k.rowLen ≠ 0 →
        (b.copies.length < 256 → ∃ t, exec p.1 s = .next t ∧ (t.cur f.core).copies = b.copies ++ [k] ∧ Counts f s t ∧
          (∀ r, t.rd f r = s.rd f r) ∧ (s.agreedHere f = false →
            Passes f (s.pcOf f + 4) (s.modCur f.core (fun q => { q with copies := b.copies ++ [k], jseq := b.jseq + 1 })) t)) ∧
        (256 ≤ b.copies.length → exec p.1 s = .next s)) ∧
    (let tag := fld (s.rd f a.toNat) 0 5
     let busy := ∃ k ∈ b.copies, k.st ≠ .complete ∧ (tag = 0 ∨ k.tag = tag)
     Issues (.cpyw a) s → (¬busy → ∃ t, exec (.cpyw a) s = .next t ∧ Passes f (s.pcOf f + 4) s t) ∧
      (busy → exec (.cpyw a) s = .next s)) ∧
    (Issues (.cpyq d) s → ∃ t, exec (.cpyq d) s = .next t ∧
      Finishes f 4 d.toNat (w64 (b.copies.length + 2 ^ 16 * b.q3.length)) s t) ∧
    (∀ (c n : Nat) (k : CopyRec), let b := s.cur c
     Alive s → s.engineOn c = true → b.copies[n]? = some k →
       b.copies.find? (fun q => decide (q.seq = k.seq) && decide (q.st = .running)) = some k →
      ((k.total ≤ k.moved ∨ k.stop = true) → s.engineOwes c k.ord k.scope = false → k.tag ≠ 0 → b.q3.length < tokenDepth →
        ∃ t, exec (.copyComplete c n 0) s = .next t ∧ (t.cur c).q3 = b.q3 ++ [k.token] ∧
          (t.cur c).copies = b.copies.filter (fun q => q.seq ≠ k.seq) ∧ (t.cur c).cnt.copies = b.cnt.copies + 1) ∧
      (∀ bs, k.moved < k.total → k.stop = false → s.cpyOk (ctxFn (s.ctxOf c)) = true →
        s.engineAll c thrCopy k.seq k.eff rRead none false (s.rowPiece c k k.src) = .ok bs false [] →
        s.engineAll c thrCopy k.seq k.eff rWrite (some (fun _ => bs)) false (s.rowPiece c k k.dst) = .ok [] false [] →
        ∃ t, exec (.copyComplete c n 0) s = .next t ∧ { k with moved := k.moved + 16 } ∈ (t.cur c).copies ∧
          (t.cur c).cnt.cpyBytes = b.cnt.cpyBytes + 16 ∧ t.mem = s.mem ∧ t.dram = s.dram))

/-! ## Mapping, state registers, traps, pairs and gates (chapters 04, 06, 16, 18, 19 and 21) -/

/-- MAP, GRANT, UNMAP, RELEASE and ACCEPT hold their request in the outbox with the operands and the stamp VTIME + RETIRED +
LOOKAHEAD, and return that stamp (R326, R330, R331, R336, R337); a full outbox raises ACCESS with the address.

MQUERY never faults and changes nothing but its destination (R339): of a mapped byte it reads the rights, the depth, the
attribute and the class with bit 62 set; of a tombstone bit 63 alone; of a page of which nothing is mapped zero. -/
def Obligations.MappingRequestsAndQueries : Prop :=
  (∀ (r : BitVec 6) (b a d : Reg) (s : State),
      let f := s.focus
      let c := f.core
      let va := s.rd f a.toNat
      let stamp := (s.cur c).vtime + (s.cur c).retired + (s.cur c).actDesc.lookahead
      ∀ p ∈ [
        (Instr.map r b a d, 0, s.rd f b.toNat, r, d.toNat), (Instr.grant r b a d, 1, s.rd f b.toNat, r, d.toNat),
        (Instr.unmap a d, 2, s.rdE f 0, 0, d.toNat), (Instr.release a, 4, s.rdE f 0, 0, 0), (Instr.accept a d, 5, s.rdE f 0, 0, d.toNat)],
      let (i, op, len, rights, dst) := p
      Issues i s →
        ((s.cur c).outbox.length < 64 → ∃ t q, exec i s = .next t ∧ (t.cur c).outbox = (s.cur c).outbox ++ [.req q] ∧
          q.op = op ∧ q.ctx = s.ctxOf c ∧ q.core = c ∧ q.a = va ∧ q.b = len ∧ q.rights = rights ∧ q.e0 = s.rdE f 0 ∧
          q.e1 = s.rdE f 1 ∧ q.e2 = s.rdE f 2 ∧ q.e3 = s.rdE f 3 ∧ q.stamp = stamp ∧
          Finishes f 4 dst (w64 stamp) (s.modCur c (fun k => { k with outbox := (s.cur c).outbox ++ [.req q] })) t) ∧
        (64 ≤ (s.cur c).outbox.length → exec i s = .next (s.exact f 4 cAccess va))) ∧
  (∀ (a d : Reg) (s : State),
      let f := s.focus
      let ctx := s.ctxOf f.core
      let va := (s.rd f a.toNat).toNat
      Issues (.mquery a d) s → ∃ t v, exec (.mquery a d) s = .next t ∧ Finishes f 4 d.toNat v s t ∧
        (∀ x, s.walk ctx va = .hit x → x.attr < 4 → s.classAt x.la < 4 → (∀ k, x.node = some k → (s.node k).depth < 256) →
          v.getLsbD 63 = false ∧ v.getLsbD 62 = true ∧ fld v 60 2 = x.attr ∧ fld v 58 2 = s.classAt x.la ∧ v.getLsbD 56 = true ∧
            fld v 48 8 = (x.node.map (fun k => (s.node k).depth)).getD 0 ∧ fld v 0 6 = x.rights.toNat) ∧
        (s.walk ctx va = .tomb → v = 0x8000_0000_0000_0000) ∧
        (s.walk ctx va = .unmapped →
          (∀ p ∈ s.nodes, p.2.maps = true → p.2.holder = ctx → isRoot ctx = false →
            ∀ w ∈ p.2.vaParts, w.1 / 4096 ≠ va / 4096) → v = 0))

/-- CSRR delivers a state register to a thread that has it and changes nothing else (R87, R147): one line for each register below,
with the threads that may read it: 0 every thread, 1 the control thread, 2 a micro-thread, 3 the handler. -/
def Obligations.StateRegisterReads : Prop :=
  ∀ (d : Reg) (s : State),
    let f := s.focus
    let k := s.core f.core
    let b := s.cur f.core
    ∀ p ∈ [
      (0x001, w64 s.ptime, 0), (0x002, w64 b.vtime, 0), (0x003, w64 s.floor, 0), (0x004, w64 b.retired, 1),
      (0x005, w64 (s.primaryOf f.core % 64 + 256 * (s.primaryOf f.core / 64)), 0), (0x006, b.actid, 1), (0x008, b.chki, 0),
      (0x009, zext b.ebud, 1), (0x00A, zext b.ebcnt, 1), (0x010, (b.mt (f.thr - 1)).shape, 2), (0x011, b.mtmask, 1), (0x012, b.mtflt, 1),
      (0x018, b.mstat, 1), (0x020, k.bankcfg, 1), (0x021, b.psj, 1), (0x022, (b.entry (fld k.psje 0 6)).word (fld k.psje 6 2), 1),
      (0x030, b.nestReg, 1), (0x040, b.trctl, 1), (0x100, k.tvec, 3), (0x101, k.tcause, 3), (0x102, k.tval, 3), (0x103, k.tepc, 3),
      (0x104, s.tstat f.core, 3), (0x105, k.savebase, 3), (0x106, k.ctxid, 3), (0x107, k.hpol, 3), (0x108, k.fpint, 3),
      (0x109, (s.pairOf f.core).word, 3), (0x10A, k.lease, 3), (0x10B, setFld k.kclass 4 2 (s.effClass f.core), 3), (0x10C, k.parkto, 3),
      (0x10D, k.gmem, 3)],
    let (n, v, who) := p
    let i := Instr.csrr (BitVec.ofNat 12 n) d
    Issues i s →
      ((who = 0 ∨ (who = 1 ∧ f.thr = 0) ∨ (who = 2 ∧ f.thr ≠ 0) ∨ (who = 3 ∧ f.thr = 0 ∧ s.inHandler f = true)) →
        ∃ t, exec i s = .next t ∧ Finishes f 4 d.toNat v s t) ∧
      ((who = 1 ∧ f.thr ≠ 0 ∨ who = 2 ∧ f.thr = 0 ∨ who = 3 ∧ s.inHandler f = false) →
        (s.inHandler f = true ∨ s.pendOf f = []) → exec i s = .next (s.exact f 4 cIllegal (encodeWord i)))

/-- CSRW, CSRS and CSRC return the old value and store the new one under the register's writable bits (R88, R147): the operand, the
old value with the operand's bits set, or with them clear. CTXID keeps VF only where PF is 0 (R144), FPINT is at least 16 (R382), LEASE
lies within 64 and 4096 (R287), KCLASS.MIN never takes 3 (R369). TSTAT stores MTFE and EACT, and SCMD starts a save or a restore where
none is in progress (R143). BANKCFG gives every bank its mode, but for banks of another owner, for reserved values, and for the last
FIFO bank, and a bank that becomes scratch its owner and class (R282, R283).

Registers whose bits are cleared by writing ones (R88, R147, R257, R271, R372): CSRW and CSRS clear the operand's bits, CSRC changes
nothing. A write of PAIRSTAT changes nothing and raises nothing: that is the model's choice (log 80). A write of a read-only register
raises ILLEGAL. -/
def Obligations.StateRegisterWrites : Prop :=
  (∀ (a d : Reg) (s : State),
      let f := s.focus
      let c := f.core
      let x := s.rd f a.toNat
      ∀ p ∈ [
        (0x010, fun (u : State) => ((u.cur c).mt (f.thr - 1)).shape, 0x3F1F, 2), (0x011, fun u => (u.cur c).mtmask, 0xFFFF, 1),
        (0x040, fun u => (u.cur c).trctl, 0xFFFF_00FF, 1), (0x100, fun u => (u.core c).tvec, ~~~3, 3), (0x101, fun u => (u.core c).tcause, 0xFF, 3),
        (0x102, fun u => (u.core c).tval, ~~~0, 3), (0x103, fun u => (u.core c).tepc, ~~~1, 3), (0x105, fun u => (u.core c).savebase, ~~~0xFFF, 3),
        (0x107, fun u => (u.core c).hpol, 7, 3), (0x10C, fun u => (u.core c).parkto, 0x8000_0000_FFFF_FFFF, 3),
        (0x10D, fun u => (u.core c).gmem, 0xF_FFFF_FFFF, 3)],
      let (n, reg, mask, who) := p
      let csr := BitVec.ofNat 12 n
      ((who = 1 ∧ f.thr = 0) ∨ (who = 2 ∧ f.thr ≠ 0) ∨ (who = 3 ∧ f.thr = 0 ∧ s.inHandler f = true)) →
        ∀ q ∈ [(Instr.csrw csr a d, x), (Instr.csrs csr a d, reg s ||| x), (Instr.csrc csr a d, reg s &&& ~~~x)],
          Issues q.1 s → ∃ t, exec q.1 s = .next t ∧ reg t = q.2 &&& mask ∧ SetsReg f d.toNat (reg s) s t ∧ GoesTo f (s.pcOf f + 4) s t ∧
            Counts f s t ∧ t.mem = s.mem ∧ t.floor = s.floor ∧ t.ptime = s.ptime) ∧
  (∀ (a d : Reg) (s : State),
      let f := s.focus
      let c := f.core
      let k := s.core c
      let x := s.rd f a.toNat
      let old := fun (n : Nat) => s.srRead f n
      let writes := fun (n : Nat) (post : Word → State → Prop) =>
        ∀ q ∈ [(Instr.csrw (BitVec.ofNat 12 n) a d, x), (.csrs (BitVec.ofNat 12 n) a d, old n ||| x),
          (.csrc (BitVec.ofNat 12 n) a d, old n &&& ~~~x)],
          Issues q.1 s → ∃ t, exec q.1 s = .next t ∧ SetsReg f d.toNat (old n) s t ∧ Counts f s t ∧ post q.2 t
      (f.thr = 0 → s.inHandler f = true →
        writes 0x106 (fun v t => (t.core c).ctxid = if v.getLsbD 31 then v &&& 0x80FF_FFFF else v &&& 0xFFFF_FFFF) ∧
        writes 0x108 (fun v t => (t.core c).fpint = w64 (if fld v 0 16 < 16 then 16 else fld v 0 16)) ∧
        writes 0x10A (fun v t => (t.core c).lease =
          w64 (if fld v 0 13 < 64 then 64 else if 4096 < fld v 0 13 then 4096 else fld v 0 13)) ∧
        writes 0x10B (fun v t => (t.core c).kclass.getLsbD 7 = v.getLsbD 7 ∧
          fld (t.core c).kclass 0 2 = if fld v 0 2 = 3 then fld k.kclass 0 2 else fld v 0 2) ∧
        writes 0x104 (fun v t => (t.cur c).mtfe = v.getLsbD 26 ∧ (t.core c).eact.toNat = fld v 24 2 ∧
          (k.sbusy = false → (t.core c).sbusy = decide (fld v 29 2 = 1 ∨ fld v 29 2 = 2) ∧
            (t.core c).saving = if fld v 29 2 = 1 then true else if fld v 29 2 = 2 then false else k.saving))) ∧
      (f.thr = 0 → writes 0x020 (fun v t =>
        let mode := fun (n : Nat) => fld k.bankcfg (4 * n) 2
        let other := fun (n : Nat) => mode n = 1 ∧ SMap.find? k.bankOwner n ≠ k.ctx
        let asked := fun (n : Nat) => if other n ∨ fld v (4 * n) 2 = 3 then mode n else fld v (4 * n) 2
        let stays := fun (n : Nat) => (∀ m < 16, asked m ≠ 2) ∧ mode n = 2 ∧ ∀ m < 16, mode m = 2 → m ≤ n
        ∀ n < 16, (stays n → fld (t.core c).bankcfg (4 * n) 2 = 2) ∧ (¬stays n → fld (t.core c).bankcfg (4 * n) 2 = asked n) ∧
          (¬stays n → asked n = mode n → fld (t.core c).bankcfg (4 * n + 2) 2 = fld k.bankcfg (4 * n + 2) 2) ∧
          (¬stays n → asked n = 1 → mode n ≠ 1 → SMap.find? (t.core c).bankOwner n = k.ctx ∧
            (fld v (4 * n + 2) 2 ≠ 3 → fld (t.core c).bankcfg (4 * n + 2) 2 = fld v (4 * n + 2) 2))))) ∧
  (∀ (a d : Reg) (s : State),
      let f := s.focus
      let c := f.core
      let x := s.rd f a.toNat
      (∀ p ∈ [(0x008, fun (u : State) => (u.cur c).chki, true), (0x012, fun u => (u.cur c).mtflt, decide (f.thr = 0))],
        let (n, reg, may) := p
        let csr := BitVec.ofNat 12 n
        may = true → ∀ q ∈ [(Instr.csrw csr a d, reg s &&& ~~~x), (Instr.csrs csr a d, reg s &&& ~~~x), (Instr.csrc csr a d, reg s)],
          Issues q.1 s → ∃ t, exec q.1 s = .next t ∧ reg t = q.2 ∧ SetsReg f d.toNat (reg s) s t ∧ Counts f s t ∧ t.mem = s.mem) ∧
      (f.thr = 0 → ∀ q ∈ [(Instr.csrw 0x018 a d, x), (Instr.csrs 0x018 a d, x), (Instr.csrc 0x018 a d, 0)],
        Issues q.1 s → ∃ t, exec q.1 s = .next t ∧ SetsReg f d.toNat (s.cur c).mstat s t ∧ Counts f s t ∧ t.mem = s.mem ∧
          (t.cur c).movf = ((s.cur c).movf && !q.2.getLsbD 0) ∧ (t.cur c).mErr = ((s.cur c).mErr && !q.2.getLsbD 40) ∧
          (t.cur c).cmds = (s.cur c).cmds ∧ (t.cur c).cims = (s.cur c).cims ∧ (t.cur c).tiles = (s.cur c).tiles) ∧
      (s.inHandler f = true → f.thr = 0 → ∀ i ∈ [Instr.csrw 0x109 a d, .csrs 0x109 a d, .csrc 0x109 a d],
        Issues i s → ∃ t, exec i s = .next t ∧ Finishes f 4 d.toNat (s.pairOf c).word s t) ∧
      (∀ n ∈ [0x001, 0x002, 0x003, 0x004, 0x005, 0x006, 0x009, 0x00A, 0x021, 0x030], let csr := BitVec.ofNat 12 n
        ∀ i ∈ [Instr.csrw csr a d, .csrs csr a d, .csrc csr a d],
          Issues i s → exec i s = .next (s.exact f 4 cIllegal (encodeWord i))))

/-- R82: what is privileged raises ILLEGAL outside the handler, and TRAP, BRKPT, PAIR and UNPAIR are legal there. -/
def Obligations.PrivilegedOutsideHandler : Prop :=
  ∀ (n : BitVec 12) (a d : Reg) (s : State),
    let f := s.focus
    s.inHandler f = false →
      (∀ i ∈ [Instr.csrr n d, .csrw n a d, .csrs n a d, .csrc n a d], 0x100 ≤ n.toNat → s.pendOf f = [] → (issue i s = .go ∨ issue i s = .illegal) →
        exec i s = .next (s.exact f 4 cIllegal (encodeWord i))) ∧
      ((issue .eret s = .go ∨ issue .eret s = .illegal) → exec .eret s = .next (s.exact f 4 cIllegal (encodeWord .eret))) ∧
      (Issues (.trap a) s → exec (.trap a) s = .next (s.exact f 4 cSwtrap (s.rd f a.toNat))) ∧
      (Issues .brkpt s → s.sessionOn f = false → ∃ t, exec .brkpt s = .next t ∧ Passes f (s.pcOf f + 4) s t) ∧
      (Issues .pair s → (s.core f.core).kclass.getLsbD 7 = true → f.core % 2 = 0 → (s.core f.core).pair.mode = .off →
        (∀ k < 16, ((s.bind (s.ctxOf f.core) (f.core + 1)).slot k).st = .empty) → s.partnerFree f.core = true →
        ∃ t, exec .pair s = .next t ∧ (t.core f.core).pair.mode = .run) ∧
      (Issues .unpair s → s.effClass f.core ≠ 3 → (s.core f.core).pair.mode = .off →
        ∃ t, exec .unpair s = .next t ∧ Passes f (s.pcOf f + 4) s t)

/-- Taking an exact trap (R89, R133, R135, R139, R148, R256), of a TRAP and of a word that nothing assigns. The control thread enters the
handler: cause, TVAL, the program counter and the instruction's length are saved, EACT takes the cause's default, and control goes
to TVEC; the context's registers stay. In the handler it is a double trap: the binding is abandoned and the context FAULTED. A
micro-thread stops in FAULT with its cause and its value, and its bit of MTFLT and the latch are set. -/
def Obligations.ExactTraps : Prop :=
  ∀ (a : Reg) (w : BitVec 32) (s : State),
    let f := s.focus
    let c := f.core
    ∀ p ∈ [
      (Instr.trap a, Issue.go, cSwtrap, s.rd f a.toNat, 4, 1),
      (Instr.unassignedEncoding w, Issue.illegal, cIllegal, zext w, instrLen (.unassignedEncoding w), 2)],
    let (i, finds, code, tval, len, eact) := p
    issue i s = finds →
      (f.thr = 0 → s.inHandler f = false → ∃ t, exec i s = .next t ∧
        (let k := t.core c
         k.hmode = true ∧ k.tcause = w64 code ∧ k.tval = tval ∧ k.tepc = (s.cur c).pc &&& ~~~1 ∧ k.trapLen = len ∧
           k.eact = BitVec.ofNat 2 eact ∧ k.hpc = (s.core c).tvec) ∧
        (t.cur c).x = (s.cur c).x ∧ (t.cur c).pc = (s.cur c).pc ∧ (t.cur c).retired = (s.cur c).retired) ∧
      (f.thr = 0 → s.inHandler f = true → ∀ n, (s.core c).ctx = some n → ∃ t, exec i s = .next t ∧ (t.core c).ctx = none ∧
        ((s.ctx n).st = .live → (t.ctx n).st = .faulted ∧ (t.ctx n).fcause = code ∧ (t.ctx n).freason = 2)) ∧
      (1 ≤ f.thr → f.thr ≤ 16 → ∃ t, exec i s = .next t ∧
        (let m := (t.cur c).mt (f.thr - 1)
         m.run = .fault ∧ m.cause = code ∧ m.tval = tval ∧ m.pc = s.pcOf f ∧ m.w = ((s.cur c).mt (f.thr - 1)).w) ∧
        (t.cur c).mtflt.getLsbD (f.thr - 1) = true ∧ (t.cur c).wfe = true)

/-- Leaving the handler (R149): ERET waits while a save or restore runs; a binding that is SAVING and has been saved, or whose
pre-emption has been taken, is left and goes OUT (one whose PREEMPT still pends is not left, which is the model's choice, log 83); with no activation the core returns to dispatch; otherwise EACT 0 goes to TEPC, 1
behind the trapped instruction, and 2 ends the activation failed. -/
def Obligations.HandlerReturn : Prop :=
  ∀ (s : State) (n : Nat),
    let f := s.focus
    let c := f.core
    let k := s.core c
    let b := s.cur c
    Issues .eret s → s.inHandler f = true →
      let goes := k.sbusy = false ∧ s.trapLogFull c = false ∧ k.ctx = some n ∧ k.pair.mode = .off
      (k.sbusy = true → exec .eret s = .next s) ∧
      (goes → b.st = .saving → (k.saving = true ∨ b.pendBits.getLsbD pPreempt = false) → recValid (s.slotRec c) = false →
        ∃ t, exec .eret s = .next t ∧ (t.core c).hmode = false ∧ (t.core c).ctx = none ∧ (t.bind n c).st = .out) ∧
      (goes → (b.st ≠ .saving ∨ (k.saving = false ∧ b.pendBits.getLsbD pPreempt = true)) →
        ∃ t, exec .eret s = .next t ∧ (t.core c).hmode = false ∧ (t.core c).ctx = some n ∧
          (b.act = none → (t.cur c).pc = b.pc ∧ (t.cur c).act = none) ∧
          (b.act.isSome = true → b.loop = none →
            (k.eact = 0 → (t.cur c).pc = k.tepc ∧ (t.cur c).act = b.act) ∧
            (k.eact = 1 → (t.cur c).pc = k.tepc + w64 k.trapLen ∧ (t.cur c).act = b.act) ∧
            (k.eact = 2 → (t.cur c).act = none ∧ (t.cur c).outbox = [])))

/-- WFE passes when the latch is set, and clears it, and waits otherwise (R150). BRKPT and C.BRK stop the control thread inside a session, as a BRK trap (R425, R431).

CHECKERR with nothing in CHKI, or in an effective class U, reads CHKI (R371, R374). GATE opens the lowest closed window over a range
within the gate's and returns its number, or closes the window named; a context outside every compartment gets GATE (R399). GSTAT
reads a gate's kinds, compartment and open windows, zero where it is not declared; of a mapped address the compartment, the key slot
and the line, and zero of an unmapped one (R400). TRACE, while TRCTL selects it, writes a record of type 5 with its operand and its own address to
the function's ring and TAIL advances; a full or disabled ring drops it and LOST counts it (R432, R434, R435). -/
def Obligations.EventsBreakpointsAndChecks : Prop :=
  (∀ (s : State),
      let f := s.focus
      let c := f.core
      let b := s.cur c
      (Issues .wfe s → (b.wfe = true → ∃ t, exec .wfe s = .next t ∧ Passes f (s.pcOf f + 4) (s.modCur c (fun k => { k with wfe := false })) t ∧
          (t.cur c).wfe = false) ∧
        (b.wfe = false → exec .wfe s = .next s)) ∧
      (∀ i ∈ [Instr.brkpt, .cBrk], Issues i s → s.sessionOn f = true → f.thr = 0 → s.dbg.mode = 0 →
        ∃ t, exec i s = .next t ∧ t.dbg.mode = 1 ∧ t.dbg.cause = 3 ∧ t.dbg.hitcore = c ∧ t.dbg.addr = s.pcOf f ∧
          (t.core c).hmode = true ∧ (t.core c).tcause = w64 cBrk ∧ (t.core c).tval = s.pcOf f ∧ (t.core c).eact = 0 ∧ (t.cur c).x = b.x)) ∧
  (∀ (a d : Reg) (t' : GateEnt) (s : State),
      let f := s.focus
      let c := f.core
      let b := s.cur c
      let k := s.ctx (s.ctxOf c)
      let g := fld (s.rd f a.toNat) 0 8
      let e3 := s.rdE f 3
      (Issues (.checkerr d) s → Closed f s → s.agreedHere f = false → (b.chki = 0 ∨ s.effClass c = 2) →
        ∃ t, exec (.checkerr d) s = .next t ∧ Finishes f 4 d.toNat b.chki s t) ∧
      (Issues (.gate a d) s → e3 = 0 → k.comp ≠ 0 → k.gates[g]? = some t' → gateFits t' (s.rdE f 0) (s.rdE f 1) (s.rdE f 2) = true →
        ∀ w < 4, (b.window w).isOpen = false → (∀ v < w, (b.window v).isOpen = true) →
          ∃ t, exec (.gate a d) s = .next t ∧ SetsReg f d.toNat (w64 w) s t ∧ GoesTo f (s.pcOf f + 4) s t ∧ Counts f s t ∧
            ∀ v < 4, (t.cur c).window v =
              if v = w then ⟨s.rdE f 0, s.rdE f 1, g, fld (s.rdE f 2) 0 3, true⟩ else b.window v) ∧
      (Issues (.gate a d) s → e3 &&& ~~~0xB = 0 → e3.getLsbD 3 = true → k.comp ≠ 0 → k.gates[g]? = some t' →
        (b.window (fld e3 0 2)).isOpen = true → (b.window (fld e3 0 2)).gate = g →
          ∃ t, exec (.gate a d) s = .next t ∧ SetsReg f d.toNat (w64 (fld e3 0 2)) s t ∧
            ((t.cur c).window (fld e3 0 2)).isOpen = false) ∧
      (Issues (.gate a d) s → e3 &&& ~~~0xB = 0 → k.comp = 0 → exec (.gate a d) s = .next (s.exact f 4 cGate (w64 g))) ∧
      (Issues (.gstat a d) s → ∃ t v, exec (.gstat a d) s = .next t ∧ Finishes f 4 d.toNat v s t ∧
        ((s.rd f a.toNat).getLsbD 63 = false → k.gates[g]? = some t' → t'.kinds < 256 → t'.other < 256 →
          fld v 0 8 = g ∧ fld v 8 8 = t'.kinds ∧ fld v 16 8 = t'.other ∧
            ∀ w < 4, v.getLsbD (32 + w) = ((b.window w).isOpen && decide ((b.window w).gate = g))) ∧
        ((s.rd f a.toNat).getLsbD 63 = false → k.gates[g]? = none → v = 0) ∧
        ((s.rd f a.toNat).getLsbD 63 = true → s.laOf (s.ctxOf c) (fld (s.rd f a.toNat) 0 57) = none → v = 0) ∧
        (∀ la, (s.rd f a.toNat).getLsbD 63 = true → s.laOf (s.ctxOf c) (fld (s.rd f a.toNat) 0 57) = some la →
          (let fr := s.frame (la / 4096)
           let comp := if isHost la then 0 else fr.comp
           let slot := if comp = 1 then (s.world fr.vf).moslot else if comp = 2 then (s.world fr.vf).doslot else 0xFF
           v = w64 (2 ^ 63 + 2 ^ 56 * comp + 2 ^ 48 * slot + la / 128 * 128)))) ∧
      (Issues (.trace a) s → b.trctl.getLsbD 0 = true → b.trctl.getLsbD 7 = true →
        (let fn := ctxFn (s.ctxOf c)
         let r := trRing fn
         let place := s.ringBase r + 64 * (s.ringTail r % s.ringSize r)
         (∀ la, s.ringOn r = true → s.ringRoom r = true → SMap.get 0 s.traceLost fn = 0 → s.laOf (rootCtx fn) place = some la →
            s.laOf (rootCtx fn) (place + 32) = some (la + 32) → la + 64 ≤ 2 ^ 47 →
            ∃ t, exec (.trace a) s = .next t ∧ Counts f s t ∧ t.ringTail r = (s.ringTail r + 1) % 2 ^ 32 ∧
              t.bytesAt la 64 = traceBytes s.ptime b c (s.ctxOf c) 5 0 (SMap.get 0 (s.core c).trCnt fn) (s.rd f a.toNat) (s.pcOf f)) ∧
          ((s.ringOn r && s.ringRoom r) = false →
            ∃ t, exec (.trace a) s = .next t ∧ Counts f s t ∧ t.mem = s.mem ∧ t.ringTail r = s.ringTail r ∧
              (t.reg (r + 0x20)).toNat = min ((s.reg (r + 0x20)).toNat + 1) (2 ^ 64 - 1)))))

/-- Where the sends, the ends of an activation, and the event, pair and gate instructions complete. A send whose checks pass (R189, R190)
completes with its payload in a scratch bank of its own core, or in the handler: its messages stand in the outbox and the instruction
counts. END, C.END and ENDX complete once the micro-threads are still and a pair has agreed (R193, R194, R383), CHECKERR once a pair has
agreed: it reads CHKI, has the input set delivered again, or raises CHK (R373, R374). BRKPT and C.BRK outside a session or while the handler runs, TRACE always, and
WFE with its latch set pass (R150, R431, R432). UNPAIR ends the pair, which keeps its counts, and passes where there is none (R386,
R388). GATE opens the lowest closed
window or closes the one named (R399); GSTAT always completes (R400). -/
def Obligations.ControlFormsComplete : Prop :=
  ∀ (b a d : Reg) (s : State),
    let f := s.focus
    let c := f.core
    let q := s.cur c
    let e0 := s.rdE f 0
    let e3 := s.rdE f 3
    let va := (s.rd f a.toNat).toNat
    let len := (s.rd f b.toNat).toNat
    let atHand := s.accessCause c (s.ctxOf c) va len 1 rRead kRead false = none ∧ s.gotOf f = [] ∧ s.soBusy f = false ∧ s.pendOf f = [] ∧
      ∀ p ∈ s.pageParts c (s.ctxOf c) 0 [(va, len)], ∃ x, s.look c (s.ctxOf c) p.va = .hit x ∧ isOwnBank c x.la = true ∧
        s.readBehind f x.la p.size = false ∧ s.cutAt x.node (s.targetOf x.la) = false ∧
        ∀ k < p.size, (s.openJournal c).newestFor (x.la + k) = none
    let k := s.ctx (s.ctxOf c)
    let g := fld (s.rd f a.toNat) 0 8
    (∀ p ∈ [(Instr.send b a, 0, 1), (Instr.sendg b a, 1, 1), (Instr.sendf b a, 2, 2)],
      let (i, kind, n) := p
      Issues i s → (kind = 1 → s.member c (fld e0 0 8) = true) → len ≤ 256 → s.badDest f kind = none →
        (kind = 2 → (rowFmt (s.rdE f 1)).bad len (s.rdE f 2) e3 = false) → q.outbox.length + n ≤ 64 → (s.inHandler f = true ∨ atHand) →
        ∃ t, exec i s = .next t ∧ Counts f s t ∧ (t.cur c).outbox.length = q.outbox.length + n) ∧
    (∀ i ∈ [Instr.endAct, .cEnd], Issues i s → q.arrayStill = true → Closed f s → q.rateError = none →
      (q.chki = 0 ∨ s.effClass c = 2) → ∃ t, exec i s = .next t ∧ Counts f s t ∧ (t.cur c).endWait = true) ∧
    (Issues .endx s → q.arrayStill = true → Closed f s → q.act.isSome = true →
      ∃ t, exec .endx s = .next t ∧ (t.cur c).act = none) ∧
    (Issues (.checkerr d) s → Closed f s →
      ((q.chki = 0 ∨ s.effClass c = 2) → ∃ t, exec (.checkerr d) s = .next t ∧ SetsReg f d.toNat q.chki s t ∧ Counts f s t) ∧
      (q.chki ≠ 0 → s.effClass c ≠ 2 → q.act.isSome = true →
        ((q.slot q.actSlot).desc.repl = true → (q.slot q.actSlot).redlv < 3 →
          ∃ t, exec (.checkerr d) s = .next t ∧ (t.cur c).act = none ∧
            ((t.cur c).slot q.actSlot).redlv = (q.slot q.actSlot).redlv + 1) ∧
        (((q.slot q.actSlot).desc.repl = false ∨ 3 ≤ (q.slot q.actSlot).redlv) → s.inHandler f = false →
          ∃ t, exec (.checkerr d) s = .next t ∧ (t.core c).hmode = true ∧ (t.core c).tcause = w64 cChk ∧ (t.core c).tval = q.chki))) ∧
    (∀ p ∈ [(Instr.brkpt, 4), (Instr.cBrk, 2)], Issues p.1 s → (s.sessionOn f = false ∨ (s.core c).hmode = true) →
      ∃ t, exec p.1 s = .next t ∧ Passes f (s.pcOf f + w64 p.2) s t) ∧
    (Issues (.trace a) s → ∃ t, exec (.trace a) s = .next t ∧ GoesTo f (s.pcOf f + 4) s t ∧ Counts f s t ∧ (∀ r, t.rd f r = s.rd f r) ∧
      t.mem = s.mem ∧ (q.trctl.getLsbD 0 = false → Kept f s t)) ∧
    (Issues .wfe s → q.wfe = true → ∃ t, exec .wfe s = .next t ∧ (t.cur c).wfe = false ∧ Counts f s t) ∧
    (Issues .unpair s → s.effClass c ≠ 3 →
      ((s.core c).pair.mode = .off → ∃ t, exec .unpair s = .next t ∧ Passes f (s.pcOf f + 4) s t) ∧
      ((s.core c).pair.mode ≠ .off → Closed f s →
        ∃ t, exec .unpair s = .next t ∧ Counts f s t ∧
          (∀ u ∈ [c, c + 1], (t.core u).pair.mode = .off ∧ (t.core u).pair.partner = false ∧ (t.core u).pair.step = false) ∧
          (t.core c).pair.tiebrk = (s.core c).pair.tiebrk ∧ (t.core c).pair.rollb = (s.core c).pair.rollb)) ∧
    (Issues .pair s → (s.core c).pair.mode ≠ .off → Closed f s → ∃ t, exec .pair s = .next t ∧ Counts f s t) ∧
    (Issues (.gate a d) s → e3 &&& ~~~0xB = 0 → k.comp ≠ 0 → ∀ u, k.gates[g]? = some u →
      (e3.getLsbD 3 = false → gateFits u e0 (s.rdE f 1) (s.rdE f 2) = true → (∃ w < 4, (q.window w).isOpen = false) →
        ∃ t w, exec (.gate a d) s = .next t ∧ w < 4 ∧ SetsReg f d.toNat (w64 w) s t ∧ Counts f s t ∧ ((t.cur c).window w).isOpen = true) ∧
      (e3.getLsbD 3 = true → (q.window (fld e3 0 2)).isOpen = true → (q.window (fld e3 0 2)).gate = g →
        ∃ t, exec (.gate a d) s = .next t ∧ SetsReg f d.toNat (w64 (fld e3 0 2)) s t ∧ Counts f s t)) ∧
    (Issues (.gstat a d) s → ∃ t v, exec (.gstat a d) s = .next t ∧ Finishes f 4 d.toNat v s t)

/-! ## The device's own steps (chapters 06 to 22). A step of the device answers a next state; where its conditions hold it does what
follows. -/

/-- Messages and activations (R174, R177 to R179, R185, R186, R191, R193). MESSAGE_ARRIVAL puts a message into the inbox of a bound
context and sets the latch, and into the message buffer of one that is out. MESSAGE_DELIVERY delivers the slot's next message and makes
a slot whose input set is complete READY. ACTOR_FIRE starts the chosen actor at its entry with VTIME its trigger's stamp and RETIRED and
CHKI zero. OUTBOX_DEPART sends the first message, numbered as it leaves, with its time of sending. END_OUTBOX_DRAINED consumes the input set and no activation
runs. FLOOR_PUBLISH never lowers FLOOR and never passes a report that is not below it. -/
def Obligations.MessageEvents : Prop :=
  ∀ (c k : Nat) (p : Packet) (m : Msg) (h : Held) (n d : Nat) (w : Word) (o : List OutItem) (a : Activation) (s : State),
    let ctx := s.ctxOf c
    let b := s.cur c
    Alive s →
    (s.net[k]? = some p → p.body = .msg m → s.exists? p.ctx = true → s.route? p.ctx p.dst m.dslot = none → s.hasRoom p.ctx p.dst 0 = true →
      ∃ t, exec (.messageArrival k) s = .next t ∧ t.net = dropAt s.net k ∧
        (let old := s.bind p.ctx p.dst
         let new := t.bind p.ctx p.dst
         if s.live p.ctx p.dst then new.inbox = old.inbox ++ [⟨m, s.ptime, false, s.freePlace p.dst old.inbox, m.badGranules⟩] ∧ new.wfe = true ∧ new.msgBuf = old.msgBuf
         else new.msgBuf = old.msgBuf ++ [⟨m, s.ptime, false, 0, m.badGranules⟩] ∧ new.inbox = old.inbox)) ∧
    (s.live ctx c = true → b.msgBuf = [] → b.deliverable s.floor n = some h →
      ∃ t, exec (.messageDelivery c n) s = .next t ∧ (t.cur c).inbox = b.inbox.erase h ++ [{ h with delivered := true }] ∧
        ((t.cur c).slot n).st = if (b.slot n).st = .idle ∧
            ({ b with inbox := b.inbox.erase h ++ [{ h with delivered := true }] } : Bind).slotMet n = true then .ready else (b.slot n).st) ∧
    (s.live ctx c = true → (s.core c).hmode = false → s.stopped c = false → b.act = none → b.pendBits = 0 → b.held = false →
      s.fireChoice c = some (n, m) → (b.slot n).desc.cls ≠ 3 → fld (s.core c).kclass 0 2 ≠ 3 →
      ∃ t x, exec (.actorFire c) s = .next t ∧ (t.cur c).act = some x ∧ x.slot = n ∧ x.chan = m.dchan ∧ x.trigger = m ∧
        (t.cur c).vtime = m.stamp ∧ (t.cur c).retired = 0 ∧ (t.cur c).chki = 0 ∧ (t.cur c).pc = (b.slot n).desc.entry ∧
        ((t.cur c).slot n).st = .running ∧ (t.cur c).x = b.x ∧ (t.cur c).cnt.fired = b.cnt.fired + 1) ∧
    (b.endWait = true → s.stopped c = false → b.outbox = .msg [d] m w :: o → s.route? ctx d m.dslot = none → s.hasRoom ctx d (s.inflight ctx d) = true →
      (let n := if m.seq = unnumbered then b.seqMsg else m.seq
       ∃ t, exec (.outboxDepart c) s = .next t ∧ t.net = s.net ++ [⟨c, d, ctx, .msg { m with seq := n, sptime := s.ptime }⟩] ∧
        (t.cur c).outbox = o ∧ (t.cur c).seqMsg = if m.seq = unnumbered then b.seqMsg + 1 else b.seqMsg)) ∧
    (b.act = some a → b.endWait = true → b.outbox = [] →
      ∃ t, exec (.endOutboxDrained c) s = .next t ∧ (t.cur c).act = none ∧ (t.cur c).endWait = false ∧
        (t.cur c).inbox = (splitSet a.slot (b.slot a.slot).desc.inc b.inbox).2) ∧
    (∃ t, exec .floorPublish s = .next t ∧ s.floor ≤ t.floor ∧ (∀ x ∈ s.reports, s.floor ≤ x → t.floor ≤ x) ∧
      (s.reports = [] → t.floor = s.floor))

/-- Nests, loops and barriers at their roots and members (R196, R197, R200, R201, R214, R216, R217): the first join starts the next
generation and the last agreeing one opens it with as many iterations as its bounds give; a claim is granted the chunk of R197; a
grant enters the loop's body at its next index, an empty one ends the loop; a leave counts its core as done, in the generation that it names. An arrival is folded into
the root's value, an abort sends every other member that the barrier counts a notice (R219), and a notice of completion ends the wait with its value. -/
def Obligations.LoopAndBarrierEvents : Prop :=
  ∀ (k g gen first len : Nat) (bad : Bool) (p : Packet) (j : Join) (q : Claim) (l : Loop) (m : BarMsg) (n : BarNote) (s : State),
    let b := s.bind p.ctx p.dst
    let r := b.root g
    let size := (s.group p.ctx p.dst g).size
    let e := b.bar m.id
    Alive s → s.live p.ctx p.dst = true → s.exists? p.ctx = true →
    (s.net[k]? = some p → p.body = .join g j → r.st = .idle → j.gen = r.gen + 1 → 2 ≤ size →
      ∃ t, exec (.nestJoinArrival k) s = .next t ∧ t.net = dropAt s.net k ∧
        (let u := (t.bind p.ctx p.dst).root g
         u.st = .joining ∧ u.gen = j.gen ∧ u.joins = [j])) ∧
    (s.net[k]? = some p → p.body = .join g j → r.st = .joining → j.gen = r.gen → r.joins.length + 1 = size → r.joins ≠ [] →
      (∀ i ∈ r.joins, i.bounds = j.bounds ∧ i.minch = j.minch) → prod j.bounds ≠ 0 →
      ∃ t, exec (.nestJoinArrival k) s = .next t ∧
        (let u := (t.bind p.ctx p.dst).root g
         u.st = .granting ∧ u.total = prod j.bounds ∧ u.remain = prod j.bounds ∧ u.joins = r.joins ++ [j])) ∧
    (s.groupRoot p.ctx g = p.dst → (∀ x ∈ s.net, x.dst = p.dst → x.ctx = p.ctx → ∀ h c, x.body = .claim h c → h ≠ g) →
      r.st = .granting → r.eligible (s.group p.ctx p.dst g).members = some q → r.joins.head? = some j →
      (let n := min (min r.remain (max j.minch (ceilDiv r.remain (2 * size)))) (2 ^ 32 - 1)
       ∃ t, exec (.nestClaimServe p.ctx g) s = .next t ∧
        t.net = s.net ++ [⟨p.dst, q.core, p.ctx, .grant g r.gen (r.total - r.remain) n false⟩] ∧
        ((t.bind p.ctx p.dst).root g).remain = r.remain - n ∧ ((t.bind p.ctx p.dst).root g).claims = r.claims.erase q)) ∧
    (s.net[k]? = some p → p.body = .grant g gen first len bad → b.loop = some l → l.claim = true → l.group = g →
      l.gen = gen →
      ∃ t, exec (.loopGrantArrival k) s = .next t ∧ t.net = dropAt s.net k ∧
        (len = 0 → (t.cur p.dst).loop = none) ∧
        (len ≠ 0 → (s.core p.dst).hmode = false → (t.cur p.dst).pc = l.body ∧
          (t.cur p.dst).loop = some { l with claim := false, next := first + 1, left := len - 1 } ∧
          ∀ d < 4, SMap.get 0 (t.cur p.dst).i d = w64 ((indexOf first l.bounds).getD d 0))) ∧
    (s.net[k]? = some p → p.body = .leave g gen →
      (r.gen = gen → r.st = .granting → ∃ t, exec (.loopLeave k) s = .next t ∧ t.net = dropAt s.net k ∧
        ((t.bind p.ctx p.dst).root g).done = p.src :: r.done ∧
        ((t.bind p.ctx p.dst).root g).claims = r.claims.filter (fun x => !(decide (x.core = p.src) && decide (x.gen = gen)))) ∧
      (r.gen < gen → r.st ≠ .draining → ∃ t, exec (.loopLeave k) s = .next t ∧
        ((t.bind p.ctx p.dst).root g).gone = (p.src, gen) :: r.gone ∧ ((t.bind p.ctx p.dst).root g).done = r.done)) ∧
    (s.net[k]? = some p → p.body = .bar m → m.abort = false → e.ended m = false → e.takes m = true → s.armUnsure p.dst m.id = false →
      m.op = e.op → m.scope = e.scope → e.count + 1 < (s.barMembers p.ctx p.dst m.group).length →
      ∃ t, exec (.barrierArrival k) s = .next t ∧ t.net = dropAt s.net k ∧
        (let u := (t.bind p.ctx p.dst).bar m.id
         u.count = e.count + 1 ∧ u.value = if e.count = 0 then m.value else
          match e.op with
          | 0 => e.value + m.value
          | 1 => if e.value.toInt ≤ m.value.toInt then e.value else m.value
          | 2 => if m.value.toInt ≤ e.value.toInt then e.value else m.value
          | 3 => e.value &&& m.value
          | _ => e.value ||| m.value)) ∧
    (s.net[k]? = some p → p.body = .bar m → m.abort = true → e.ended m = false → e.takes m = true → s.armUnsure p.dst m.id = false →
      ∃ t, exec (.barrierAbort k) s = .next t ∧ ∀ c ∈ s.barMembers p.ctx p.dst m.group, c ≠ p.dst →
        ⟨p.dst, c, p.ctx, .note ⟨m.id, m.gen, 4, 0⟩⟩ ∈ t.net) ∧
    (s.net[k]? = some p → p.body = .note n → (b.bar n.id).st = 2 → (b.bar n.id).gen = n.gen → n.st = 3 →
      ∃ t, exec (.barrierNotice k) s = .next t ∧
        (let u := (t.bind p.ctx p.dst).bar n.id
         u.st = 3 ∧ u.value = n.value ∧ u.gen = n.gen) ∧ (t.bind p.ctx p.dst).wfe = true)

/-- Posted stores (R290, R293, R294): JOURNAL_SEND sends a held entry; JOURNAL_ACK frees the entry of an access that has performed;
JOURNAL_REFUSAL marks the entry REFUSED with the target's reason and makes its cause pending; PSJE selects an entry and dismisses a
refused one.

Accesses at their targets and on their way back (R288, R289, R294, R295, R406, R408). A refusal that the target finds is recorded. A load
of a scratch bank is answered with its bytes. A store that waited at its home performs once the latest lease has expired. LEASE_GRANT
gives the core a leased copy of the line, and an expired copy goes. A value that has come back goes to the register of the load that
waits for it. A timeout on the host link refuses the request; BIRSP ends a snoop. -/
def Obligations.JournalAndAccessEvents : Prop :=
  (∀ (c n r : Nat) (v : Word) (a : Acc) (s : State),
      let ctx := s.ctxOf c
      let e := (s.cur c).entry n
      Alive s →
      (s.maySend ctx c n = true → ∃ t x, exec (.journalSend c n) s = .next t ∧ (t.cur c).entry n = { e with st := .sent } ∧
        t.accs = s.accs ++ [x] ∧ x.kind = .store n ∧ x.core = c ∧ x.ctx = ctx ∧ x.st = .flying ∧ x.la = e.la ∧ x.size = e.size) ∧
      (s.postedAt c n = some a → a.st = .done → ∃ t, exec (.journalAck c n) s = .next t ∧ (t.bind a.ctx c).entry n = JEntry.free ∧
        t.accs = s.accs.filter (fun q => q.id ≠ a.id) ∧ t.mem = s.mem) ∧
      (s.postedAt c n = some a → a.st = .refused r → ∃ t, exec (.journalRefusal c n) s = .next t ∧
        (let q := (t.bind a.ctx c).entry n
         q.st = .refused ∧ q.reason = r ∧ q.data = ((s.bind a.ctx c).entry n).data) ∧
        (t.bind a.ctx c).pendBits.getLsbD (storePend r) = true ∧ (t.bind a.ctx c).wfe = true ∧
        (t.bind a.ctx c).cnt.refusals = (s.bind a.ctx c).cnt.refusals + 1) ∧
      (∃ t, exec (.psjeSelect c v) s = .next t ∧ (t.core c).psje = BitVec.ofNat 9 (fld v 0 8) ∧ (t.cur c).journal = (s.cur c).journal) ∧
      (v.getLsbD 8 = true → ((s.cur c).entry (fld v 0 6)).st = .refused →
        ∃ t, exec (.psjeDismiss c v) s = .next t ∧ (t.cur c).entry (fld v 0 6) = JEntry.free ∧ (t.core c).psje = BitVec.ofNat 9 (fld v 0 8))) ∧
  (∀ (id n r c line : Nat) (bs : List Byte) (ok : Bool) (a : Acc) (w : PendLoad) (u : State) (k : L1Copy) (s : State),
      let e := (s.bind a.ctx a.core).entry n
      let f : Focus := ⟨a.core, a.thr⟩
      Alive s →
      (s.acc? id = some a → a.st = .flying → s.behindReleased a = false → a.kind = .load → s.refusal a = some r →
        ∃ t, exec (.accessReachesTarget id ok) s = .next t ∧ t.acc? id = some { a with st := .refused r } ∧ t.mem = s.mem) ∧
      (s.acc? id = some a → a.st = .flying → s.behindReleased a = false → a.kind = .load → a.planes = 0 → s.refusal a = none → isScratch a.la = true →
        ∃ t, exec (.accessReachesTarget id ok) s = .next t ∧ t.mem = s.mem ∧
          t.acc? id = some { a with st := .valued (s.bytesAt a.la a.size) (s.poisoned a.la a.size) false }) ∧
      (s.acc? id = some a → a.st = .flying → s.behindReleased a = false → a.leased = true → a.kind ≠ .prefetch → s.refusal a = none →
        s.misses a = false →
        (∀ l ∈ a.lines, s.writeWaiting l = false) → isAperture a.la = false → s.heldAway a = false →
        s.fetchLines (ctxFn a.ctx) a.lines = (u, true) →
        ∃ t bs z, exec (.leaseGrant id) s = .next t ∧ t.acc? id = some { a with st := .valued bs z false } ∧ t.mem = s.mem ∧
          (∀ l ∈ a.lines, s.ptime + fld (s.core a.core).lease 0 13 ≤ SMap.get 0 t.leases l) ∧
          ∀ l, a.lines.getLast? = some l → ∃ x, SMap.find? (t.core a.core).l1 l = some x ∧
            x.expiry = s.ptime + fld (s.core a.core).lease 0 13 ∧ x.bytes = s.bytesAt (l * 128) 128) ∧
      (s.acc? id = some a → a.st = .leaseWait → SMap.get 0 s.leases (a.la / 128) ≤ s.ptime →
        (∀ q ∈ s.accs, q.st = .leaseWait → q.la / 128 = a.la / 128 → a.arr ≤ q.arr) → a.kind = .store n → e.lineOp = 0 → e.grp = 0 →
        (isAperture a.la = false ∨ s.proxyServes a (a.la / 128) = true) → (∀ j < e.data.length, isHost (a.la + j) = false) →
        ∃ t, exec (.homeWritePerform id) s = .next t ∧ t.acc? id = some { a with st := .done } ∧
          (∀ j < e.data.length, t.byteAt (a.la + j) = e.data.getD j 0) ∧ ElsewhereSame a.la e.data.length s t) ∧
      (SMap.find? (s.core c).l1 line = some k → k.expiry ≤ s.ptime →
        ∃ t, exec (.l1LeaseExpiry c line) s = .next t ∧ SMap.find? (t.core c).l1 line = none) ∧
      (s.acc? id = some a → a.kind = .load → a.st = .valued bs false false → (s.core a.core).ctx = some a.ctx →
        (s.pendOf f).find? (fun p => decide (p.acc = a.id)) = some w → w.blocking = false → a.thr ≤ 16 →
        ∃ t, exec (.nonPostedCompletion id ok []) s = .next t ∧ t.acc? id = none ∧ t.mem = s.mem ∧
          t.rd f w.dst = if w.dst = 0 then 0 else loaded w.signed w.size (littleEndian bs)) ∧
      (s.acc? id = some a → a.st = .hostOut →
        ∃ t, exec (.pcieCompletionTimeout id) s = .next t ∧ t.acc? id = some { a with st := .refused 2 }) ∧
      (∃ t, exec (.birspArrival line) s = .next t ∧ t.hostPort.snooped = s.hostPort.snooped.filter (fun x => x ≠ line)))

/-- The Locus engines (R327, R329 to R334, R337, R338). A request taken up in its turn that its checks refuse changes no node. A MAP that
passes makes its receiving node beneath the sender's. GRANT, UNMAP and RELEASE begin a withdrawal in its first phase. ACCEPT frees the
released nodes. A cut, a shoot-down and its acknowledgement each leave the withdrawal's list, a shoot-down with the core's translations
through the nodes, and an ended phase gives way to the next. -/
def Obligations.LocusEvents : Prop :=
  ∀ (n c st : Nat) (p : LPart) (k : ReqRec) (q : Run) (w : Withdraw) (ns : List Nat) (s : State),
    let u := s.unhold n p
    let rs := u.partRuns k.req n
    let takes := fun (ops : List Nat) => s.takePart n ops = some (p, k) ∧ u.replyOk k.req = true
    Alive s →
    (takes [0] → u.mapStatus k n rs = st → st ≠ 0 → ∃ t, exec (.locusMap n) s = .next t ∧ t.nodes = s.nodes ∧ t.frames = s.frames) ∧
    (takes [1] → u.mapStatus k n rs = st → st ≠ 0 → ∃ t, exec (.locusGrant n) s = .next t ∧ t.nodes = s.nodes ∧ t.frames = s.frames) ∧
    (takes [0] → u.mapStatus k n rs = 0 → rs = [q] →
      ∃ t, exec (.locusMap n) s = .next t ∧
        (let x := t.node s.freeNode
         x.st = .valid ∧ x.holder = destCtx k.req.ctx k.req.e0 false ∧ x.vbase = k.req.e1.toNat + q.off ∧ x.lbase = q.la ∧ x.len = q.len ∧
           x.rights = k.req.rights ∧ x.parent = q.node ∧ x.depth = 1 + u.sourceDepth q)) ∧
    (takes [1] → u.mapStatus k n rs = 0 → isRoot k.req.ctx = false →
      ∃ t x, exec (.locusGrant n) s = .next t ∧ (t.locus n).work = some x ∧ x.req = p.req ∧ x.phase = 1) ∧
    (takes [2, 8] → k.req.op = 2 → isRoot k.req.ctx = false → u.sourceStatus k n rs = 0 → k.req.inLimits = true →
      u.unmapRoots k.req n rs ≠ [] →
      ∃ t x, exec (.locusUnmap n) s = .next t ∧ (t.locus n).work = some x ∧ x.req = p.req ∧ x.phase = 1 ∧
        x.roots = u.unmapRoots k.req n rs) ∧
    (takes [4] → isRoot k.req.ctx = false → u.sourceStatus k n rs = 0 → k.req.inLimits = true → rs.filterMap (·.node) = ns → ns ≠ [] →
      (∀ r ∈ rs, ∃ j, r.node = some j ∧ (s.node j).len = r.len) →
      ∃ t x, exec (.locusRelease n) s = .next t ∧ (t.locus n).work = some x ∧ x.req = p.req ∧ x.phase = 1 ∧ x.roots = ns) ∧
    (takes [5] → isRoot k.req.ctx = false → u.sourceStatus k n rs = 0 → k.req.inLimits = true → u.acceptable k.req n rs = ns → ns ≠ [] →
      ∃ t, exec (.locusAccept n) s = .next t ∧ ∀ j ∈ ns, (t.node j).st = .free) ∧
    ((s.locus n).work = some w →
      (c ∈ w.cuts → (∀ a ∈ s.accs, a.st ≠ .parked ∧ a.st ≠ .hostWait ∧ a.st ≠ .parkWait) →
        ∃ t, exec (.revokeCut n c) s = .next t ∧ (t.locus n).work = some { w with cuts := w.cuts.filter (fun x => x ≠ c) }) ∧
      (c ∈ w.shoots → ∃ t, exec (.shootdown n c) s = .next t ∧
        (t.locus n).work = some { w with
          shoots := w.shoots.filter (fun x => x ≠ c), acks := c :: w.acks, shot := some (w.shot.getD s.ptime) } ∧
        ∀ e ∈ (t.core c).tlb, ∀ p ∈ e.nodes, p.2 ∉ w.nodes) ∧
      (c ∈ w.acks → s.stillOut c w.nodes = false → ∃ t, exec (.shootdownAck n c) s = .next t ∧
        (t.locus n).work = some { w with acks := w.acks.filter (fun x => x ≠ c), acked := s.ptime }) ∧
      (SMap.find? s.reqs w.req = some k → w.phase = 1 → w.cuts = [] →
        ∃ t x, exec (.locusPhaseEnd n) s = .next t ∧ (t.locus n).work = some x ∧ x.phase = 2 ∧
          ∀ j ∈ w.nodes, (s.node j).st ≠ .released → (t.node j).st = .revoking) ∧
      (SMap.find? s.reqs w.req = some k → w.phase = 2 → w.shoots = [] →
        ∃ t, exec (.locusPhaseEnd n) s = .next t ∧ (t.locus n).work = some { w with phase := 3 } ∧ t.nodes = s.nodes))

/-- Residency (R342, R344 to R354). An access that meets a frame which is not resident parks with the next number of its MXU; the
oldest record that waits enters the ring; REPLAY releases a parked access whose frame is resident. A command tail is accepted under
R154. FILL makes a frame resident with the host's bytes, EVICT names it for eviction and the end of the copy-out makes it
non-resident, PIN and UNPIN set and clear its pin with its account's count. Reading MXSTAT clears FULL unless the park table is full; a frame budget stores no
guarantee above its burst.

Host translations (R358 to R360). A completion enters the ATC and its request is over. A page response of Success asks the translation
again, and a failure code sets PRIFAIL and ends the request. An invalidation removes every entry that it overlaps, and is completed
when no request under them is outstanding. Enabling PRI clears PRIFAIL. -/
def Obligations.ResidencyEvents : Prop :=
  (∀ (n id acct : Nat) (v : Word) (tail : BitVec 32) (ok : Bool) (data : List Byte) (a : Acc) (p : Park) (ps : List Park) (c : RqCmd) (q : Nat × Nat) (s : State),
      let frame := a.la / 4096
      let prog := fld (s.reg (rqRing n + 24)) 0 32
      let ended := fun (t : State) => SMap.get 0 t.host (c.at_ + 2) = 0 ∧ t.reg (rqRing n + 24) = w64 ((prog + 1) % 2 ^ 32)
      Alive s →
      (s.acc? id = some a → isHost a.la = false → s.misses a = true → a.st = .flying → s.refusal a = none →
        s.noPlace a = false → s.frameAnswers frame (acctOf a.ctx) = false →
        ∃ t x, exec (.mxuPark id) s = .next t ∧ t.acc? id = some { a with st := .parked } ∧ x ∈ t.parks ∧ x.acc = a.id ∧ x.frame = frame ∧
          x.mxu = frame % 16 ∧ x.seq = (s.mxu (frame % 16)).nextSeq ∧
          (t.mxu (frame % 16)).recs = (s.mxu (frame % 16)).recs ++ [x] ∧
          (t.mxu (frame % 16)).nextSeq = (s.mxu (frame % 16)).nextSeq + 1 ∧ t.mem = s.mem) ∧
      ((s.mxu n).recs = p :: ps → s.ringOn (mxuReg n 0) = true → s.ringRoom (mxuReg n 0) = true →
        ∃ t, exec (.faultRecordWrite n) s = .next t ∧ (t.mxu n).recs = ps ∧
          t.reg (mxuReg n 0 + 16) = w64 ((s.ringTail (mxuReg n 0) + 1) % 2 ^ 32)) ∧
      (s.parks.filter (fun x => decide (x.mxu = n) && !x.pri && decide (x.seq ≤ v.toNat)) = [p] → (s.frame p.frame).st = .resident →
        s.acc? p.acc = some a →
        ∃ t, exec (.replay n v) s = .next t ∧ t.reg (mxuReg n 0x20) = v ∧ t.acc? p.acc = some { a with st := .flying, rel := p.seq + 1 } ∧
          p ∉ t.parks) ∧
      (n < 16 → tailOk tail.toNat (s.ringHead (rqRing n)) (s.ringTail (rqRing n)) (s.ringSize (rqRing n)) = true →
        ∃ t, exec (.rqtailWrite n tail) s = .next t ∧ t.reg (rqRing n + 16) = zext tail) ∧
      (s.rqNext n = some c → c.opc = 1 → c.bad n false = false → (s.frame c.fr).st = .nonres → s.freeSlot n (s.frame c.fr).cls = some q →
        s.usedOf c.acct < s.burst c.acct → (c.host = 0 ∨ ok = true) →
        ∃ t, exec (.fill n ok data) s = .next t ∧ ended t ∧ (t.frame c.fr).st = .resident ∧ (t.frame c.fr).acct = c.acct ∧
          (t.frame c.fr).pinned = false ∧ t.usedOf c.acct = s.usedOf c.acct + 1 ∧
          (c.host ≠ 0 → s.frameKey c.fr = [] → (s.frame c.fr).cls ≠ 2 →
            ∀ k < 4096, SMap.get 0 t.mem (c.fr * 4096 + k) = if k < data.length then data.getD k 0 else SMap.get 0 s.host (c.host.toNat + k))) ∧
      (s.rqNext n = some c → c.opc = 2 → (s.mxu n).evict = none → c.bad n true = false → c.frame ≠ 0xFFFF_FFFF_FFFF_FFFF →
        (s.frame c.fr).st = .resident → (s.frame c.fr).pinned = false → s.isResv c.fr = false →
        ∃ t, exec (.evict n) s = .next t ∧ (t.frame c.fr).st = .evicting ∧ (t.mxu n).evict = some c.fr) ∧
      (s.rqNext n = some c → (s.mxu n).evict = some id → s.frameBusy id = false →
        ∃ t, exec (.evictCopyoutDone n ok) s = .next t ∧ (t.mxu n).evict = none ∧
          (t.frame id).st = if ok then .nonres else .resident) ∧
      (s.rqNext n = some c → c.opc = 3 → c.bad n false = false → (s.frame c.fr).st = .resident → (s.frame c.fr).pinned = false →
        ∃ t, exec (.pin n) s = .next t ∧ ended t ∧ (t.frame c.fr).pinned = true ∧
          (s.isResv c.fr = false → t.pinnedOf (s.frame c.fr).acct = s.pinnedOf (s.frame c.fr).acct + 1) ∧
          (s.isResv c.fr = true → t.pinnedCnt = s.pinnedCnt)) ∧
      (s.rqNext n = some c → c.opc = 4 → c.bad n false = false → (s.frame c.fr).st = .resident → (s.frame c.fr).pinned = true →
        ∃ t, exec (.unpin n) s = .next t ∧ ended t ∧ (t.frame c.fr).pinned = false ∧
          (s.isResv c.fr = false → 1 ≤ SMap.get 0 s.pinnedCnt (s.frame c.fr).acct →
            t.pinnedOf (s.frame c.fr).acct + 1 = s.pinnedOf (s.frame c.fr).acct) ∧
          (s.isResv c.fr = true → t.pinnedCnt = s.pinnedCnt)) ∧
      (∃ t, exec (.mxstatRead n) s = .next t ∧ (t.mxu n).full = decide (2048 ≤ s.parkedAt n) ∧ t.mem = s.mem) ∧
      (acct ≤ 128 → ∃ t, exec (.fgbWrite acct v) s = .next t ∧ fld (t.reg (fgbReg acct)) 0 32 = min (fld v 0 32) (fld v 32 32) ∧
        fld (t.reg (fgbReg acct)) 32 32 = fld v 32 32)) ∧
  (∀ (page : Nat × Nat × Nat) (pa len rid pasid base code fn : Nat) (rd wr : Bool) (q : TransReq) (g : PageReq) (x : Inval) (l : List Inval)
      (s : State),
      Alive s →
      (s.treqs.find? (fun t => decide ((t.rid, t.pasid, t.page) = page)) = some q → (s.world q.rid).stopped = false → q.stale = false →
        (rd = true ∨ wr = true) → s.preqs = [] →
        (let n := max 4096 len
         len ≤ 2 ^ 21 → ∃ t, exec (.translationCompletion page pa len rd wr) s = .next t ∧ q ∉ t.treqs ∧
          ⟨q.rid, q.pasid, q.page / n * n, n, pa / n * n, rd, wr⟩ ∈ t.atc)) ∧
      (s.treqs.find? (fun t => decide ((t.rid, t.pasid, t.page) = page)) = some q → (s.world q.rid).stopped = true →
        exec (.translationCompletion page pa len rd wr) s = .next s) ∧
      (s.preqs.find? (fun t => decide ((t.rid, t.pasid, t.page) = page) && !t.answered) = some g →
        (∃ t r, exec (.prgResponse page 0) s = .next t ∧ r ∈ t.treqs ∧ (r.rid, r.pasid, r.page) = page) ∧
        (2 ≤ code → ∃ t, exec (.prgResponse page code) s = .next t ∧ (t.mxu 16).prifail = true ∧ g ∉ t.preqs)) ∧
      (s.invals.length < 32 → ∃ t r, exec (.atsInvalidationRequest rid pasid base len) s = .next t ∧ t.invals = s.invals ++ [r] ∧
        t.atc = s.atc.filter (fun e => !(e.overlaps rid pasid base len))) ∧
      (s.invals = x :: l → (∀ id ∈ x.waits, ∀ a ∈ s.accs, a.id = id → s.under x.rid x.pasid x.base x.len a = false) →
        ∃ t, exec .invalidationCompletion s = .next t ∧ t.invals = l ∧ t.sent.length = s.sent.length + 1) ∧
      (fn ≤ 128 → ∃ t, exec (.priEnableWrite fn) s = .next t ∧ (t.mxu 16).prifail = false))

/-- R154, of a launch queue: a tail that runs ahead of the ring or lies behind the current one is refused, and any other write
replaces it. -/
def Obligations.LaunchQueueTail : Prop :=
  ∀ (fn n : Nat) (v : BitVec 32) (s : State),
    let from_ := fun (x : Nat) => (v.toNat + 2 ^ 32 - x) % 2 ^ 32
    let prog := fld (s.reg (lqReg fn n 0x18)) 0 32
    let tail := fld (s.reg (lqReg fn n 0x10)) 0 32
    let size := 2 ^ fld (s.reg (lqReg fn n 8)) 16 4
    Alive s → queueExists fn n = true → ∃ t, exec (.lqtailWrite fn n v) s = .next t ∧
      (size < from_ prog ∨ size < from_ tail → t.reg (lqReg fn n 0x10) = s.reg (lqReg fn n 0x10) ∧ (t.reg (lqReg fn n 0x20)).getLsbD 8 = true) ∧
      (from_ prog ≤ size ∧ from_ tail ≤ size → t.reg (lqReg fn n 0x10) = zext v ∧ t.reg (lqReg fn n 0x20) = s.reg (lqReg fn n 0x20))

/-- R167: at each period boundary every account repays at most half its refill, and its balance becomes the refill less what it
repaid; what was not used is not carried over. REFILL is the value that the account's register holds (R171). -/
def Obligations.PeriodRefill : Prop :=
  ∀ (s : State), Alive s → s.ptime % 100000 = 0 → s.period < s.ptime / 100000 → ∃ t, exec .periodBoundary s = .next t ∧
    ∀ a < 1024, let refill := fld (s.reg (acReg a 0)) 0 32
      let repay := min (s.account a).debt (refill / 2)
      (t.account a).debt = (s.account a).debt - repay ∧ (t.account a).bal = refill - repay

/-- Launch queues (R155, R158, R159, R161, R162, R165, R168). Enabling a queue makes it OUT with PROG at the tail; a switch makes it
resident, and OUT again; disabling it drops the entries not accepted: what was read of them is forgotten, and once enabled again none
of them is pending. An entry that passes its checks enters the command journal with the next number and
the stamp FLOOR + 64. A command completes once: the journal has it done. An account that can neither pay nor borrow is dry. -/
def Obligations.QueueEvents : Prop :=
  ∀ (fn n seq acct : Nat) (c : Cmd) (s : State),
    let sz := fld (s.reg (lqReg fn n 8)) 16 4
    let va := (s.reg (lqReg fn n 0)).toNat / 4096 * 4096 + 64 * (s.lqProg fn n % s.lqSize fn n)
    let s0 := s.dropDev (queueTag fn n)
    let e := s0.readVa (rootCtx fn) va 64
    Alive s →
    (queueExists fn n = true →
      (s.lqState fn n = 0 → 4 ≤ sz → sz ≤ 12 → (s.laOf (rootCtx fn) (s.reg (lqReg fn n 0)).toNat).isSome = true →
        ∃ t, exec (.lqEnable fn n) s = .next t ∧ t.lqState fn n = 1 ∧ t.lqProg fn n = s.lqTail fn n ∧ t.lqPend fn n = 0) ∧
      (s.lqState fn n ≠ 0 → ∃ t, exec (.lqDisable fn n) s = .next t ∧ t.lqState fn n = 0 ∧ t.journal = s.journal ∧
        ∀ a ∈ t.accs, a.thr = thrQueue → a.off ≠ queueTag fn n ∧ a.off ≠ rejectTag fn n) ∧
      (s.lqState fn n = 1 → s.lqPend fn n ≠ 0 → (s.queuesIn 2).length < 128 →
        ∃ t, exec (.queueSwitchIn fn n) s = .next t ∧ t.lqState fn n = 2) ∧
      (s.lqState fn n = 2 → (∀ a ∈ s.accs, a.thr ≠ thrQueue) → ∃ t, exec (.queueSwitchOut fn n) s = .next t ∧ t.lqState fn n = 1) ∧
      (s.lqState fn n = 2 → s.lqPend fn n ≠ 0 → s.stage = 5 → s.halted = false → s.devIo fn (queueTag fn n) none [(va, 64)] = .ok →
        s0.entryStatus fn e = 0 →
        ∃ t x, exec (.entryAccept fn n) s = .next t ∧ SMap.find? t.journal s.jnext = some x ∧ x.fn = fn ∧ x.queue = n ∧
          x.opc = entN e 0 1 ∧ x.stamp = s.floor + 64 ∧ x.done = false ∧ x.started = false ∧ t.jnext = s.jnext + 1 ∧
          t.lqProg fn n = (s.lqProg fn n + 1) % 2 ^ 32)) ∧
    (s.cmd? seq = some c → c.seq = seq → c.done = false → c.started = true → c.ready = true →
      s.devIo c.fn (cmdTag seq) (some (c.cpladdr.toNat / 16 * 16, completion c.tag c.status c.opc c.result)) [(c.cpladdr.toNat / 16 * 16, 16)] = .ok →
      ∃ t x, exec (.commandComplete seq) s = .next t ∧ t.cmd? seq = some x ∧ x.done = true ∧ x.status = c.status ∧ x.result = c.result) ∧
    (acct < 1024 → s.canPay acct = false → ∃ t, exec (.budgetExhausted acct) s = .next t ∧ (t.account acct).dry = true ∧
      ∀ k ∈ s.cores.map (·.1), s.charged k = true → s.chargedAccount k = acct → (s.cur k).st = .bound → (t.cur k).st = .saving ∧ (t.cur k).prsn = 2)

/-- Commands (R115, R159, R161). A LAUNCH into a context whose list is sound starts, answers with the context and sends its trigger;
MAPROOT is held as a request at its Loci; QUERY answers with the context's state, cause and reason; RECLAIM starts a context's
destruction, which ends with the context free. -/
def Obligations.CommandEvents : Prop :=
  ∀ (seq n : Nat) (c : Cmd) (s : State),
    let k := s.ctx c.ctxid
    let d := s.readVa (rootCtx c.fn) c.descVa 0x58
    let es := entriesOf (actorCount d) (s.readVa (rootCtx c.fn) (entN d 0x50 8) (72 * actorCount d))
    let l := es.map actorOf
    let held := fun (x : Nat) => k.cores.contains x || k.partners.contains x
    Alive s →
    (s.cmd? seq = some c → c.seq = seq →
      (nbit c.flags 2 = false → s.mayStartCmd c 1 = true → s.ctxOk c.fn 1 c.ctxid c.seq = true → s.closedWorld c.ctxid = false →
        c.descVa % 64 = 0 → c.trigLen ≤ 256 → s.logRoom (ctxFn c.ctxid) c.trigLen = true →
        s.devIo c.fn (cmdTag seq) none [(c.descVa + 0x48, 4), (c.descVa + 0x50, 8)] = .ok → countOk d = true →
        s.devIo c.fn (cmdTag seq) none (c.ranges d false false) = .ok → es.all actorFieldsOk = true →
        l.all (fun a => held a.core && (!a.desc.paired || held (a.core + 1))) = true →
        pairsOk (s.actorsOf c.ctxid) l (k.kclass.getLsbD 7) = true → onGrid (c.dest % 256) (c.dest / 2 ^ 8 % 256) = true →
        held c.destCore = true → s.replaying (ctxFn c.ctxid) = false →
        ∃ t x p, exec (.launch seq) s = .next t ∧ t.cmd? seq = some x ∧ x.started = true ∧ x.done = c.done ∧ x.result = w64 c.ctxid ∧
          t.net = s.net ++ [p] ∧ p.dst = c.destCore ∧ p.ctx = c.ctxid) ∧
      (s.mayStartCmd c 2 = true → s.ctxOk c.fn 2 c.ctxid c.seq = true → s.replaying (ctxFn c.ctxid) = false →
        s.logRoom (ctxFn c.ctxid) 40 = true →
        ∃ t x r, exec (.maproot seq) s = .next t ∧ t.cmd? seq = some x ∧ x.started = true ∧ SMap.find? t.reqs s.nextReq = some r ∧
          r.req.op = 0 ∧ r.req.ctx = rootCtx c.fn ∧ r.req.stamp = c.stamp ∧ r.req.cmd = some seq) ∧
      (s.mayStartCmd c 4 = true → s.ctxOk c.fn 4 c.ctxid c.seq = true →
        s.devIo c.fn (cmdTag seq) (some (entN c.args 0 8, k.record c.ctxid)) [(entN c.args 0 8, 256)] = .ok →
        ∃ t x, exec (.query seq) s = .next t ∧ t.cmd? seq = some x ∧ x.ready = true ∧ x.status = 0 ∧
          x.result = w64 (k.st.code + 2 ^ 8 * k.fcause + 2 ^ 16 * k.freason)) ∧
      (s.mayStartCmd c 3 = true → s.ctxOk c.fn 3 c.ctxid c.seq = true → s.launchesDue c.ctxid seq = false →
        ∃ t, exec (.reclaim seq) s = .next t ∧ (t.ctx c.ctxid).st = .destroying ∧ (t.ctx c.ctxid).reclaim = some seq)) ∧
    ((s.ctx n).st = .destroying → s.allOut n = true → (∀ p ∈ s.reqs, p.2.req.op = 8 → p.2.req.ctx ≠ n) → s.holdsNodes n = false →
      (∀ a ∈ s.accs, a.ctx ≠ n) → ∃ t, exec (.contextDestroyComplete n) s = .next t ∧ (t.ctx n).st = .free)

/-- Binding and switching (R116, R118, R121, R122, R140, R141, R149, R163 to R165). A pending cause is taken with its code and TVAL, the
return address being the next instruction. A commanded save stops the micro-threads that are at a boundary, and when it completes the
save area holds the binding; a commanded restore takes up what the area holds with the bytes that the handler has stored there, or, where
the header is wrong, sets SERR and leaves a LIVE context FAULTED (log 14; that the bytes are taken once, and that a save begins with
none, is log 106; what a save does with a pair is log 62); the restore's end binds the context at its saved address. A park that
has lasted longer than PARKTO pre-empts with reason 1. A bind record is stored as it is written. -/
def Obligations.SwitchEvents : Prop :=
  ∀ (c n p code key : Nat) (tval : Word) (rec : BitVec 128) (a : Bind) (s : State),
    let k := s.core c
    let b := s.cur c
    let y := s.absorbed n c (b.loadArea a)
    let shown := s.shown c
    Alive s →
    (s.canTake c = true → b.firstAsync = some (p, code, key, tval) → b.pend = [] → b.act.isSome = true → k.pair.mode = .off →
      ∃ t, exec (.asyncTrapTake c) s = .next t ∧
        (let q := t.core c
         q.hmode = true ∧ q.tcause = w64 code ∧ q.tval = tval ∧ q.tepc = b.pc &&& ~~~1 ∧ q.hpc = k.tvec) ∧ (t.cur c).x = b.x) ∧
    (k.sbusy = true → k.saving = true → k.ctx = some n → ∃ t, exec (.tstatSave c) s = .next t ∧
      ∀ m < 16, s.committedBy ⟨c, m + 1⟩ = false → (b.mt m).prog = 0 → ((t.cur c).mt m).waits = false ∧ ((t.cur c).mt m).pend = []) ∧
    (k.sbusy = true → k.saving = true → k.ctx = some n → (∀ m < 16, s.unitBusy c m = false) → (s.stopUnits c).engineWrites c = false →
      ∃ t q, exec (.saveComplete c true) s = .next t ∧ (t.core c).sbusy = false ∧ (t.core c).pair = PairSt.none ∧
        SMap.find? t.areas (bindKey n c) = some q ∧ t.areaStores n c = [] ∧
        (b.copies = [] → b.cmds = [] → q.x = shown.x ∧ q.e = shown.e ∧ q.pc = shown.pc ∧ q.tepc = k.tepc ∧ q.bars = b.bars)) ∧
    (k.sbusy = true → k.saving = false → k.hmode = true → k.ctx = some n → b.st ≠ .restoring → SMap.find? s.areas (bindKey n c) = some a →
      (s.headerOk n c a = true → ∃ t, exec (.tstatRestore c) s = .next t ∧ (t.cur c).st = .restoring ∧ (t.cur c).x = y.x ∧
        (t.cur c).pc = y.pc ∧ (t.cur c).mts = y.mts ∧ (t.cur c).inbox = y.inbox) ∧
      (s.headerOk n c a = false → ∃ t, exec (.tstatRestore c) s = .next t ∧ (t.core c).serr = true ∧ (t.core c).ctx = none ∧
        ((s.ctx n).st = .live → (t.ctx n).st = .faulted ∧ (t.ctx n).freason = 3))) ∧
    (k.sbusy = true → k.saving = false → k.ctx = some n → b.st = .restoring → b.cims = [] → b.netBuf = [] → s.areaStores n c = [] → b.paired = none → b.loop = none →
      recCtx (s.slotRec c) = n → recValid (s.slotRec c) = true →
      ∃ t, exec (.restoreComplete c true) s = .next t ∧ (t.cur c).st = .bound ∧ (t.core c).sbusy = false ∧ (t.core c).hmode = false ∧
        (t.cur c).x = b.x ∧ (t.cur c).wfe = true ∧ (t.cur c).pc = if b.act.isSome then b.tepc else b.pc) ∧
    (k.ctx = some n → b.st = .bound → k.parkto.getLsbD 63 = true → s.stopped c = false → (∃ q ∈ s.parks, s.expired c q = true) →
      ∃ t, exec (.parktoExpiry c) s = .next t ∧ (t.cur c).st = .saving ∧ (t.cur c).prsn = 1) ∧
    (s.recordOk c (recMask rec) = true → ∃ t, exec (.slotTableWrite c rec) s = .next t ∧ t.slotRec c = recMask rec) ∧
    ((∀ q ∈ s.queuesIn 1, s.lqPend q.1 q.2 = 0) → s.apexChoice (minStamp s.reports) c = some n →
      s.recordOk c (s.recordFor n) = true → ∃ t, exec (.apexSchedule c) s = .next t ∧ t.slotRec c = s.recordFor n)

/-- Errors, re-layout and pairs (R364, R367, R376, R377, R383 to R385). A correction in a register charges its binding's error budget,
and the charge that spends it makes EBX pending. An uncorrectable error of DRAM poisons the granule, and of a register is latched in
CHKI. RLCTL.GO holds a re-layout at its Locus, which takes it up in its turn; a range that a context maps ends it with status 2, a frame that is not resident takes
the new class, and past the last frame it ends with status 0. A close snapshots the primary; agreement makes that the checkpoint and
lets the interval's stores, claims and leaves go; the first disagreement goes back to the checkpoint, the second asks a spare or diverges; a spare that
agrees with a core decides. -/
def Obligations.ReliabilityEvents : Prop :=
  ∀ (c n r la x : Nat) (v : Word) (part : LPart) (b k : Bind) (s : State),
    let eb := s.bind n c
    let p := (s.core c).pair
    let base := (s.reg (rlReg n 0)).toNat
    let len := fld (s.reg (rlReg n 8)) 0 40
    let cls := fld (s.reg (rlReg n 0x10)) 1 2
    let done := fld (s.reg (rlReg n 0x18)) 32 32
    let frame := base / 4096 + (n + 16 - base / 4096 % 16) % 16 + 16 * done
    let again := p.compares = true ∧ p.shut.isSome = true ∧ p.ckpt = some k
    Alive s →
    ((s.core c).ctx = some n → eb.ebud ≠ 0xFFFF_FFFF → eb.ebud ≠ 0 → eb.ebcnt ≠ 0xFFFF_FFFF →
      ∃ t, exec (.errorCorrected (.reg c r)) s = .next t ∧ (t.bind n c).ebud = eb.ebud - 1 ∧ (t.bind n c).ebcnt = eb.ebcnt + 1 ∧
        (eb.ebud = 1 → (t.bind n c).pendBits = setBit eb.pendBits pEbx) ∧ (t.bind n c).x = eb.x ∧ t.mem = s.mem) ∧
    (s.classAt la ≠ 2 → ∃ t, exec (.errorUncorrectable (.dram la (some c))) s = .next t ∧
      (∀ g ∈ s.poisonSpan la, SMap.get false t.dpoison g = true) ∧ t.mem = s.mem) ∧
    (∃ t, exec (.errorUncorrectable (.reg c r)) s = .next t ∧ (t.cur c).chki = setBit (s.cur c).chki chkReg ∧ t.mem = s.mem) ∧
    exec (.memoryScrub x) s = .next s ∧
    (n < 18 → bit (s.reg (rlReg n 0x10)) 0 = false → bit v 0 = true →
      ∃ t q, exec (.relayoutGo n v) s = .next t ∧ t.reg (rlReg n 0x10) = w64 (fld v 0 3) ∧ t.reg (rlReg n 0x18) = 1 ∧
        (t.locus n).held = (s.locus n).held ++ [q] ∧ q.relay = true ∧ q.stamp = s.floor + 64 ∧ t.mem = s.mem) ∧
    (s.nextPart n = some part → part.relay = true → s.halted = false → cls ≠ 3 → len ≠ 0 → len % 4096 = 0 → isMemory base = true →
      isMemory (base + len - 1) = true → isAperture base = false → n < 16 → rootHas base len n = true →
      ((s.locus n).relay = none → s.locOk 128 n = true →
        (s.rangeMapped base len = true → ∃ t, exec (.relayoutRun n) s = .next t ∧
          fld (t.reg (rlReg n 0x18)) 0 8 = 2 ∧ bit (t.reg (rlReg n 0x10)) 0 = false ∧ t.frames = s.frames ∧ t.mem = s.mem) ∧
        (s.rangeMapped base len = false →
          ∃ t, exec (.relayoutRun n) s = .next t ∧ (t.locus n).relay = some s.ptime ∧ t.frames = s.frames ∧ t.mem = s.mem)) ∧
      ((s.locus n).relay.isSome = true →
        (frame * 4096 < base + len → (s.frame frame).st = .nonres → ∃ t, exec (.relayoutRun n) s = .next t ∧
          (t.frame frame).cls = cls ∧ fld (t.reg (rlReg n 0x18)) 32 32 = (done + 1) % 2 ^ 32 ∧ t.mem = s.mem) ∧
        (base + len ≤ frame * 4096 → ∃ t, exec (.relayoutRun n) s = .next t ∧
          fld (t.reg (rlReg n 0x18)) 0 8 = 0 ∧ bit (t.reg (rlReg n 0x10)) 0 = false ∧ t.mem = s.mem))) ∧
    (p.compares = true → p.shut = none → (p.closing = true ∨ s.closeDue c = true) → (s.cur c).mts.all (fun m => m.2.prog = 0) = true →
      ∃ t, exec (.intervalClose c) s = .next t ∧ (t.core c).pair.shut = some (s.cur c).rolled ∧
        (t.core c).pair.interval = p.interval + 1 ∧ t.binds = s.binds ∧ t.mem = s.mem) ∧
    (p.compares = true → p.mode ≠ .tiebreak → p.shut = some b →
      ∃ t, exec (.fingerprintAgree c) s = .next t ∧ (t.core c).pair.ckpt = some b ∧ (t.core c).pair.mode = .run ∧
        (∀ e ∈ (t.cur c).journal, e.2.ival = 0 ∨ p.interval < e.2.ival) ∧ (t.cur c).x = (s.cur c).x ∧
        t.net = s.net ++ (p.out.filter (fun q => q.1 ≤ p.interval - 1)).map (·.2)) ∧
    (again → p.mode = .run → ∃ t, exec (.fingerprintDisagree c) s = .next t ∧ (t.core c).pair.mode = .rerun ∧
      (t.cur c).x = k.x ∧ (t.cur c).pc = k.pc ∧ (t.cur c).mts = k.mts) ∧
    (again → p.mode = .rerun → s.spareCount (dieOf c) = 0 → ∃ t, exec (.fingerprintDisagree c) s = .next t ∧
      (t.core c).pair.mode = .diverged ∧ (t.cur c).x = k.x ∧ nbit (t.cur c).pendBits.toNat pDiverge = true) ∧
    (again → p.mode = .rerun → s.spareCount (dieOf c) ≠ 0 → ∃ t, exec (.pairCloseTimeout c) s = .next t ∧
      (t.core c).pair.mode = .tiebreak ∧ t.spareCount (dieOf c) = s.spareCount (dieOf c) - 1 ∧ t.binds = s.binds) ∧
    (p.mode = .tiebreak → p.partner = false → p.shut = some b → (x = 1 ∨ x = 2) →
      ∃ t, exec (.tiebreakResult c x) s = .next t ∧ (t.core c).pair.mode = .run ∧ (t.core c).pair.ckpt = some b ∧
        t.spareCount (dieOf c) = s.spareCount (dieOf c) + 1)

/-- Tenant worlds, keys, CXL requests, IDE streams and the host port (R390, R391, R401, R405 to R409). Locking an OPEN world without
live contexts gives it two key slots; with a live context the write is refused. Keys are set once, in CONFIGURED, and the second makes
the world KEYED. Retiring, revoking, a function-level reset and a TDI error make it RETIRING with both slots retired, and when nothing
uses it any more it is OPEN again with its slots free. A write over CXL stores its bytes and a read returns the line's; a snoop is a
miss. A key switch turns to the other set. The port comes up at a width, a recovery loses nothing, and going down ends every
translation request. -/
def Obligations.WorldEvents : Prop :=
  ∀ (vf tdi comp m d stream hpa line width : Nat) (tb : Bool) (key data : List Byte) (s : State),
    let w := s.world vf
    let a := hpa / 64 * 64
    let retires := fun (i : Instr) => ∃ t, exec i s = .next t ∧ (t.world vf).st = .retiring ∧
      (t.keySlot w.moslot).retired = true ∧ (t.keySlot w.doslot).retired = true ∧ t.host = s.host
    Alive s →
    (vf < 128 → w.st = .isOpen → s.freeKeys = [m, d] → (tdi = 1 ∨ tdi = 2) →
      ((∀ c ∈ s.contextsOf vf, (s.ctx c).st ≠ .live) → ∃ t, exec (.wcfgConf vf tdi) s = .next t ∧ (t.world vf).st = .configured ∧
        (t.world vf).moslot = m ∧ (t.world vf).doslot = d ∧ (t.world vf).mokey = false ∧ (t.world vf).dokey = false ∧
        (t.keySlot m).owner = some vf ∧ (t.keySlot d).owner = some vf ∧ t.mem = s.mem) ∧
      ((∃ c ∈ s.contextsOf vf, (s.ctx c).st = .live) → ∃ t, exec (.wcfgConf vf tdi) s = .next t ∧ (t.world vf).st = .isOpen ∧
        (t.world vf).refused = true ∧ t.keys = s.keys ∧ t.mem = s.mem)) ∧
    (w.st = .configured → key.length = 64 → (comp = 1 ∧ w.mokey = false ∨ comp = 2 ∧ w.dokey = false) →
      ∃ t, exec (.keySet vf comp key) s = .next t ∧ (t.keySlot (w.slotOf comp)).key = key ∧ t.host = s.host ∧
        (∀ la, (comp = 1 ∨ ∀ p ∈ s.frames, p.1 = la / 4096 → p.2.comp ≠ 2 ∨ p.2.vf ≠ vf) → SMap.get 0 t.mem la = SMap.get 0 s.mem la) ∧
        (t.world vf).mokey = (w.mokey || decide (comp = 1)) ∧ (t.world vf).dokey = (w.dokey || decide (comp = 2)) ∧
        (t.world vf).st = if (t.world vf).mokey && (t.world vf).dokey then .keyed else .configured) ∧
    (vf < 128 → w.st = .configured ∨ w.st = .keyed →
      retires (.wcfgRetire vf) ∧ (comp = 1 ∨ comp = 2 → retires (.keyRevoke vf comp)) ∧ retires (.tdiError vf) ∧
        retires (.functionLevelReset vf)) ∧
    (w.st = .retiring → s.contextsOf vf = [] → s.slotBusy vf = false → ∃ t, exec (.worldRetireComplete vf) s = .next t ∧
      (t.world vf).st = .isOpen ∧ t.keySlot w.moslot = KeySlot.free ∧ t.keySlot w.doslot = KeySlot.free ∧ t.mem = s.mem) ∧
    (s.cxlOk tb stream hpa = true → (s.frame (hpa / 4096)).st = .resident → s.remoteAt (a / 128) < 2 → s.writeWaiting (a / 128) = false →
      (SMap.get 0 s.leases (a / 128) ≤ s.ptime → ∃ t, exec (.cxlMemRequest true tb stream hpa data) s = .next t ∧
        (∀ k < 64, t.byteAt (a + k) = data.getD k 0) ∧ ElsewhereSame a 64 s t ∧ t.cxlOut = s.cxlOut) ∧
      (s.ptime < SMap.get 0 s.leases (a / 128) → ∃ t x, exec (.cxlMemRequest true tb stream hpa data) s = .next t ∧ t.mem = s.mem ∧
        x ∈ t.accs ∧ x.la = a ∧ x.st = .leaseWait ∧ t.writeWaiting (a / 128) = true) ∧
      (∃ t, exec (.cxlMemRequest false tb stream hpa data) s = .next t ∧
        t.cxlOut = s.bytesAt a 64 ++ [if s.poisoned a 64 then 1 else 0] ∧ t.hostPort.hostHeld.contains (a / 128) = true ∧
        t.mem = s.mem ∧ t.host = s.host)) ∧
    (s.cxlOk tb stream hpa = false → ∃ t, exec (.cxlMemRequest true tb stream hpa data) s = .next t ∧ t.mem = s.mem ∧ t.host = s.host) ∧
    exec (.cxlH2dSnoop line) s = .next { s with sent := s.sent ++ [leBytes 1 0 ++ leBytes 8 line] } ∧
    ((s.world stream).oldset = false → ∃ t, exec (.ideKeySwitch stream) s = .next t ∧
      (t.world stream).keyset = 1 - (s.world stream).keyset ∧ t.mem = s.mem) ∧
    (width ∈ [16, 8, 4, 2, 1] →
      exec (.hostLinkUp width) s = .next { s with hostPort := { s.hostPort with up := true, width := width } }) ∧
    (width ∉ [16, 8, 4, 2, 1] → exec (.hostLinkUp width) s = .next s) ∧
    exec .hostLinkRecovery s = .next s ∧
    (∃ t, exec .hostLinkDown s = .next t ∧ t.hostPort.up = false ∧ t.treqs = [] ∧ t.preqs = [] ∧ t.mem = s.mem ∧ t.host = s.host)

/-- Skonov links (R411 to R414, R416 to R420, R422). Ports change state as R412 and R413 say: the width is the widest that the trained
lanes allow, and a lane lost takes the spare or halves the width. The next expected flit with a good CRC is accepted, any other is
answered with a NAK, and a NAK leaves the flits from the expected one. A grant brings a line with its state, an invalidation drops the
copy and is acknowledged, and a recall for a read leaves it in S. A failed module is recorded; ORPHREL leaves no orphan. Quiescing
drains, and ends when no copy and no unacknowledged flit is left. A routed message whose flits have been accepted gets the port's next number, and without a live
context is a context error. -/
def Obligations.LinkEvents : Prop :=
  ∀ (p lanes lane line st num module x y rctx : Nat) (flit data header payload : List Byte) (s : State),
    let q := s.port p
    let y0 := s.proxy line
    let gone := SMap.get 0 s.leases line ≤ s.ptime
    let ack := leBytes 1 2 ++ leBytes 8 line
    Alive s → p < 12 →
    (q.st = .disabled → ∃ t, exec (.skonovPortEnable p) s = .next t ∧ (t.port p).st = .training ∧ (t.port p).en = true) ∧
    (∃ t, exec (.skonovPortDisable p) s = .next t ∧ (t.port p).st = .disabled ∧ (t.port p).en = false ∧ t.mem = s.mem) ∧
    (q.st = .up → ∃ t, exec (.skonovRetrain p) s = .next t ∧ (t.port p).st = .retrain ∧ (t.port p).buf = q.buf) ∧
    (q.st = .training → 1 ≤ lanes → lanes ≤ 9 → ∃ t, exec (.portTrained p lanes) s = .next t ∧ (t.port p).st = .up ∧
      (t.port p).width = if 8 ≤ lanes then 8 else if 4 ≤ lanes then 4 else if 2 ≤ lanes then 2 else 1) ∧
    (q.st = .training → ∃ t, exec (.portTrainingTimeout p) s = .next t ∧ (t.port p).st = .failed) ∧
    (q.st = .up → ∃ t, exec (.laneFailure p lane) s = .next t ∧ (t.port p).st = .retrain ∧
      (q.lanes = 9 → q.spared = 0xFF → (t.port p).width = q.width ∧ (t.port p).spared = lane % 8) ∧
      (q.lanes ≠ 9 ∨ q.spared ≠ 0xFF → (t.port p).width = q.width / 2)) ∧
    (q.st = .retrain → ∃ t, exec (.retrainComplete p) s = .next t ∧ (t.port p).st = if q.width = 0 then .failed else .up) ∧
    (q.st = .up → flitGood flit = true → flitSeq flit = q.expect → ∃ t, exec (.flitReceive p flit) s = .next t ∧
      (t.port p).expect = (q.expect + 1) % 4096 ∧ (t.port p).nakSent = false ∧ t.mem = s.mem) ∧
    (q.st = .up → (flitGood flit = false ∨ flitSeq flit ≠ q.expect) → ∃ t, exec (.flitReceive p flit) s = .next t ∧
      (t.port p).expect = q.expect ∧ (t.port p).nakSent = true ∧ (t.port p).buf = q.buf ∧ t.mem = s.mem ∧
      t.sent = s.sent ++ [nakFlit q.expect s.moduleNo]) ∧
    (q.st = .up → ∃ t, exec (.flitNak p num) s = .next t ∧ afterAck ((num + 4095) % 4096) q.buf <+: (t.port p).buf ∧ t.mem = s.mem) ∧
    (y0.missing = true → (st = 1 ∨ st = 2 ∨ st = 3) → s.lineLost (line * 128) = false → y0.inval = none →
      ∃ t, exec (.proxyGrant line st num data) s = .next t ∧ (t.proxy line).st = st ∧ (t.proxy line).missing = false ∧
        ∀ k < 128, SMap.get 0 t.mem (line * 128 + k) = data.getD k 0) ∧
    (y0.orphan = false → y0.missing = false → (y0.st = 0 ∨ gone) → ∃ t, exec (.proxyInvalidation line num) s = .next t ∧
      (t.proxy line).st = 0 ∧ t.sent = s.sent ++ [ack]) ∧
    (y0.orphan = false → y0.st ≠ 0 → ∃ t, exec (.directoryRecall line false) s = .next t ∧ (t.proxy line).st = 1 ∧ t.mem = s.mem) ∧
    (y0.orphan = false → y0.st ≠ 0 → gone → ∃ t, exec (.directoryRecall line true) s = .next t ∧ (t.proxy line).st = 0 ∧
      t.sent = s.sent ++ [ack]) ∧
    (∃ t, exec (.moduleFailed module) s = .next t ∧ t.failedMods.contains module = true) ∧
    (∃ t, exec .orphrel s = .next t ∧ t.orphans = 0) ∧
    (fld (s.reg skfstat) 0 3 = 0 → ∃ t, exec .quiesce s = .next t ∧ fld (t.reg skfstat) 0 3 = 1) ∧
    (fld (s.reg skfstat) 0 3 = 1 → s.copiesHeld = [] → s.remote = [] → s.remoteInv = [] → s.fabOut = [] →
      (∀ r ∈ s.ports, r.2.buf = [] ∧ r.2.st ≠ .training ∧ r.2.st ≠ .retrain) → ∃ t, exec .quiesceComplete s = .next t ∧
      fld (t.reg skfstat) 0 3 = 2 ∧ t.mem = s.mem ∧ (q.st = .up → (t.port p).st = .quiesced)) ∧
    (q.st = .up → s.halted = false → s.logRoom (ctxFn rctx) payload.length = true →
      (s.takeFlits (messageFlits rctx x y header payload)).isSome = true → fld (s.reg skfstat) 0 3 = 0 →
      ((s.ctx rctx).st = .live → s.holdsArea rctx x y = true → s.replaying (ctxFn rctx) = false →
        ∃ t r, exec (.fabricArrival p rctx x y header payload) s = .next t ∧ (t.port p).arrivals = q.arrivals + 1 ∧
          t.net = s.net ++ [r] ∧ r.dst = coreAddr x y ∧ r.ctx = rctx) ∧
      ((s.ctx rctx).st ≠ .live → ∃ t, exec (.fabricArrival p rctx x y header payload) s = .next t ∧ t.net = s.net ∧
        t.ctxErrs = s.ctxErrs ++ [⟨s.ptime, rctx, coreAddr x y, 0⟩]))

/-- Debug, counters, replay and FREEZE (R116, R423 to R425, R428 to R430, R433, R438, R439, R442, R444). A session opens over a LIVE context of an
OPEN world and closes by a write, which stores SKIP, and CTXID and LOCAL in RUN alone; CMD STOP begins a stop, CMD RESUME and CMD STEP
leave STOPPED, each stop shows its cause in the registers when it takes hold, and PREEMPT with reason 4 is pending in every BOUND binding that it stops (that they stay BOUND
until the stop ends is the model's choice, log 82). The readout window shows a stopped core's registers and reads 0 in every other state.
A comparator outside its limits is stored disabled. A counter that the function may read is latched, and a denied one reads 0 and is
counted. A logged message is sent again. FREEZE stops the clocks, and time never steps back when they start. -/
def Obligations.DebugEvents : Prop :=
  ∀ (n fn c : Nat) (v : Word) (h data : List Byte) (s : State),
    let d := s.dbg
    let ctx := fld v 32 32
    let owner := ctxFn ctx
    let on := bit v 0
    let paused := fun (t : State) => t.mem = s.mem ∧ ∀ k m, (s.core k).ctx = some m → (s.bind m k).st = .bound → t.stopped k = true →
      (t.bind m k).st = .bound ∧ (t.bind m k).prsn = 4 ∧ bit (t.bind m k).pendBits pPreempt = true ∧ (t.bind m k).x = (s.bind m k).x
    let good := if n < 4 then fld v 8 2 = 0 ∧ fld v 2 6 = 0 else fld v 8 2 ≠ 0 ∧ fld v 2 6 ≤ 12
    Alive s →
    (d.mode = 0 → ∃ t, exec (.sessionOpen v) s = .next t ∧ t.dbg.ctxid = ctx ∧ t.dbg.isLocal = bit v 2 ∧ t.dbg.skip = bit v 3 ∧
      t.dbg.isOpen = ((d.isOpen && decide (ctx = d.ctxid)) || decide ((s.ctx ctx).st = .live ∧ (s.world owner).st = .isOpen)) ∧ t.binds = s.binds ∧ t.mem = s.mem) ∧
    (d.mode ≠ 0 → ∃ t, exec (.sessionOpen v) s = .next t ∧ t.dbg.ctxid = d.ctxid ∧ t.dbg.isLocal = d.isLocal ∧ t.dbg.skip = bit v 3 ∧
      t.dbg.mode = d.mode ∧ t.binds = s.binds ∧ t.mem = s.mem) ∧
    (∃ t, exec .sessionClose s = .next t ∧ t.dbg.isOpen = false ∧ t.dbg.mode = 0 ∧ t.dbg.skip = d.skip ∧ t.dbg.ctxid = d.ctxid ∧
      t.mem = s.mem) ∧
    (on = false → fld v 4 2 = 0 → ∃ t, exec (.registerWrite 128 0 0x3_8000 v) s = .next t ∧ t.dbg.isOpen = false ∧ t.dbg.mode = 0 ∧
      t.dbg.skip = bit v 3 ∧ t.mem = s.mem ∧ t.dbg.ctxid = if d.mode = 0 then ctx else d.ctxid) ∧
    (d.isOpen = true → d.mode = 0 →
      ∃ t, exec .dbgStop s = .next t ∧ t.dbg.mode = 1 ∧ t.dbg.vstop = true ∧ t.binds = s.binds ∧ t.mem = s.mem) ∧
    (d.mode = 2 → on = true →
      (∃ t, exec (.dbgResume v) s = .next t ∧ t.dbg.mode = 0 ∧ t.mem = s.mem) ∧
      (∃ t, exec (.dbgStep v) s = .next t ∧ t.dbg.mode = 3 ∧ t.dbg.stepped = [] ∧ t.mem = s.mem ∧
        t.dbg.core = if d.isLocal then d.core else s.dbgCore)) ∧
    (d.mode = 1 → d.vstop = false → ∃ t, exec .freezeComplete s = .next t ∧ t.dbg.mode = 2 ∧ t.dbg.cause = d.cause ∧
      t.dbg.seen.cause = d.cause ∧ t.dbg.seen.hitcore = d.hitcore ∧ t.dbg.seen.addr = d.addr ∧ paused t) ∧
    (d.mode = 1 → d.vstop = true → (∀ b ∈ s.binds, b.2.act = none) → (s.reg (pfReg 0x3_8018)).toNat < s.floor →
      ∃ t, exec .freezeComplete s = .next t ∧ t.dbg.mode = 2 ∧ t.dbg.seen.cause = 4 ∧ paused t) ∧
    (d.mode = 1 → d.vstop = true → d.since + 10_000_000 ≤ s.ptime →
      ∃ t, exec .stopTimeout s = .next t ∧ t.dbg.mode = 2 ∧ t.dbg.seen.cause = 6 ∧ paused t) ∧
    (d.mode = 3 → (s.core d.core).hmode = false → (d.stepped.contains 0 = true ∨ (s.cur d.core).act = none) →
      ∃ t, exec .stepComplete s = .next t ∧ t.dbg.mode = 2 ∧ t.dbg.seen.cause = 5 ∧ paused t) ∧
    (d.mode = 3 → d.since + 1_000_000 ≤ s.ptime → ∃ t, exec .stepTimeout s = .next t ∧ t.dbg.mode = 2 ∧ t.dbg.seen.cause = 5 ∧ paused t) ∧
    (d.mode = 2 → d.isOpen = true → (s.core s.dbgCore).ctx = some d.ctxid →
      ∀ r < 32, s.readReg 128 0 (0x4_0500 + 8 * r) = if r = 0 then 0 else SMap.get 0 (s.shown s.dbgCore).x r) ∧
    (d.mode ≠ 2 → ∀ o < 0x9_0000, s.readReg 128 0 (0x4_0000 + o) = 0) ∧
    (n < 8 → ∃ t, exec (.comparatorConfig n v) s = .next t ∧ bit (t.comp s.dbgCore n).cfg 0 = (bit v 0 && decide good) ∧
      fld (t.comp s.dbgCore n).cfg 2 6 = fld v 2 6 ∧ fld (t.comp s.dbgCore n).cfg 8 2 = fld v 8 2 ∧
      (t.comp s.dbgCore n).addr = (s.comp s.dbgCore n).addr) ∧
    (fld (s.cur c).trctl 16 16 ≠ 0 → (s.cur c).act.isSome = true → (s.core c).ctx.isSome = true →
      2 * (1024 * fld (s.cur c).trctl 16 16) ≤ 3 * (s.ptime - (s.core c).lastCycle) →
      ∃ t, exec (.traceSample c) s = .next t ∧ (t.core c).lastCycle = s.ptime ∧ t.binds = s.binds) ∧
    ((s.ctx ctx).st ≠ .free → s.holdsArea ctx (fld v 0 11 % 64) (fld v 0 11 / 64) = true → (fn = 128 ∨ owner = fn) →
      s.counter ctx (fld v 0 11) (fld v 24 8) (fld v 16 8) = some n →
      (fn ≠ 128 ∨ owner = 128 ∨ bit (s.reg (cntReg owner + 32)) (fld v 24 8) = true →
        ∃ t, exec (.counterSelect fn v) s = .next t ∧ t.reg (cntReg fn + 8) = w64 n ∧ t.reg (cntReg fn + 16) = 0 ∧
          t.binds = s.binds ∧ t.mem = s.mem) ∧
      (fn = 128 → owner < 128 → bit (s.reg (cntReg owner + 32)) (fld v 24 8) = false → s.logRoom owner 64 = true →
        ∃ t, exec (.counterSelect fn v) s = .next t ∧ t.reg (cntReg fn + 8) = 0 ∧ t.reg (cntReg fn + 16) = 1 ∧
          t.reg (cntReg owner + 24) = s.reg (cntReg owner + 24) + 1 ∧ t.binds = s.binds ∧ t.mem = s.mem)) ∧
    (s.replaying fn = true → s.nextInject fn = some (n, h, data) → ofLe ((h.drop 0x30).take 2) < 0xFE00 →
      ∃ t r, exec (.replayInject fn) s = .next t ∧ t.net = s.net ++ [r] ∧
        r.src = ofLe ((h.drop 0x18).take 2) ∧ r.dst = ofLe ((h.drop 0x30).take 2) ∧ r.ctx = ofLe ((h.drop 0x24).take 4) ∧
        (s.logRecords fn = [(n, h, data)] → t.reg (rpRing fn + 24) = w64 ((n + 1 + ceilDiv data.length 64) % 2 ^ 32))) ∧
    exec .freezeAssert s = .next { s with freeze := true } ∧
    exec (.freezeRelease n) { s with freeze := true } = .next { s with freeze := false, ptime := max s.ptime n }

/-- Power, heat, boot, the error-record ring, the scan path and register writes (R445 to R453). PCAPW and PCAPWIN are clamped to their
ranges, and act on the window that the next adjustment starts. A power sample adds to its window, whose end shows the average and sets OVER above the cap; GATE is the larger demand. Reading
the sensors clears the peak; from 95 °C the device throttles, from 105 °C it freezes, from 110 °C it loses its power, and below 92 °C
it recovers. An error record enters the ring. A scan read of a frozen module reads what it holds, a hidden byte as 0, and changes nothing else. A reset with images that boot accepts, enough
working sites and trained links boots to stage 5, one whose boot firmware is refused stops at stage 1 with FAIL 1, with too few sites at stage 1 with FAIL 2, one whose
other firmware is refused at stage 2 with FAIL 1; a tripped module does not start; and the sites beyond 992 of a die are its spares. A queue's base changes only while the queue is DISABLED. -/
def Obligations.ManagementEvents : Prop :=
  ∀ (g t0 t1 fn n la : Nat) (v : Word) (orphan trained : Bool) (passed : List Nat) (images : List BootImage) (r : List Byte) (l : List (List Byte)) (s : State),
    let p := s.power
    let hot := max t0 t1
    let ok := fun (i : Nat) => images[i]?.any (imageOk i)
    let clamped := fun (lo hi x : Nat) => if x < lo then lo else if hi < x then hi else x
    Alive s →
    (∃ t, exec (.pcapwWrite v) s = .next t ∧ t.reg capReg = w64 (clamped 600 1800 (fld v 0 12)) ∧ t.mem = s.mem) ∧
    (∃ t, exec (.pcapwinWrite v) s = .next t ∧ t.reg winReg = w64 (clamped 1 1000 (fld v 0 10)) ∧ t.mem = s.mem) ∧
    exec (.powerSample g) s = .next { s with power :=
      if p.count < 10 * p.winNow then { p with sum := p.sum + g, count := p.count + 1, last := g } else { p with last := g } } ∧
    (g ≤ 255 → p.gateHot ≤ 255 → ∃ t, exec (.powerAdjust g) s = .next t ∧ fld (t.reg pactReg) 0 8 = max g p.gateHot ∧ t.mem = s.mem ∧
      (p.restart = true → t.power.capNow = (s.reg capReg).toNat ∧ t.power.winNow = (s.reg winReg).toNat ∧ t.power.sum = 0 ∧
        t.power.count = 0 ∧ t.power.restart = false) ∧
      (p.restart = false → t.power.capNow = p.capNow ∧ t.power.winNow = p.winNow ∧ t.power.sum = p.sum ∧ t.power.count = p.count)) ∧
    (10 * p.winNow ≤ p.count → p.count ≠ 0 → ∃ t, exec (.powerWindowEnd g) s = .next t ∧ t.power.sum = 0 ∧ t.power.count = 0 ∧
      (p.sum % p.count = 0 → p.sum / p.count < 4096 → fld (t.reg pactReg) 32 12 = p.sum / p.count) ∧
      (p.capNow * p.count < p.sum → p.lowered = false → bit (t.reg pactReg) 16 = true)) ∧
    (∃ t, exec .thermRead s = .next t ∧ fld (t.reg thermReg) 8 8 = 0 ∧ fld (t.reg thermReg) 0 8 = fld (s.reg thermReg) 0 8) ∧
    (95 ≤ hot → ∃ t, exec (.thermalThrottle t0 t1 g) s = .next t ∧ bit (t.reg pactReg) 17 = true ∧ t.power.gateHot = max p.gateHot (min g 255)) ∧
    (105 ≤ hot → ∃ t, exec (.thermalFreeze t0 t1) s = .next t ∧ t.dbg.thermal = true ∧ t.binds = s.binds ∧ t.mem = s.mem) ∧
    (110 ≤ hot → ∃ t, exec (.thermalTrip t0 t1) s = .next t ∧ t.powered = false ∧ t.tripped = true) ∧
    (hot < 92 → ∃ t, exec (.thermalRecover t0 t1) s = .next t ∧ bit (t.reg pactReg) 17 = false ∧ t.power.gateHot = 0 ∧
      t.dbg.thermal = false ∧ t.mem = s.mem) ∧
    (s.errWait = r :: l → s.ringOn erRing = true → s.ringRoom erRing = true → ∃ t, exec .errorRecordWrite s = .next t ∧ t.errWait = l ∧
      t.reg (erRing + 16) = w64 ((s.ringTail erRing + 1) % 2 ^ 32) ∧
      ∀ k < r.length, SMap.get 0 t.host (s.ringBase erRing + r.length * (s.ringTail erRing % s.ringSize erRing) + k) = r.getD k 0) ∧
    (let z : State := { s with freeze := true }
     ∃ l, exec (.scanRead orphan la) z = .next { z with scan := some l } ∧ l.length = 128 ∧
       ∀ k < 128, la / 128 * 128 + k < 2 ^ 48 → (z.scanHidden (la / 128 * 128 + k) = true → l.getD k 0 = 0) ∧
         (z.scanHidden (la / 128 * 128 + k) = false → isMemory (la / 128 * 128 + k) = true → l.getD k 0 = s.byteAt (la / 128 * 128 + k))) ∧
    (s.tripped = false →
      (ok 0 = true → 992 ≤ (workingSites passed s.oldSites 0).length → 992 ≤ (workingSites passed s.oldSites 1).length →
        (ok 1 = true → ok 2 = true →
          ∃ t, exec (.deviceReset passed trained images) s = .next t ∧ t.reg bootReg = w64 (if trained then 5 else 0x303) ∧ t.mem = [] ∧
            t.binds = [] ∧ t.journal = [] ∧ t.ptime = s.ptime ∧ t.host = s.host ∧
            t.spareCount 0 = (workingSites passed s.oldSites 0).length - 992 ∧ t.spareCount 1 = (workingSites passed s.oldSites 1).length - 992) ∧
        ((ok 1 = false ∨ ok 2 = false) → ∃ t, exec (.deviceReset passed trained images) s = .next t ∧ t.reg bootReg = 0x102 ∧ t.mem = [] ∧
          t.host = s.host)) ∧
      (ok 0 = true → ((workingSites passed s.oldSites 0).length < 992 ∨ (workingSites passed s.oldSites 1).length < 992) →
        ∃ t, exec (.deviceReset passed trained images) s = .next t ∧ t.reg bootReg = 0x201 ∧ t.mem = []) ∧
      (ok 0 = false → ∃ t, exec (.deviceReset passed trained images) s = .next t ∧ t.reg bootReg = 0x101 ∧ t.mem = [] ∧ t.host = s.host)) ∧
    exec (.deviceReset passed trained images) { s with powered := false, tripped := true } = .next { s with powered := false, tripped := true } ∧
    (fn ≤ 128 → n < lqCount fn →
      (s.lqState fn n = 0 → ∃ t, exec (.registerWrite fn 2 (0x1000 + 0x40 * n) v) s = .next t ∧
        t.reg (lqReg fn n 0) = (v &&& ~~~0xFFF) ∧ t.mem = s.mem) ∧
      (s.lqState fn n ≠ 0 → exec (.registerWrite fn 2 (0x1000 + 0x40 * n) v) s = .next s))

/-! ## The whole machine -/

/-- A step runs the instruction that the bytes at the program counter decode to (R67, R68, R110, R134, R245): fetched, in the handler,
or from a broadcast block. A turn of the schedule focuses its thread, and a device step is that step's own meaning. -/
def Obligations.StepRunsDecoded : Prop :=
  ∀ (i : Instr) (rest : List Byte) (x y : Xlat) (c n len : Nat) (w : IWord) (bs : List Byte) (blk : List (Nat × IWord)) (z : Outside)
    (l : List Action) (s : State),
    let f := s.focus
    let k := f.core
    let pc := s.pcOf f
    let code := [s.codeByte k x.la, s.codeByte k (x.la + 1), s.codeByte k y.la, s.codeByte k (y.la + 1)]
    let m := (s.cur k).mt (f.thr - 1)
    (s.agenda = [] → step s = turn s) ∧
    ((f.thr ≠ 0 ∨ s.canTake k = false) → s.canRun f = true →
      (s.inHandler f = false → (f.thr = 0 ∨ m.run ≠ .broadcast) → s.codeLa k pc.toNat = some x → s.fetchCause k pc.toNat = none →
        s.fetchMiss k pc.toNat = none →
        ((s.codeByte k x.la).getLsbD 0 = true → s.codeLa k (pc + 2).toNat = some y ∧ s.fetchCause k (pc + 2).toNat = none ∧
          s.fetchMiss k (pc + 2).toNat = none) →
        decode code = .ok (i, rest) → turn s = exec i (s.cacheCode k (s.halves k pc))) ∧
      (s.inHandler f = true → decode ((List.range 4).map (fun j => s.handlerCode k ((s.core k).hpc.toNat + j))) = .ok (i, rest) →
        turn s = exec i s) ∧
      (s.inHandler f = false → f.thr ≠ 0 → m.run = .broadcast → m.block = (len, w) :: blk → len = (if w.getLsbD 0 then 4 else 2) →
        decode [w.extractLsb' 0 8, w.extractLsb' 8 8, w.extractLsb' 16 8, w.extractLsb' 24 8] = .ok (i, rest) → turn s = exec i s)) ∧
    (s.agenda = .turn c n :: l → step s = turn { s with agenda := l, focus := ⟨c, n⟩ }) ∧
    (s.agenda = .event i :: l → kindOf i = .dev → step s = exec i { s with agenda := l }) ∧
    (s.agenda = .host n bs :: l → step s = .next { s with agenda := l, host := putBytes s.host n bs }) ∧
    (s.agenda = .outside z :: l → step s = .next (({ s with agenda := l } : State).outside z)) ∧
    (∀ vs, (s.cacheCode k vs).mem = s.mem ∧ (s.cacheCode k vs).binds = s.binds ∧ (s.cacheCode k vs).regs = s.regs ∧
      ∀ u, { (s.cacheCode k vs).core u with icache := [] } = { s.core u with icache := [] })

/-- Some words written out from the encoding tables (R70 to R72, R77 to R81, R85): their bytes, least significant first, decode to the
instructions that they stand for. -/
def Obligations.DecodeWords : Prop :=
  ∀ p ∈ [
    ([0x83, 0x81, 0x20, 0x00], Instr.add 2 1 3),
    ([0x89, 0x13, 0x00, 0x80], Instr.lui 0x80001 7),
    ([0x8D, 0xD5, 0x62, 0x0A], Instr.bgeu 0xAB 6 5),
    ([0x95, 0x50, 0x31, 0x80], Instr.sdf 0x801 3 2),
    ([0x19, 0x53, 0x32, 0x9C], Instr.amocas 1 2 3 4 5 6),
    ([0x1B, 0x00, 0x90, 0x05], Instr.fence 5 9),
    ([0xA3, 0x00, 0x31, 0x00], Instr.qput 3 2 1),
    ([0x25, 0x90, 0x34, 0x00], Instr.loop 3 9),
    ([0x27, 0x90, 0x42, 0x00], Instr.sendg 4 5),
    ([0x2D, 0x80, 0xA5, 0x28], Instr.barm 2 4 10 11),
    ([0x2F, 0x00, 0x86, 0x00], Instr.bcast 8 12),
    ([0xB7, 0x01, 0x01, 0xE2], Instr.vcvt 7 1 2 3),
    ([0x3D, 0x1A, 0x60, 0x1B], Instr.mmul 3 1 5 2 20),
    ([0x3F, 0x19, 0x30, 0x01], Instr.cpyx 4 3 18),
    ([0xC1, 0x01, 0x11, 0x54], Instr.map 0x2A 1 2 3),
    ([0xC3, 0x12, 0x02, 0x02], Instr.csrw 0x20 4 5),
    ([0x45, 0x84, 0x03, 0x00], Instr.gate 7 8),
    ([0x34, 0x85], Instr.cLd 0x21 2 3),
    ([0x1A, 0x80], Instr.cJ 0x801),
    ([0x0E, 0x40], Instr.cEnd)],
    decode p.1 = .ok (p.2, [])

/-- Decoding and encoding agree: the bytes of every well-formed instruction, whatever follows them, decode to that instruction with
every operand, and exactly its bytes are taken (R67, R70 to R72, R77 to R81, R85). -/
def Obligations.DecodeOfEncode : Prop :=
  ∀ (i : Instr) (rest : List Byte), i.wf = true →
    (∀ w, encode i = .word w →
      decode (w.extractLsb' 0 8 :: w.extractLsb' 8 8 :: w.extractLsb' 16 8 :: w.extractLsb' 24 8 :: rest) = .ok (i, rest)) ∧
    (∀ h, encode i = .half h → decode (h.extractLsb' 0 8 :: h.extractLsb' 8 8 :: rest) = .ok (i, rest))

/-- A module whose clocks stand, or that has no power, does nothing (R444, R451): but for a reset, the release of FREEZE and a scan
read, every instruction and every device step leaves the whole state as it is, and with its clocks running or not, every one of
them answers a next state. -/
def Obligations.FrozenModule : Prop :=
  ∀ (i : Instr) (s : State), (∃ t, exec i s = .next t) ∧
    (s.powered = false ∨ s.freeze = true →
      (∀ p a b, i ≠ .deviceReset p a b) → (∀ n, i ≠ .freezeRelease n) → (∀ o a, i ≠ .scanRead o a) → exec i s = .next s)

/-- What reset leaves: memory in its canonical form with nothing listed (the model's choice, log 3), and where the spec gives a value: banks
0 to 13 in cache mode and 14 and 15 in FIFO mode, all of class P (R281); no session, STATE RUN (R423); journal and park numbers from 0
(R162, R342); the physical function's budgets without limit and FIRST of a virtual function 1 (R170); the power cap of 1800 W and its
window of 10 ms (R449); 0x3F1F in SHAPE (R224). -/
def Obligations.ResetState : Prop :=
  let s := State.reset
  Memory.wf s.mem = true ∧ Memory.wf s.host = true ∧ Memory.wf s.dram = true ∧
    (∀ c, c < 1984 → ∀ b, b < 16 → s.bankMode c b = if b < 14 then 0 else 2) ∧ (∀ c b, b < 16 → s.bankClass c b = 0) ∧
    s.dbg.mode = 0 ∧ s.dbg.isOpen = false ∧
    s.jnext = 0 ∧ (∀ n, (s.mxu n).nextSeq = 0) ∧ s.reg (pfReg (0xD_0000 + 0x40 * 128 + 0x20)) = 0xFFFF_FFFF_FFFF_FFFF ∧ (∀ f, f < 128 → s.reg (pfReg (0xD_0000 + 0x40 * f + 8)) = 1) ∧
    s.reg capReg = 1800 ∧ s.reg winReg = 10 ∧
    (∀ c m, ((s.cur c).mt m).shape = 0x3F1F)

/-- Every step keeps the tables of bytes (memory as the machine reads it, host memory, and DRAM) in their canonical form: addresses
strictly rising, and no entry equal to what an unlisted address reads as. -/
def Obligations.StepKeepsMemoryCanonical : Prop :=
  ∀ (s t : State), step s = .next t →
    Memory.wf s.mem = true → Memory.wf s.host = true → Memory.wf s.dram = true →
    Memory.wf t.mem = true ∧ Memory.wf t.host = true ∧ Memory.wf t.dram = true

/-- Time never steps back (R444): no step takes PTIME below what it was. -/
def Obligations.TimeNeverStepsBack : Prop :=
  ∀ (s t : State), step s = .next t → s.ptime ≤ t.ptime
end

