-- ==== Sys2Proof/Laws/Dispatch.lean ====
section
/-! SUPPORT. What `exec` does with each constructor: it calls that instruction's own meaning. -/
namespace Sys2Proof.Machine

theorem exec_add (b : Reg) (a : Reg) (d : Reg) (σ : State) : exec (.add b a d) σ = execAdd b a d σ := rfl
theorem exec_sub (b : Reg) (a : Reg) (d : Reg) (σ : State) : exec (.sub b a d) σ = execSub b a d σ := rfl
theorem exec_sll (b : Reg) (a : Reg) (d : Reg) (σ : State) : exec (.sll b a d) σ = execSll b a d σ := rfl
theorem exec_slt (b : Reg) (a : Reg) (d : Reg) (σ : State) : exec (.slt b a d) σ = execSlt b a d σ := rfl
theorem exec_sltu (b : Reg) (a : Reg) (d : Reg) (σ : State) : exec (.sltu b a d) σ = execSltu b a d σ := rfl
theorem exec_xor (b : Reg) (a : Reg) (d : Reg) (σ : State) : exec (.xor b a d) σ = execXor b a d σ := rfl
theorem exec_srl (b : Reg) (a : Reg) (d : Reg) (σ : State) : exec (.srl b a d) σ = execSrl b a d σ := rfl
theorem exec_sra (b : Reg) (a : Reg) (d : Reg) (σ : State) : exec (.sra b a d) σ = execSra b a d σ := rfl
theorem exec_and (b : Reg) (a : Reg) (d : Reg) (σ : State) : exec (.and b a d) σ = execAnd b a d σ := rfl
theorem exec_or (b : Reg) (a : Reg) (d : Reg) (σ : State) : exec (.or b a d) σ = execOr b a d σ := rfl
theorem exec_andn (b : Reg) (a : Reg) (d : Reg) (σ : State) : exec (.andn b a d) σ = execAndn b a d σ := rfl
theorem exec_orn (b : Reg) (a : Reg) (d : Reg) (σ : State) : exec (.orn b a d) σ = execOrn b a d σ := rfl
theorem exec_xnor (b : Reg) (a : Reg) (d : Reg) (σ : State) : exec (.xnor b a d) σ = execXnor b a d σ := rfl
theorem exec_addi (i : BitVec 12) (a : Reg) (d : Reg) (σ : State) : exec (.addi i a d) σ = execAddi i a d σ := rfl
theorem exec_slli (h : BitVec 6) (a : Reg) (d : Reg) (σ : State) : exec (.slli h a d) σ = execSlli h a d σ := rfl
theorem exec_slti (i : BitVec 12) (a : Reg) (d : Reg) (σ : State) : exec (.slti i a d) σ = execSlti i a d σ := rfl
theorem exec_sltiu (i : BitVec 12) (a : Reg) (d : Reg) (σ : State) : exec (.sltiu i a d) σ = execSltiu i a d σ := rfl
theorem exec_xori (i : BitVec 12) (a : Reg) (d : Reg) (σ : State) : exec (.xori i a d) σ = execXori i a d σ := rfl
theorem exec_srli (h : BitVec 6) (a : Reg) (d : Reg) (σ : State) : exec (.srli h a d) σ = execSrli h a d σ := rfl
theorem exec_srai (h : BitVec 6) (a : Reg) (d : Reg) (σ : State) : exec (.srai h a d) σ = execSrai h a d σ := rfl
theorem exec_ori (i : BitVec 12) (a : Reg) (d : Reg) (σ : State) : exec (.ori i a d) σ = execOri i a d σ := rfl
theorem exec_andi (i : BitVec 12) (a : Reg) (d : Reg) (σ : State) : exec (.andi i a d) σ = execAndi i a d σ := rfl
theorem exec_lui (i : BitVec 20) (d : Reg) (σ : State) : exec (.lui i d) σ = execLui i d σ := rfl
theorem exec_auipc (i : BitVec 20) (d : Reg) (σ : State) : exec (.auipc i d) σ = execAuipc i d σ := rfl
theorem exec_mul (b : Reg) (a : Reg) (d : Reg) (σ : State) : exec (.mul b a d) σ = execMul b a d σ := rfl
theorem exec_mulh (b : Reg) (a : Reg) (d : Reg) (σ : State) : exec (.mulh b a d) σ = execMulh b a d σ := rfl
theorem exec_mulhsu (b : Reg) (a : Reg) (d : Reg) (σ : State) : exec (.mulhsu b a d) σ = execMulhsu b a d σ := rfl
theorem exec_mulhu (b : Reg) (a : Reg) (d : Reg) (σ : State) : exec (.mulhu b a d) σ = execMulhu b a d σ := rfl
theorem exec_div (b : Reg) (a : Reg) (d : Reg) (σ : State) : exec (.div b a d) σ = execDiv b a d σ := rfl
theorem exec_divu (b : Reg) (a : Reg) (d : Reg) (σ : State) : exec (.divu b a d) σ = execDivu b a d σ := rfl
theorem exec_rem (b : Reg) (a : Reg) (d : Reg) (σ : State) : exec (.rem b a d) σ = execRem b a d σ := rfl
theorem exec_remu (b : Reg) (a : Reg) (d : Reg) (σ : State) : exec (.remu b a d) σ = execRemu b a d σ := rfl
theorem exec_min (b : Reg) (a : Reg) (d : Reg) (σ : State) : exec (.min b a d) σ = execMin b a d σ := rfl
theorem exec_max (b : Reg) (a : Reg) (d : Reg) (σ : State) : exec (.max b a d) σ = execMax b a d σ := rfl
theorem exec_minu (b : Reg) (a : Reg) (d : Reg) (σ : State) : exec (.minu b a d) σ = execMinu b a d σ := rfl
theorem exec_maxu (b : Reg) (a : Reg) (d : Reg) (σ : State) : exec (.maxu b a d) σ = execMaxu b a d σ := rfl
theorem exec_clz (a : Reg) (d : Reg) (σ : State) : exec (.clz a d) σ = execClz a d σ := rfl
theorem exec_ctz (a : Reg) (d : Reg) (σ : State) : exec (.ctz a d) σ = execCtz a d σ := rfl
theorem exec_popc (a : Reg) (d : Reg) (σ : State) : exec (.popc a d) σ = execPopc a d σ := rfl
theorem exec_brev (a : Reg) (d : Reg) (σ : State) : exec (.brev a d) σ = execBrev a d σ := rfl
theorem exec_beq (i : BitVec 12) (b : Reg) (a : Reg) (σ : State) : exec (.beq i b a) σ = execBeq i b a σ := rfl
theorem exec_bne (i : BitVec 12) (b : Reg) (a : Reg) (σ : State) : exec (.bne i b a) σ = execBne i b a σ := rfl
theorem exec_blt (i : BitVec 12) (b : Reg) (a : Reg) (σ : State) : exec (.blt i b a) σ = execBlt i b a σ := rfl
theorem exec_bge (i : BitVec 12) (b : Reg) (a : Reg) (σ : State) : exec (.bge i b a) σ = execBge i b a σ := rfl
theorem exec_bltu (i : BitVec 12) (b : Reg) (a : Reg) (σ : State) : exec (.bltu i b a) σ = execBltu i b a σ := rfl
theorem exec_bgeu (i : BitVec 12) (b : Reg) (a : Reg) (σ : State) : exec (.bgeu i b a) σ = execBgeu i b a σ := rfl
theorem exec_jal (i : BitVec 20) (d : Reg) (σ : State) : exec (.jal i d) σ = execJal i d σ := rfl
theorem exec_jalr (i : BitVec 12) (a : Reg) (d : Reg) (σ : State) : exec (.jalr i a d) σ = execJalr i a d σ := rfl
theorem exec_lb (i : BitVec 12) (a : Reg) (d : Reg) (σ : State) : exec (.lb i a d) σ = execLb i a d σ := rfl
theorem exec_lh (i : BitVec 12) (a : Reg) (d : Reg) (σ : State) : exec (.lh i a d) σ = execLh i a d σ := rfl
theorem exec_lw (i : BitVec 12) (a : Reg) (d : Reg) (σ : State) : exec (.lw i a d) σ = execLw i a d σ := rfl
theorem exec_ld (i : BitVec 12) (a : Reg) (d : Reg) (σ : State) : exec (.ld i a d) σ = execLd i a d σ := rfl
theorem exec_lbu (i : BitVec 12) (a : Reg) (d : Reg) (σ : State) : exec (.lbu i a d) σ = execLbu i a d σ := rfl
theorem exec_lhu (i : BitVec 12) (a : Reg) (d : Reg) (σ : State) : exec (.lhu i a d) σ = execLhu i a d σ := rfl
theorem exec_lwu (i : BitVec 12) (a : Reg) (d : Reg) (σ : State) : exec (.lwu i a d) σ = execLwu i a d σ := rfl
theorem exec_sb (i : BitVec 12) (b : Reg) (a : Reg) (σ : State) : exec (.sb i b a) σ = execSb i b a σ := rfl
theorem exec_sh (i : BitVec 12) (b : Reg) (a : Reg) (σ : State) : exec (.sh i b a) σ = execSh i b a σ := rfl
theorem exec_sw (i : BitVec 12) (b : Reg) (a : Reg) (σ : State) : exec (.sw i b a) σ = execSw i b a σ := rfl
theorem exec_sd (i : BitVec 12) (b : Reg) (a : Reg) (σ : State) : exec (.sd i b a) σ = execSd i b a σ := rfl
theorem exec_swf (i : BitVec 12) (b : Reg) (a : Reg) (σ : State) : exec (.swf i b a) σ = execSwf i b a σ := rfl
theorem exec_sdf (i : BitVec 12) (b : Reg) (a : Reg) (σ : State) : exec (.sdf i b a) σ = execSdf i b a σ := rfl
theorem exec_lwf (i : BitVec 12) (a : Reg) (d : Reg) (σ : State) : exec (.lwf i a d) σ = execLwf i a d σ := rfl
theorem exec_ldf (i : BitVec 12) (a : Reg) (d : Reg) (σ : State) : exec (.ldf i a d) σ = execLdf i a d σ := rfl
theorem exec_lwfc (i : BitVec 12) (a : Reg) (d : Reg) (σ : State) : exec (.lwfc i a d) σ = execLwfc i a d σ := rfl
theorem exec_ldfc (i : BitVec 12) (a : Reg) (d : Reg) (σ : State) : exec (.ldfc i a d) σ = execLdfc i a d σ := rfl
theorem exec_amoadd (z : BitVec 1) (r : BitVec 2) (b : Reg) (a : Reg) (s : BitVec 3) (d : Reg) (σ : State) : exec (.amoadd z r b a s d) σ = execAmoadd z r b a s d σ := rfl
theorem exec_amoswap (z : BitVec 1) (r : BitVec 2) (b : Reg) (a : Reg) (s : BitVec 3) (d : Reg) (σ : State) : exec (.amoswap z r b a s d) σ = execAmoswap z r b a s d σ := rfl
theorem exec_amoand (z : BitVec 1) (r : BitVec 2) (b : Reg) (a : Reg) (s : BitVec 3) (d : Reg) (σ : State) : exec (.amoand z r b a s d) σ = execAmoand z r b a s d σ := rfl
theorem exec_amoor (z : BitVec 1) (r : BitVec 2) (b : Reg) (a : Reg) (s : BitVec 3) (d : Reg) (σ : State) : exec (.amoor z r b a s d) σ = execAmoor z r b a s d σ := rfl
theorem exec_amoxor (z : BitVec 1) (r : BitVec 2) (b : Reg) (a : Reg) (s : BitVec 3) (d : Reg) (σ : State) : exec (.amoxor z r b a s d) σ = execAmoxor z r b a s d σ := rfl
theorem exec_amomin (z : BitVec 1) (r : BitVec 2) (b : Reg) (a : Reg) (s : BitVec 3) (d : Reg) (σ : State) : exec (.amomin z r b a s d) σ = execAmomin z r b a s d σ := rfl
theorem exec_amomax (z : BitVec 1) (r : BitVec 2) (b : Reg) (a : Reg) (s : BitVec 3) (d : Reg) (σ : State) : exec (.amomax z r b a s d) σ = execAmomax z r b a s d σ := rfl
theorem exec_amominu (z : BitVec 1) (r : BitVec 2) (b : Reg) (a : Reg) (s : BitVec 3) (d : Reg) (σ : State) : exec (.amominu z r b a s d) σ = execAmominu z r b a s d σ := rfl
theorem exec_amomaxu (z : BitVec 1) (r : BitVec 2) (b : Reg) (a : Reg) (s : BitVec 3) (d : Reg) (σ : State) : exec (.amomaxu z r b a s d) σ = execAmomaxu z r b a s d σ := rfl
theorem exec_amocas (z : BitVec 1) (r : BitVec 2) (b : Reg) (a : Reg) (s : BitVec 3) (d : Reg) (σ : State) : exec (.amocas z r b a s d) σ = execAmocas z r b a s d σ := rfl
theorem exec_fence (s : BitVec 3) (k : BitVec 4) (σ : State) : exec (.fence s k) σ = execFence s k σ := rfl
theorem exec_discard (i : BitVec 12) (a : Reg) (σ : State) : exec (.discard i a) σ = execDiscard i a σ := rfl
theorem exec_lastuse (i : BitVec 12) (a : Reg) (σ : State) : exec (.lastuse i a) σ = execLastuse i a σ := rfl
theorem exec_prefetch (i : BitVec 12) (a : Reg) (σ : State) : exec (.prefetch i a) σ = execPrefetch i a σ := rfl
theorem exec_flushl (i : BitVec 12) (a : Reg) (σ : State) : exec (.flushl i a) σ = execFlushl i a σ := rfl
theorem exec_sete (a : Reg) (d : Reg) (σ : State) : exec (.sete a d) σ = execSete a d σ := rfl
theorem exec_setei (i : BitVec 12) (d : Reg) (σ : State) : exec (.setei i d) σ = execSetei i d σ := rfl
theorem exec_gete (a : Reg) (d : Reg) (σ : State) : exec (.gete a d) σ = execGete a d σ := rfl
theorem exec_geteI (n : BitVec 2) (d : Reg) (σ : State) : exec (.geteI n d) σ = execGeteI n d σ := rfl
theorem exec_qput (b : Reg) (a : Reg) (q : Reg) (σ : State) : exec (.qput b a q) σ = execQput b a q σ := rfl
theorem exec_qget (b : Reg) (q : Reg) (d : Reg) (σ : State) : exec (.qget b q d) σ = execQget b q d σ := rfl
theorem exec_qpeek (q : Reg) (d : Reg) (σ : State) : exec (.qpeek q d) σ = execQpeek q d σ := rfl
theorem exec_qcnt (q : Reg) (d : Reg) (σ : State) : exec (.qcnt q d) σ = execQcnt q d σ := rfl
theorem exec_nest (b : Reg) (a : Reg) (σ : State) : exec (.nest b a) σ = execNest b a σ := rfl
theorem exec_loop (i : BitVec 12) (a : Reg) (σ : State) : exec (.loop i a) σ = execLoop i a σ := rfl
theorem exec_nestq (a : Reg) (d : Reg) (σ : State) : exec (.nestq a d) σ = execNestq a d σ := rfl
theorem exec_send (b : Reg) (a : Reg) (σ : State) : exec (.send b a) σ = execSend b a σ := rfl
theorem exec_sendg (b : Reg) (a : Reg) (σ : State) : exec (.sendg b a) σ = execSendg b a σ := rfl
theorem exec_sendf (b : Reg) (a : Reg) (σ : State) : exec (.sendf b a) σ = execSendf b a σ := rfl
theorem exec_mld (a : Reg) (d : Reg) (σ : State) : exec (.mld a d) σ = execMld a d σ := rfl
theorem exec_mlen (d : Reg) (σ : State) : exec (.mlen d) σ = execMlen d σ := rfl
theorem exec_mhdr (a : Reg) (d : Reg) (σ : State) : exec (.mhdr a d) σ = execMhdr a d σ := rfl
theorem exec_endAct  (σ : State) : exec .endAct σ = execEndAct σ := rfl
theorem exec_endx  (σ : State) : exec .endx σ = execEndx σ := rfl
theorem exec_grank (a : Reg) (d : Reg) (σ : State) : exec (.grank a d) σ = execGrank a d σ := rfl
theorem exec_gsize (a : Reg) (d : Reg) (σ : State) : exec (.gsize a d) σ = execGsize a d σ := rfl
theorem exec_gmemb (b : Reg) (a : Reg) (d : Reg) (σ : State) : exec (.gmemb b a d) σ = execGmemb b a d σ := rfl
theorem exec_barm (s : BitVec 3) (o : BitVec 3) (b : Reg) (a : Reg) (σ : State) : exec (.barm s o b a) σ = execBarm s o b a σ := rfl
theorem exec_barv (b : Reg) (a : Reg) (σ : State) : exec (.barv b a) σ = execBarv b a σ := rfl
theorem exec_barw (a : Reg) (d : Reg) (σ : State) : exec (.barw a d) σ = execBarw a d σ := rfl
theorem exec_barx (a : Reg) (σ : State) : exec (.barx a) σ = execBarx a σ := rfl
theorem exec_barq (a : Reg) (d : Reg) (σ : State) : exec (.barq a d) σ = execBarq a d σ := rfl
theorem exec_bcast (n : BitVec 4) (a : Reg) (σ : State) : exec (.bcast n a) σ = execBcast n a σ := rfl
theorem exec_bfetch (i : BitVec 12) (a : Reg) (σ : State) : exec (.bfetch i a) σ = execBfetch i a σ := rfl
theorem exec_stop  (σ : State) : exec .stop σ = execStop σ := rfl
theorem exec_mtwait (a : Reg) (σ : State) : exec (.mtwait a) σ = execMtwait a σ := rfl
theorem exec_mtstat (d : Reg) (σ : State) : exec (.mtstat d) σ = execMtstat d σ := rfl
theorem exec_mtrst (a : Reg) (σ : State) : exec (.mtrst a) σ = execMtrst a σ := rfl
theorem exec_vaddVv (b : VNum) (a : VNum) (d : VNum) (σ : State) : exec (.vaddVv b a d) σ = execVaddVv b a d σ := rfl
theorem exec_vaddVx (b : Reg) (a : VNum) (d : VNum) (σ : State) : exec (.vaddVx b a d) σ = execVaddVx b a d σ := rfl
theorem exec_vaddVi (i : BitVec 5) (a : VNum) (d : VNum) (σ : State) : exec (.vaddVi i a d) σ = execVaddVi i a d σ := rfl
theorem exec_vsubVv (b : VNum) (a : VNum) (d : VNum) (σ : State) : exec (.vsubVv b a d) σ = execVsubVv b a d σ := rfl
theorem exec_vsubVx (b : Reg) (a : VNum) (d : VNum) (σ : State) : exec (.vsubVx b a d) σ = execVsubVx b a d σ := rfl
theorem exec_vsubVi (i : BitVec 5) (a : VNum) (d : VNum) (σ : State) : exec (.vsubVi i a d) σ = execVsubVi i a d σ := rfl
theorem exec_vmulVv (b : VNum) (a : VNum) (d : VNum) (σ : State) : exec (.vmulVv b a d) σ = execVmulVv b a d σ := rfl
theorem exec_vmulVx (b : Reg) (a : VNum) (d : VNum) (σ : State) : exec (.vmulVx b a d) σ = execVmulVx b a d σ := rfl
theorem exec_vmulVi (i : BitVec 5) (a : VNum) (d : VNum) (σ : State) : exec (.vmulVi i a d) σ = execVmulVi i a d σ := rfl
theorem exec_vminVv (b : VNum) (a : VNum) (d : VNum) (σ : State) : exec (.vminVv b a d) σ = execVminVv b a d σ := rfl
theorem exec_vminVx (b : Reg) (a : VNum) (d : VNum) (σ : State) : exec (.vminVx b a d) σ = execVminVx b a d σ := rfl
theorem exec_vminVi (i : BitVec 5) (a : VNum) (d : VNum) (σ : State) : exec (.vminVi i a d) σ = execVminVi i a d σ := rfl
theorem exec_vmaxVv (b : VNum) (a : VNum) (d : VNum) (σ : State) : exec (.vmaxVv b a d) σ = execVmaxVv b a d σ := rfl
theorem exec_vmaxVx (b : Reg) (a : VNum) (d : VNum) (σ : State) : exec (.vmaxVx b a d) σ = execVmaxVx b a d σ := rfl
theorem exec_vmaxVi (i : BitVec 5) (a : VNum) (d : VNum) (σ : State) : exec (.vmaxVi i a d) σ = execVmaxVi i a d σ := rfl
theorem exec_vandVv (b : VNum) (a : VNum) (d : VNum) (σ : State) : exec (.vandVv b a d) σ = execVandVv b a d σ := rfl
theorem exec_vandVx (b : Reg) (a : VNum) (d : VNum) (σ : State) : exec (.vandVx b a d) σ = execVandVx b a d σ := rfl
theorem exec_vandVi (i : BitVec 5) (a : VNum) (d : VNum) (σ : State) : exec (.vandVi i a d) σ = execVandVi i a d σ := rfl
theorem exec_vorVv (b : VNum) (a : VNum) (d : VNum) (σ : State) : exec (.vorVv b a d) σ = execVorVv b a d σ := rfl
theorem exec_vorVx (b : Reg) (a : VNum) (d : VNum) (σ : State) : exec (.vorVx b a d) σ = execVorVx b a d σ := rfl
theorem exec_vorVi (i : BitVec 5) (a : VNum) (d : VNum) (σ : State) : exec (.vorVi i a d) σ = execVorVi i a d σ := rfl
theorem exec_vxorVv (b : VNum) (a : VNum) (d : VNum) (σ : State) : exec (.vxorVv b a d) σ = execVxorVv b a d σ := rfl
theorem exec_vxorVx (b : Reg) (a : VNum) (d : VNum) (σ : State) : exec (.vxorVx b a d) σ = execVxorVx b a d σ := rfl
theorem exec_vxorVi (i : BitVec 5) (a : VNum) (d : VNum) (σ : State) : exec (.vxorVi i a d) σ = execVxorVi i a d σ := rfl
theorem exec_vshlVv (b : VNum) (a : VNum) (d : VNum) (σ : State) : exec (.vshlVv b a d) σ = execVshlVv b a d σ := rfl
theorem exec_vshlVx (b : Reg) (a : VNum) (d : VNum) (σ : State) : exec (.vshlVx b a d) σ = execVshlVx b a d σ := rfl
theorem exec_vshlVi (i : BitVec 5) (a : VNum) (d : VNum) (σ : State) : exec (.vshlVi i a d) σ = execVshlVi i a d σ := rfl
theorem exec_vshrVv (b : VNum) (a : VNum) (d : VNum) (σ : State) : exec (.vshrVv b a d) σ = execVshrVv b a d σ := rfl
theorem exec_vshrVx (b : Reg) (a : VNum) (d : VNum) (σ : State) : exec (.vshrVx b a d) σ = execVshrVx b a d σ := rfl
theorem exec_vshrVi (i : BitVec 5) (a : VNum) (d : VNum) (σ : State) : exec (.vshrVi i a d) σ = execVshrVi i a d σ := rfl
theorem exec_vsraVv (b : VNum) (a : VNum) (d : VNum) (σ : State) : exec (.vsraVv b a d) σ = execVsraVv b a d σ := rfl
theorem exec_vsraVx (b : Reg) (a : VNum) (d : VNum) (σ : State) : exec (.vsraVx b a d) σ = execVsraVx b a d σ := rfl
theorem exec_vsraVi (i : BitVec 5) (a : VNum) (d : VNum) (σ : State) : exec (.vsraVi i a d) σ = execVsraVi i a d σ := rfl
theorem exec_vabs (a : VNum) (d : VNum) (σ : State) : exec (.vabs a d) σ = execVabs a d σ := rfl
theorem exec_vneg (a : VNum) (d : VNum) (σ : State) : exec (.vneg a d) σ = execVneg a d σ := rfl
theorem exec_vcmpeqVv (b : VNum) (a : VNum) (d : VNum) (σ : State) : exec (.vcmpeqVv b a d) σ = execVcmpeqVv b a d σ := rfl
theorem exec_vcmpeqVx (b : Reg) (a : VNum) (d : VNum) (σ : State) : exec (.vcmpeqVx b a d) σ = execVcmpeqVx b a d σ := rfl
theorem exec_vcmpeqVi (i : BitVec 5) (a : VNum) (d : VNum) (σ : State) : exec (.vcmpeqVi i a d) σ = execVcmpeqVi i a d σ := rfl
theorem exec_vcmpltVv (b : VNum) (a : VNum) (d : VNum) (σ : State) : exec (.vcmpltVv b a d) σ = execVcmpltVv b a d σ := rfl
theorem exec_vcmpltVx (b : Reg) (a : VNum) (d : VNum) (σ : State) : exec (.vcmpltVx b a d) σ = execVcmpltVx b a d σ := rfl
theorem exec_vcmpltVi (i : BitVec 5) (a : VNum) (d : VNum) (σ : State) : exec (.vcmpltVi i a d) σ = execVcmpltVi i a d σ := rfl
theorem exec_vselVv (b : VNum) (a : VNum) (d : VNum) (σ : State) : exec (.vselVv b a d) σ = execVselVv b a d σ := rfl
theorem exec_vselVx (b : Reg) (a : VNum) (d : VNum) (σ : State) : exec (.vselVx b a d) σ = execVselVx b a d σ := rfl
theorem exec_vselVi (i : BitVec 5) (a : VNum) (d : VNum) (σ : State) : exec (.vselVi i a d) σ = execVselVi i a d σ := rfl
theorem exec_vfaddVv (b : VNum) (a : VNum) (d : VNum) (σ : State) : exec (.vfaddVv b a d) σ = execVfaddVv b a d σ := rfl
theorem exec_vfaddVx (b : Reg) (a : VNum) (d : VNum) (σ : State) : exec (.vfaddVx b a d) σ = execVfaddVx b a d σ := rfl
theorem exec_vfsubVv (b : VNum) (a : VNum) (d : VNum) (σ : State) : exec (.vfsubVv b a d) σ = execVfsubVv b a d σ := rfl
theorem exec_vfsubVx (b : Reg) (a : VNum) (d : VNum) (σ : State) : exec (.vfsubVx b a d) σ = execVfsubVx b a d σ := rfl
theorem exec_vfmulVv (b : VNum) (a : VNum) (d : VNum) (σ : State) : exec (.vfmulVv b a d) σ = execVfmulVv b a d σ := rfl
theorem exec_vfmulVx (b : Reg) (a : VNum) (d : VNum) (σ : State) : exec (.vfmulVx b a d) σ = execVfmulVx b a d σ := rfl
theorem exec_vfmaVv (b : VNum) (a : VNum) (d : VNum) (σ : State) : exec (.vfmaVv b a d) σ = execVfmaVv b a d σ := rfl
theorem exec_vfmaVx (b : Reg) (a : VNum) (d : VNum) (σ : State) : exec (.vfmaVx b a d) σ = execVfmaVx b a d σ := rfl
theorem exec_vfminVv (b : VNum) (a : VNum) (d : VNum) (σ : State) : exec (.vfminVv b a d) σ = execVfminVv b a d σ := rfl
theorem exec_vfminVx (b : Reg) (a : VNum) (d : VNum) (σ : State) : exec (.vfminVx b a d) σ = execVfminVx b a d σ := rfl
theorem exec_vfmaxVv (b : VNum) (a : VNum) (d : VNum) (σ : State) : exec (.vfmaxVv b a d) σ = execVfmaxVv b a d σ := rfl
theorem exec_vfmaxVx (b : Reg) (a : VNum) (d : VNum) (σ : State) : exec (.vfmaxVx b a d) σ = execVfmaxVx b a d σ := rfl
theorem exec_vfexp2 (a : VNum) (d : VNum) (σ : State) : exec (.vfexp2 a d) σ = execVfexp2 a d σ := rfl
theorem exec_vflog2 (a : VNum) (d : VNum) (σ : State) : exec (.vflog2 a d) σ = execVflog2 a d σ := rfl
theorem exec_vfrcp (a : VNum) (d : VNum) (σ : State) : exec (.vfrcp a d) σ = execVfrcp a d σ := rfl
theorem exec_vfrsq (a : VNum) (d : VNum) (σ : State) : exec (.vfrsq a d) σ = execVfrsq a d σ := rfl
theorem exec_vfcmpltVv (b : VNum) (a : VNum) (d : VNum) (σ : State) : exec (.vfcmpltVv b a d) σ = execVfcmpltVv b a d σ := rfl
theorem exec_vfcmpltVx (b : Reg) (a : VNum) (d : VNum) (σ : State) : exec (.vfcmpltVx b a d) σ = execVfcmpltVx b a d σ := rfl
theorem exec_vfcmpeqVv (b : VNum) (a : VNum) (d : VNum) (σ : State) : exec (.vfcmpeqVv b a d) σ = execVfcmpeqVv b a d σ := rfl
theorem exec_vfcmpeqVx (b : Reg) (a : VNum) (d : VNum) (σ : State) : exec (.vfcmpeqVx b a d) σ = execVfcmpeqVx b a d σ := rfl
theorem exec_vld (f : BitVec 5) (a : Reg) (d : VNum) (σ : State) : exec (.vld f a d) σ = execVld f a d σ := rfl
theorem exec_vst (a : Reg) (d : VNum) (σ : State) : exec (.vst a d) σ = execVst a d σ := rfl
theorem exec_vldp (k : BitVec 5) (a : Reg) (d : VNum) (σ : State) : exec (.vldp k a d) σ = execVldp k a d σ := rfl
theorem exec_vstp (k : BitVec 5) (a : Reg) (d : VNum) (σ : State) : exec (.vstp k a d) σ = execVstp k a d σ := rfl
theorem exec_vcvt (p : BitVec 3) (f : BitVec 4) (a : VNum) (d : VNum) (σ : State) : exec (.vcvt p f a d) σ = execVcvt p f a d σ := rfl
theorem exec_vsplit (p : BitVec 3) (f : BitVec 4) (a : VNum) (d : VNum) (σ : State) : exec (.vsplit p f a d) σ = execVsplit p f a d σ := rfl
theorem exec_vscale (b : Reg) (a : VNum) (d : VNum) (σ : State) : exec (.vscale b a d) σ = execVscale b a d σ := rfl
theorem exec_vtag (a : Reg) (d : VNum) (σ : State) : exec (.vtag a d) σ = execVtag a d σ := rfl
theorem exec_vrsumRow (a : VNum) (d : VNum) (σ : State) : exec (.vrsumRow a d) σ = execVrsumRow a d σ := rfl
theorem exec_vrsumCol (a : VNum) (d : VNum) (σ : State) : exec (.vrsumCol a d) σ = execVrsumCol a d σ := rfl
theorem exec_vrmaxRow (a : VNum) (d : VNum) (σ : State) : exec (.vrmaxRow a d) σ = execVrmaxRow a d σ := rfl
theorem exec_vrmaxCol (a : VNum) (d : VNum) (σ : State) : exec (.vrmaxCol a d) σ = execVrmaxCol a d σ := rfl
theorem exec_vrminRow (a : VNum) (d : VNum) (σ : State) : exec (.vrminRow a d) σ = execVrminRow a d σ := rfl
theorem exec_vrminCol (a : VNum) (d : VNum) (σ : State) : exec (.vrminCol a d) σ = execVrminCol a d σ := rfl
theorem exec_vscanRow (a : VNum) (d : VNum) (σ : State) : exec (.vscanRow a d) σ = execVscanRow a d σ := rfl
theorem exec_vscanCol (a : VNum) (d : VNum) (σ : State) : exec (.vscanCol a d) σ = execVscanCol a d σ := rfl
theorem exec_vshape (a : Reg) (σ : State) : exec (.vshape a) σ = execVshape a σ := rfl
theorem exec_vmov (a : VNum) (d : VNum) (σ : State) : exec (.vmov a d) σ = execVmov a d σ := rfl
theorem exec_vbcr (b : Reg) (a : VNum) (d : VNum) (σ : State) : exec (.vbcr b a d) σ = execVbcr b a d σ := rfl
theorem exec_vbcc (b : Reg) (a : VNum) (d : VNum) (σ : State) : exec (.vbcc b a d) σ = execVbcc b a d σ := rfl
theorem exec_vtrn (a : VNum) (d : VNum) (σ : State) : exec (.vtrn a d) σ = execVtrn a d σ := rfl
theorem exec_vins (b : Reg) (a : Reg) (d : VNum) (σ : State) : exec (.vins b a d) σ = execVins b a d σ := rfl
theorem exec_vext (b : Reg) (a : VNum) (d : Reg) (σ : State) : exec (.vext b a d) σ = execVext b a d σ := rfl
theorem exec_mldb (m : BitVec 2) (s : BitVec 3) (o : BitVec 2) (g : BitVec 5) (σ : State) : exec (.mldb m s o g) σ = execMldb m s o g σ := rfl
theorem exec_mmul (t : BitVec 2) (m : BitVec 2) (s : BitVec 3) (o : BitVec 2) (g : BitVec 5) (σ : State) : exec (.mmul t m s o g) σ = execMmul t m s o g σ := rfl
theorem exec_mmrot (t : BitVec 2) (m : BitVec 2) (s : BitVec 3) (o : BitVec 2) (g : BitVec 5) (σ : State) : exec (.mmrot t m s o g) σ = execMmrot t m s o g σ := rfl
theorem exec_mdrain (t : BitVec 2) (s : BitVec 3) (o : BitVec 2) (g : BitVec 5) (σ : State) : exec (.mdrain t s o g) σ = execMdrain t s o g σ := rfl
theorem exec_mzero (t : BitVec 2) (s : BitVec 3) (o : BitVec 2) (g : BitVec 5) (σ : State) : exec (.mzero t s o g) σ = execMzero t s o g σ := rfl
theorem exec_mwait  (σ : State) : exec .mwait σ = execMwait σ := rfl
theorem exec_mstat (d : Reg) (σ : State) : exec (.mstat d) σ = execMstat d σ := rfl
theorem exec_cpy (s : BitVec 3) (o : BitVec 2) (g : BitVec 5) (σ : State) : exec (.cpy s o g) σ = execCpy s o g σ := rfl
theorem exec_cpyx (s : BitVec 3) (o : BitVec 2) (g : BitVec 5) (σ : State) : exec (.cpyx s o g) σ = execCpyx s o g σ := rfl
theorem exec_cpyw (a : Reg) (σ : State) : exec (.cpyw a) σ = execCpyw a σ := rfl
theorem exec_cpyq (d : Reg) (σ : State) : exec (.cpyq d) σ = execCpyq d σ := rfl
theorem exec_map (r : BitVec 6) (b : Reg) (a : Reg) (d : Reg) (σ : State) : exec (.map r b a d) σ = execMap r b a d σ := rfl
theorem exec_grant (r : BitVec 6) (b : Reg) (a : Reg) (d : Reg) (σ : State) : exec (.grant r b a d) σ = execGrant r b a d σ := rfl
theorem exec_unmap (a : Reg) (d : Reg) (σ : State) : exec (.unmap a d) σ = execUnmap a d σ := rfl
theorem exec_mquery (a : Reg) (d : Reg) (σ : State) : exec (.mquery a d) σ = execMquery a d σ := rfl
theorem exec_release (a : Reg) (σ : State) : exec (.release a) σ = execRelease a σ := rfl
theorem exec_accept (a : Reg) (d : Reg) (σ : State) : exec (.accept a d) σ = execAccept a d σ := rfl
theorem exec_csrr (s : BitVec 12) (d : Reg) (σ : State) : exec (.csrr s d) σ = execCsrr s d σ := rfl
theorem exec_csrw (s : BitVec 12) (a : Reg) (d : Reg) (σ : State) : exec (.csrw s a d) σ = execCsrw s a d σ := rfl
theorem exec_csrs (s : BitVec 12) (a : Reg) (d : Reg) (σ : State) : exec (.csrs s a d) σ = execCsrs s a d σ := rfl
theorem exec_csrc (s : BitVec 12) (a : Reg) (d : Reg) (σ : State) : exec (.csrc s a d) σ = execCsrc s a d σ := rfl
theorem exec_trap (a : Reg) (σ : State) : exec (.trap a) σ = execTrap a σ := rfl
theorem exec_eret  (σ : State) : exec .eret σ = execEret σ := rfl
theorem exec_checkerr (d : Reg) (σ : State) : exec (.checkerr d) σ = execCheckerr d σ := rfl
theorem exec_brkpt  (σ : State) : exec .brkpt σ = execBrkpt σ := rfl
theorem exec_trace (a : Reg) (σ : State) : exec (.trace a) σ = execTrace a σ := rfl
theorem exec_pair  (σ : State) : exec .pair σ = execPair σ := rfl
theorem exec_unpair  (σ : State) : exec .unpair σ = execUnpair σ := rfl
theorem exec_wfe  (σ : State) : exec .wfe σ = execWfe σ := rfl
theorem exec_gate (a : Reg) (d : Reg) (σ : State) : exec (.gate a d) σ = execGate a d σ := rfl
theorem exec_gstat (a : Reg) (d : Reg) (σ : State) : exec (.gstat a d) σ = execGstat a d σ := rfl
theorem exec_cAddi (r : Reg) (i : BitVec 6) (σ : State) : exec (.cAddi r i) σ = execCAddi r i σ := rfl
theorem exec_cLi (r : Reg) (i : BitVec 6) (σ : State) : exec (.cLi r i) σ = execCLi r i σ := rfl
theorem exec_cMv (r : Reg) (s : Reg) (σ : State) : exec (.cMv r s) σ = execCMv r s σ := rfl
theorem exec_cAdd (r : Reg) (s : Reg) (σ : State) : exec (.cAdd r s) σ = execCAdd r s σ := rfl
theorem exec_cSub (r : Reg) (s : Reg) (σ : State) : exec (.cSub r s) σ = execCSub r s σ := rfl
theorem exec_cAnd (r : Reg) (s : Reg) (σ : State) : exec (.cAnd r s) σ = execCAnd r s σ := rfl
theorem exec_cLd (o : BitVec 6) (a : BitVec 3) (d : BitVec 3) (σ : State) : exec (.cLd o a d) σ = execCLd o a d σ := rfl
theorem exec_cSd (o : BitVec 6) (a : BitVec 3) (s : BitVec 3) (σ : State) : exec (.cSd o a s) σ = execCSd o a s σ := rfl
theorem exec_cBeqz (a : BitVec 3) (o : BitVec 8) (σ : State) : exec (.cBeqz a o) σ = execCBeqz a o σ := rfl
theorem exec_cBnez (a : BitVec 3) (o : BitVec 8) (σ : State) : exec (.cBnez a o) σ = execCBnez a o σ := rfl
theorem exec_cJ (o : BitVec 12) (σ : State) : exec (.cJ o) σ = execCJ o σ := rfl
theorem exec_cQput (q : BitVec 3) (r : Reg) (σ : State) : exec (.cQput q r) σ = execCQput q r σ := rfl
theorem exec_cQget (q : BitVec 3) (r : Reg) (σ : State) : exec (.cQget q r) σ = execCQget q r σ := rfl
theorem exec_cNop  (σ : State) : exec .cNop σ = execCNop σ := rfl
theorem exec_cEnd  (σ : State) : exec .cEnd σ = execCEnd σ := rfl
theorem exec_cStop  (σ : State) : exec .cStop σ = execCStop σ := rfl
theorem exec_cBrk  (σ : State) : exec .cBrk σ = execCBrk σ := rfl
theorem exec_asyncTrapTake (core : Nat) (σ : State) : exec (.asyncTrapTake core) σ = execAsyncTrapTake core σ := rfl
theorem exec_tstatSave (core : Nat) (σ : State) : exec (.tstatSave core) σ = execTstatSave core σ := rfl
theorem exec_tstatRestore (core : Nat) (σ : State) : exec (.tstatRestore core) σ = execTstatRestore core σ := rfl
theorem exec_saveComplete (core : Nat) (ok : Bool) (σ : State) : exec (.saveComplete core ok) σ = execSaveComplete core ok σ := rfl
theorem exec_restoreComplete (core : Nat) (ok : Bool) (σ : State) : exec (.restoreComplete core ok) σ = execRestoreComplete core ok σ := rfl
theorem exec_parktoExpiry (core : Nat) (σ : State) : exec (.parktoExpiry core) σ = execParktoExpiry core σ := rfl
theorem exec_contextDestroyComplete (ctx : Nat) (σ : State) : exec (.contextDestroyComplete ctx) σ = execContextDestroyComplete ctx σ := rfl
theorem exec_slotTableWrite (core : Nat) (rec : BitVec 128) (σ : State) : exec (.slotTableWrite core rec) σ = execSlotTableWrite core rec σ := rfl
theorem exec_apexSchedule (core : Nat) (σ : State) : exec (.apexSchedule core) σ = execApexSchedule core σ := rfl
theorem exec_lqEnable (fn : Nat) (n : Nat) (σ : State) : exec (.lqEnable fn n) σ = execLqEnable fn n σ := rfl
theorem exec_lqDisable (fn : Nat) (n : Nat) (σ : State) : exec (.lqDisable fn n) σ = execLqDisable fn n σ := rfl
theorem exec_lqtailWrite (fn : Nat) (n : Nat) (v : BitVec 32) (σ : State) : exec (.lqtailWrite fn n v) σ = execLqtailWrite fn n v σ := rfl
theorem exec_queueSwitchIn (fn : Nat) (n : Nat) (σ : State) : exec (.queueSwitchIn fn n) σ = execQueueSwitchIn fn n σ := rfl
theorem exec_queueSwitchOut (fn : Nat) (n : Nat) (σ : State) : exec (.queueSwitchOut fn n) σ = execQueueSwitchOut fn n σ := rfl
theorem exec_entryAccept (fn : Nat) (n : Nat) (σ : State) : exec (.entryAccept fn n) σ = execEntryAccept fn n σ := rfl
theorem exec_launch (seq : Nat) (σ : State) : exec (.launch seq) σ = execLaunch seq σ := rfl
theorem exec_maproot (seq : Nat) (σ : State) : exec (.maproot seq) σ = execMaproot seq σ := rfl
theorem exec_reclaim (seq : Nat) (σ : State) : exec (.reclaim seq) σ = execReclaim seq σ := rfl
theorem exec_query (seq : Nat) (σ : State) : exec (.query seq) σ = execQuery seq σ := rfl
theorem exec_commandComplete (seq : Nat) (σ : State) : exec (.commandComplete seq) σ = execCommandComplete seq σ := rfl
theorem exec_periodBoundary  (σ : State) : exec .periodBoundary σ = execPeriodBoundary σ := rfl
theorem exec_budgetExhausted (acct : Nat) (σ : State) : exec (.budgetExhausted acct) σ = execBudgetExhausted acct σ := rfl
theorem exec_messageArrival (k : Nat) (σ : State) : exec (.messageArrival k) σ = execMessageArrival k σ := rfl
theorem exec_messageDelivery (core : Nat) (slot : Nat) (σ : State) : exec (.messageDelivery core slot) σ = execMessageDelivery core slot σ := rfl
theorem exec_actorFire (core : Nat) (σ : State) : exec (.actorFire core) σ = execActorFire core σ := rfl
theorem exec_floorPublish  (σ : State) : exec .floorPublish σ = execFloorPublish σ := rfl
theorem exec_outboxDepart (core : Nat) (σ : State) : exec (.outboxDepart core) σ = execOutboxDepart core σ := rfl
theorem exec_endOutboxDrained (core : Nat) (σ : State) : exec (.endOutboxDrained core) σ = execEndOutboxDrained core σ := rfl
theorem exec_nestJoinArrival (k : Nat) (σ : State) : exec (.nestJoinArrival k) σ = execNestJoinArrival k σ := rfl
theorem exec_nestClaimServe (ctx : Nat) (g : Nat) (σ : State) : exec (.nestClaimServe ctx g) σ = execNestClaimServe ctx g σ := rfl
theorem exec_loopGrantArrival (k : Nat) (σ : State) : exec (.loopGrantArrival k) σ = execLoopGrantArrival k σ := rfl
theorem exec_loopLeave (k : Nat) (σ : State) : exec (.loopLeave k) σ = execLoopLeave k σ := rfl
theorem exec_barrierArrival (k : Nat) (σ : State) : exec (.barrierArrival k) σ = execBarrierArrival k σ := rfl
theorem exec_barrierAbort (k : Nat) (σ : State) : exec (.barrierAbort k) σ = execBarrierAbort k σ := rfl
theorem exec_barrierNotice (k : Nat) (σ : State) : exec (.barrierNotice k) σ = execBarrierNotice k σ := rfl
theorem exec_matrixCommandStart (core : Nat) (n : Nat) (σ : State) : exec (.matrixCommandStart core n) σ = execMatrixCommandStart core n σ := rfl
theorem exec_mldbLoadDone (core : Nat) (n : Nat) (σ : State) : exec (.mldbLoadDone core n) σ = execMldbLoadDone core n σ := rfl
theorem exec_tileForwardArrival (k : Nat) (σ : State) : exec (.tileForwardArrival k) σ = execTileForwardArrival k σ := rfl
theorem exec_matrixCommandComplete (core : Nat) (n : Nat) (rows : Nat) (σ : State) : exec (.matrixCommandComplete core n rows) σ = execMatrixCommandComplete core n rows σ := rfl
theorem exec_matrixTokenPlace (core : Nat) (n : Nat) (σ : State) : exec (.matrixTokenPlace core n) σ = execMatrixTokenPlace core n σ := rfl
theorem exec_copyComplete (core : Nat) (n : Nat) (granules : Nat) (σ : State) : exec (.copyComplete core n granules) σ = execCopyComplete core n granules σ := rfl
theorem exec_journalSend (core : Nat) (n : Nat) (σ : State) : exec (.journalSend core n) σ = execJournalSend core n σ := rfl
theorem exec_journalAck (core : Nat) (n : Nat) (σ : State) : exec (.journalAck core n) σ = execJournalAck core n σ := rfl
theorem exec_journalRefusal (core : Nat) (n : Nat) (σ : State) : exec (.journalRefusal core n) σ = execJournalRefusal core n σ := rfl
theorem exec_psjeSelect (core : Nat) (v : Word) (σ : State) : exec (.psjeSelect core v) σ = execPsjeSelect core v σ := rfl
theorem exec_psjeDismiss (core : Nat) (v : Word) (σ : State) : exec (.psjeDismiss core v) σ = execPsjeDismiss core v σ := rfl
theorem exec_leaseGrant (acc : Nat) (σ : State) : exec (.leaseGrant acc) σ = execLeaseGrant acc σ := rfl
theorem exec_homeWritePerform (acc : Nat) (σ : State) : exec (.homeWritePerform acc) σ = execHomeWritePerform acc σ := rfl
theorem exec_l1LeaseExpiry (core : Nat) (line : Nat) (σ : State) : exec (.l1LeaseExpiry core line) σ = execL1LeaseExpiry core line σ := rfl
theorem exec_locusMap (n : Nat) (σ : State) : exec (.locusMap n) σ = execLocusMap n σ := rfl
theorem exec_locusGrant (n : Nat) (σ : State) : exec (.locusGrant n) σ = execLocusGrant n σ := rfl
theorem exec_locusUnmap (n : Nat) (σ : State) : exec (.locusUnmap n) σ = execLocusUnmap n σ := rfl
theorem exec_locusRelease (n : Nat) (σ : State) : exec (.locusRelease n) σ = execLocusRelease n σ := rfl
theorem exec_locusAccept (n : Nat) (σ : State) : exec (.locusAccept n) σ = execLocusAccept n σ := rfl
theorem exec_revokeCut (n : Nat) (target : Nat) (σ : State) : exec (.revokeCut n target) σ = execRevokeCut n target σ := rfl
theorem exec_shootdown (n : Nat) (core : Nat) (σ : State) : exec (.shootdown n core) σ = execShootdown n core σ := rfl
theorem exec_shootdownAck (n : Nat) (core : Nat) (σ : State) : exec (.shootdownAck n core) σ = execShootdownAck n core σ := rfl
theorem exec_locusPhaseEnd (n : Nat) (σ : State) : exec (.locusPhaseEnd n) σ = execLocusPhaseEnd n σ := rfl
theorem exec_mxuPark (acc : Nat) (σ : State) : exec (.mxuPark acc) σ = execMxuPark acc σ := rfl
theorem exec_faultRecordWrite (mxu : Nat) (σ : State) : exec (.faultRecordWrite mxu) σ = execFaultRecordWrite mxu σ := rfl
theorem exec_replay (mxu : Nat) (v : Word) (σ : State) : exec (.replay mxu v) σ = execReplay mxu v σ := rfl
theorem exec_rqtailWrite (mxu : Nat) (v : BitVec 32) (σ : State) : exec (.rqtailWrite mxu v) σ = execRqtailWrite mxu v σ := rfl
theorem exec_fill (mxu : Nat) (ok : Bool) (data : List Byte) (σ : State) : exec (.fill mxu ok data) σ = execFill mxu ok data σ := rfl
theorem exec_evict (mxu : Nat) (σ : State) : exec (.evict mxu) σ = execEvict mxu σ := rfl
theorem exec_pin (mxu : Nat) (σ : State) : exec (.pin mxu) σ = execPin mxu σ := rfl
theorem exec_unpin (mxu : Nat) (σ : State) : exec (.unpin mxu) σ = execUnpin mxu σ := rfl
theorem exec_evictCopyoutDone (mxu : Nat) (ok : Bool) (σ : State) : exec (.evictCopyoutDone mxu ok) σ = execEvictCopyoutDone mxu ok σ := rfl
theorem exec_mxstatRead (mxu : Nat) (σ : State) : exec (.mxstatRead mxu) σ = execMxstatRead mxu σ := rfl
theorem exec_fgbWrite (acct : Nat) (v : Word) (σ : State) : exec (.fgbWrite acct v) σ = execFgbWrite acct v σ := rfl
theorem exec_translationCompletion (page : Nat × Nat × Nat) (pa : Nat) (len : Nat) (rd : Bool) (wr : Bool) (σ : State) : exec (.translationCompletion page pa len rd wr) σ = execTranslationCompletion page pa len rd wr σ := rfl
theorem exec_prgResponse (page : Nat × Nat × Nat) (code : Nat) (σ : State) : exec (.prgResponse page code) σ = execPrgResponse page code σ := rfl
theorem exec_atsInvalidationRequest (rid : Nat) (pasid : Nat) (base : Nat) (len : Nat) (σ : State) : exec (.atsInvalidationRequest rid pasid base len) σ = execAtsInvalidationRequest rid pasid base len σ := rfl
theorem exec_invalidationCompletion  (σ : State) : exec .invalidationCompletion σ = execInvalidationCompletion σ := rfl
theorem exec_errorCorrected (site : ErrSite) (σ : State) : exec (.errorCorrected site) σ = execErrorCorrected site σ := rfl
theorem exec_errorUncorrectable (site : ErrSite) (σ : State) : exec (.errorUncorrectable site) σ = execErrorUncorrectable site σ := rfl
theorem exec_memoryScrub (frame : Nat) (σ : State) : exec (.memoryScrub frame) σ = execMemoryScrub frame σ := rfl
theorem exec_relayoutGo (n : Nat) (v : Word) (σ : State) : exec (.relayoutGo n v) σ = execRelayoutGo n v σ := rfl
theorem exec_relayoutRun (n : Nat) (σ : State) : exec (.relayoutRun n) σ = execRelayoutRun n σ := rfl
theorem exec_intervalClose (core : Nat) (σ : State) : exec (.intervalClose core) σ = execIntervalClose core σ := rfl
theorem exec_fingerprintAgree (core : Nat) (σ : State) : exec (.fingerprintAgree core) σ = execFingerprintAgree core σ := rfl
theorem exec_fingerprintDisagree (core : Nat) (σ : State) : exec (.fingerprintDisagree core) σ = execFingerprintDisagree core σ := rfl
theorem exec_tiebreakResult (core : Nat) (agrees : Nat) (σ : State) : exec (.tiebreakResult core agrees) σ = execTiebreakResult core agrees σ := rfl
theorem exec_pairCloseTimeout (core : Nat) (σ : State) : exec (.pairCloseTimeout core) σ = execPairCloseTimeout core σ := rfl
theorem exec_wcfgConf (vf : Nat) (tdi : Nat) (σ : State) : exec (.wcfgConf vf tdi) σ = execWcfgConf vf tdi σ := rfl
theorem exec_wcfgRetire (vf : Nat) (σ : State) : exec (.wcfgRetire vf) σ = execWcfgRetire vf σ := rfl
theorem exec_keySet (vf : Nat) (comp : Nat) (key : List Byte) (σ : State) : exec (.keySet vf comp key) σ = execKeySet vf comp key σ := rfl
theorem exec_keyRevoke (vf : Nat) (comp : Nat) (σ : State) : exec (.keyRevoke vf comp) σ = execKeyRevoke vf comp σ := rfl
theorem exec_tdiError (vf : Nat) (σ : State) : exec (.tdiError vf) σ = execTdiError vf σ := rfl
theorem exec_functionLevelReset (vf : Nat) (σ : State) : exec (.functionLevelReset vf) σ = execFunctionLevelReset vf σ := rfl
theorem exec_worldRetireComplete (vf : Nat) (σ : State) : exec (.worldRetireComplete vf) σ = execWorldRetireComplete vf σ := rfl
theorem exec_cxlMemRequest (write : Bool) (tbit : Bool) (stream : Nat) (hpa : Nat) (data : List Byte) (σ : State) : exec (.cxlMemRequest write tbit stream hpa data) σ = execCxlMemRequest write tbit stream hpa data σ := rfl
theorem exec_cxlH2dSnoop (line : Nat) (σ : State) : exec (.cxlH2dSnoop line) σ = execCxlH2dSnoop line σ := rfl
theorem exec_ideKeySwitch (stream : Nat) (σ : State) : exec (.ideKeySwitch stream) σ = execIdeKeySwitch stream σ := rfl
theorem exec_hostLinkUp (width : Nat) (σ : State) : exec (.hostLinkUp width) σ = execHostLinkUp width σ := rfl
theorem exec_hostLinkRecovery  (σ : State) : exec .hostLinkRecovery σ = execHostLinkRecovery σ := rfl
theorem exec_hostLinkDown  (σ : State) : exec .hostLinkDown σ = execHostLinkDown σ := rfl
theorem exec_skonovPortEnable (p : Nat) (σ : State) : exec (.skonovPortEnable p) σ = execSkonovPortEnable p σ := rfl
theorem exec_skonovPortDisable (p : Nat) (σ : State) : exec (.skonovPortDisable p) σ = execSkonovPortDisable p σ := rfl
theorem exec_skonovRetrain (p : Nat) (σ : State) : exec (.skonovRetrain p) σ = execSkonovRetrain p σ := rfl
theorem exec_portTrained (p : Nat) (lanes : Nat) (σ : State) : exec (.portTrained p lanes) σ = execPortTrained p lanes σ := rfl
theorem exec_portTrainingTimeout (p : Nat) (σ : State) : exec (.portTrainingTimeout p) σ = execPortTrainingTimeout p σ := rfl
theorem exec_laneFailure (p : Nat) (lane : Nat) (σ : State) : exec (.laneFailure p lane) σ = execLaneFailure p lane σ := rfl
theorem exec_retrainComplete (p : Nat) (σ : State) : exec (.retrainComplete p) σ = execRetrainComplete p σ := rfl
theorem exec_flitReceive (p : Nat) (flit : List Byte) (σ : State) : exec (.flitReceive p flit) σ = execFlitReceive p flit σ := rfl
theorem exec_flitNak (p : Nat) (expected : Nat) (σ : State) : exec (.flitNak p expected) σ = execFlitNak p expected σ := rfl
theorem exec_proxyGrant (line : Nat) (st : Nat) (num : Nat) (data : List Byte) (σ : State) : exec (.proxyGrant line st num data) σ = execProxyGrant line st num data σ := rfl
theorem exec_proxyInvalidation (line : Nat) (num : Nat) (σ : State) : exec (.proxyInvalidation line num) σ = execProxyInvalidation line num σ := rfl
theorem exec_directoryRecall (line : Nat) (inv : Bool) (σ : State) : exec (.directoryRecall line inv) σ = execDirectoryRecall line inv σ := rfl
theorem exec_moduleFailed (module : Nat) (σ : State) : exec (.moduleFailed module) σ = execModuleFailed module σ := rfl
theorem exec_orphrel  (σ : State) : exec .orphrel σ = execOrphrel σ := rfl
theorem exec_quiesce  (σ : State) : exec .quiesce σ = execQuiesce σ := rfl
theorem exec_quiesceComplete  (σ : State) : exec .quiesceComplete σ = execQuiesceComplete σ := rfl
theorem exec_fabricArrival (p : Nat) (rctx : Nat) (x : Nat) (y : Nat) (header : List Byte) (payload : List Byte) (σ : State) : exec (.fabricArrival p rctx x y header payload) σ = execFabricArrival p rctx x y header payload σ := rfl
theorem exec_sessionOpen (v : Word) (σ : State) : exec (.sessionOpen v) σ = execSessionOpen v σ := rfl
theorem exec_sessionClose (σ : State) : exec .sessionClose σ = execSessionClose σ := rfl
theorem exec_dbgStop (σ : State) : exec .dbgStop σ = execDbgStop σ := rfl
theorem exec_dbgResume (v : Word) (σ : State) : exec (.dbgResume v) σ = execDbgResume v σ := rfl
theorem exec_dbgStep (v : Word) (σ : State) : exec (.dbgStep v) σ = execDbgStep v σ := rfl
theorem exec_freezeComplete  (σ : State) : exec .freezeComplete σ = execFreezeComplete σ := rfl
theorem exec_stopTimeout  (σ : State) : exec .stopTimeout σ = execStopTimeout σ := rfl
theorem exec_stepComplete  (σ : State) : exec .stepComplete σ = execStepComplete σ := rfl
theorem exec_stepTimeout  (σ : State) : exec .stepTimeout σ = execStepTimeout σ := rfl
theorem exec_comparatorConfig (n : Nat) (v : Word) (σ : State) : exec (.comparatorConfig n v) σ = execComparatorConfig n v σ := rfl
theorem exec_traceSample (core : Nat) (σ : State) : exec (.traceSample core) σ = execTraceSample core σ := rfl
theorem exec_counterSelect (fn : Nat) (v : Word) (σ : State) : exec (.counterSelect fn v) σ = execCounterSelect fn v σ := rfl
theorem exec_replayInject (fn : Nat) (σ : State) : exec (.replayInject fn) σ = execReplayInject fn σ := rfl
theorem exec_freezeAssert  (σ : State) : exec .freezeAssert σ = execFreezeAssert σ := rfl
theorem exec_freezeRelease (fabricTime : Nat) (σ : State) : exec (.freezeRelease fabricTime) σ = execFreezeRelease fabricTime σ := rfl
theorem exec_scanRead (orphan : Bool) (la : Nat) (σ : State) : exec (.scanRead orphan la) σ = execScanRead orphan la σ := rfl
theorem exec_deviceReset (passed : List Nat) (trained : Bool) (images : List BootImage) (σ : State) : exec (.deviceReset passed trained images) σ = execDeviceReset passed trained images σ := rfl
theorem exec_pcapwWrite (v : Word) (σ : State) : exec (.pcapwWrite v) σ = execPcapwWrite v σ := rfl
theorem exec_pcapwinWrite (v : Word) (σ : State) : exec (.pcapwinWrite v) σ = execPcapwinWrite v σ := rfl
theorem exec_powerSample (watts : Nat) (σ : State) : exec (.powerSample watts) σ = execPowerSample watts σ := rfl
theorem exec_powerAdjust (gate : Nat) (σ : State) : exec (.powerAdjust gate) σ = execPowerAdjust gate σ := rfl
theorem exec_powerWindowEnd (avg : Nat) (σ : State) : exec (.powerWindowEnd avg) σ = execPowerWindowEnd avg σ := rfl
theorem exec_thermRead  (σ : State) : exec .thermRead σ = execThermRead σ := rfl
theorem exec_thermalThrottle (t0 : Nat) (t1 : Nat) (gate : Nat) (σ : State) : exec (.thermalThrottle t0 t1 gate) σ = execThermalThrottle t0 t1 gate σ := rfl
theorem exec_thermalFreeze (t0 : Nat) (t1 : Nat) (σ : State) : exec (.thermalFreeze t0 t1) σ = execThermalFreeze t0 t1 σ := rfl
theorem exec_thermalTrip (t0 : Nat) (t1 : Nat) (σ : State) : exec (.thermalTrip t0 t1) σ = execThermalTrip t0 t1 σ := rfl
theorem exec_thermalRecover (t0 : Nat) (t1 : Nat) (σ : State) : exec (.thermalRecover t0 t1) σ = execThermalRecover t0 t1 σ := rfl
theorem exec_errorRecordWrite  (σ : State) : exec .errorRecordWrite σ = execErrorRecordWrite σ := rfl
theorem exec_registerWrite (fn : Nat) (bar : Nat) (off : Nat) (v : Word) (σ : State) : exec (.registerWrite fn bar off v) σ = execRegisterWrite fn bar off v σ := rfl
theorem exec_unassignedEncoding (w : BitVec 32) (σ : State) : exec (.unassignedEncoding w) σ = execUnassignedEncoding w σ := rfl
theorem exec_accessReachesTarget (acc : Nat) (ok : Bool) (σ : State) : exec (.accessReachesTarget acc ok) σ = execAccessReachesTarget acc ok σ := rfl
theorem exec_nonPostedCompletion (acc : Nat) (ok : Bool) (data : List Byte) (σ : State) : exec (.nonPostedCompletion acc ok data) σ = execNonPostedCompletion acc ok data σ := rfl
theorem exec_birspArrival (line : Nat) (σ : State) : exec (.birspArrival line) σ = execBirspArrival line σ := rfl
theorem exec_pcieCompletionTimeout (acc : Nat) (σ : State) : exec (.pcieCompletionTimeout acc) σ = execPcieCompletionTimeout acc σ := rfl
theorem exec_priEnableWrite (fn : Nat) (σ : State) : exec (.priEnableWrite fn) σ = execPriEnableWrite fn σ := rfl

end Sys2Proof.Machine
end

