-- ==== Sys2Proof/Laws/Maps.lean ====
section
/-! SUPPORT. What reading a sparse table after a change gives, and that every change keeps the canonical form. -/
namespace Sys2Proof.Machine.SMap

variable {α : Type}

/-! ## Reading after a change; these hold of every list, canonical or not -/

theorem find?_del (m : SMap α) (k j : Nat) : find? (del m k) j = if j = k then none else find? m j := by
  induction m with
  | nil => simp [del, find?]
  | cons p t ih =>
    obtain ⟨a, v⟩ := p
    by_cases h : a = k
    · subst h
      by_cases hj : j = a
      · subst hj; simp [del, ih]
      · simp [del, ih, find?, hj, Ne.symm hj]
    · by_cases hj : a = j
      · subst hj; simp [del, find?, h]
      · simp [del, find?, h, hj, ih]

theorem find?_ins (m : SMap α) (k j : Nat) (v : α) (h : find? m k = none) :
    find? (ins m k v) j = if j = k then some v else find? m j := by
  induction m with
  | nil => by_cases hj : k = j <;> simp [ins, find?, hj, eq_comm]
  | cons p t ih =>
    obtain ⟨a, u⟩ := p
    have ha : a ≠ k := by rintro rfl; simp [find?] at h
    have ht : find? t k = none := by simpa [find?, ha] using h
    by_cases hlt : k < a
    · by_cases hj : j = k
      · subst hj; simp [ins, hlt, find?]
      · simp [ins, hlt, find?, hj, Ne.symm hj]
    · by_cases hj : a = j
      · subst hj; simp [ins, hlt, find?, ha]
      · simp [ins, hlt, find?, hj, ih ht]

theorem find?_put (m : SMap α) (k j : Nat) (v : α) : find? (put m k v) j = if j = k then some v else find? m j := by
  rw [put, find?_ins _ _ _ _ (by simp [find?_del]), find?_del]
  split <;> simp_all

theorem get_put (d : α) (m : SMap α) (k j : Nat) (v : α) : get d (put m k v) j = if j = k then v else get d m j := by
  unfold get; rw [find?_put]; split <;> rfl

theorem get_del (d : α) (m : SMap α) (k j : Nat) : get d (del m k) j = if j = k then d else get d m j := by
  unfold get; rw [find?_del]; split <;> rfl

/-- Reading after a write: the value written at its key, the old value elsewhere. -/
theorem get_set [DecidableEq α] (d : α) (m : SMap α) (k j : Nat) (v : α) :
    get d (set d m k v) j = if j = k then v else get d m j := by
  unfold set
  split
  · subst v; exact get_del _ _ _ _
  · exact get_put _ _ _ _ _

@[simp] theorem get_set_same [DecidableEq α] (d : α) (m : SMap α) (k : Nat) (v : α) : get d (set d m k v) k = v := by
  simp [get_set]

theorem get_set_ne [DecidableEq α] (d : α) (m : SMap α) {k j : Nat} (v : α) (h : j ≠ k) :
    get d (set d m k v) j = get d m j := by simp [get_set, h]

theorem get_set_other [DecidableEq α] (d e : α) (m : SMap α) (v : α) {k j : Nat} (h : j ≠ k) : get e (set d m k v) j = get e m j := by
  unfold get set
  split
  · rw [find?_del, if_neg h]
  · rw [find?_put, if_neg h]

@[simp] theorem get_nil (d : α) (k : Nat) : get d ([] : SMap α) k = d := rfl

theorem del_del (m : SMap α) (k : Nat) : del (del m k) k = del m k := by
  induction m with
  | nil => rfl
  | cons p t ih =>
    obtain ⟨a, v⟩ := p
    by_cases h : a = k <;> simp [del, h, ih]

theorem del_ins (m : SMap α) (k : Nat) (v : α) : del (ins m k v) k = del m k := by
  induction m with
  | nil => simp [ins, del]
  | cons p t ih =>
    obtain ⟨a, u⟩ := p
    by_cases hlt : k < a
    · simp [ins, hlt, del]
    · by_cases h : a = k
      · subst h; simp [ins, del, ih]
      · simp [ins, hlt, del, h, ih]

/-- The later of two writes of one key stands. -/
@[simp] theorem set_set [DecidableEq α] (d : α) (m : SMap α) (k : Nat) (v w : α) : set d (set d m k v) k w = set d m k w := by
  have h : del (set d m k v) k = del m k := by
    unfold set put; split
    · exact del_del _ _
    · rw [del_ins, del_del]
  unfold set put at *
  split <;> simp_all

/-! ## The canonical form -/

/-- Every key of the table is above `k`. -/
def above (k : Nat) (m : SMap α) : Prop := ∀ p ∈ m, k < p.1

theorem sorted_cons (a : Nat) (v : α) (t : SMap α) : sorted ((a, v) :: t) = true ↔ above a t ∧ sorted t = true := by
  induction t generalizing a v with
  | nil => simp [sorted, above]
  | cons p t ih =>
    obtain ⟨b, u⟩ := p
    rw [sorted, Bool.and_eq_true, decide_eq_true_eq, ih]
    constructor
    · rintro ⟨hab, hb, ht⟩
      refine ⟨fun q hq => ?_, hb, ht⟩
      rcases List.mem_cons.1 hq with rfl | hq
      · exact hab
      · exact Nat.lt_trans hab (hb q hq)
    · rintro ⟨ha, hb, ht⟩
      exact ⟨ha (b, u) (by simp), hb, ht⟩

theorem mem_del {m : SMap α} {k : Nat} {p : Nat × α} (h : p ∈ del m k) : p ∈ m := by
  induction m with
  | nil => exact h
  | cons q t ih =>
    obtain ⟨a, v⟩ := q
    by_cases ha : a = k
    · simp only [del, ha, if_true] at h; exact List.mem_cons_of_mem _ (ih h)
    · simp only [del, ha, if_false, List.mem_cons] at h
      rcases h with rfl | h
      · simp
      · exact List.mem_cons_of_mem _ (ih h)

theorem mem_ins {m : SMap α} {k : Nat} {v : α} {p : Nat × α} (h : p ∈ ins m k v) : p = (k, v) ∨ p ∈ m := by
  induction m with
  | nil => simpa [ins] using h
  | cons q t ih =>
    obtain ⟨a, u⟩ := q
    by_cases hlt : k < a
    · simpa [ins, hlt] using h
    · simp only [ins, hlt, if_false, List.mem_cons] at h
      rcases h with rfl | h
      · simp
      · rcases ih h with rfl | h
        · simp
        · simp [h]

theorem sorted_del {m : SMap α} (k : Nat) (h : sorted m = true) : sorted (del m k) = true := by
  induction m with
  | nil => rfl
  | cons p t ih =>
    obtain ⟨a, v⟩ := p
    obtain ⟨ha, ht⟩ := (sorted_cons a v t).1 h
    by_cases hk : a = k
    · simpa [del, hk] using ih ht
    · simp only [del, hk, if_false]
      exact (sorted_cons _ _ _).2 ⟨fun q hq => ha q (mem_del hq), ih ht⟩

theorem sorted_ins {m : SMap α} (k : Nat) (v : α) (h : sorted m = true) (hk : ∀ p ∈ m, p.1 ≠ k) : sorted (ins m k v) = true := by
  induction m with
  | nil => rfl
  | cons p t ih =>
    obtain ⟨a, u⟩ := p
    obtain ⟨ha, ht⟩ := (sorted_cons a u t).1 h
    by_cases hlt : k < a
    · simp only [ins, hlt, if_true]
      exact (sorted_cons _ _ _).2 ⟨fun q hq => by
        rcases List.mem_cons.1 hq with rfl | hq
        · exact hlt
        · exact Nat.lt_trans hlt (ha q hq), h⟩
    · simp only [ins, hlt, if_false]
      have hak : a < k := Nat.lt_of_le_of_ne (Nat.not_lt.1 hlt) (hk (a, u) (by simp))
      refine (sorted_cons _ _ _).2 ⟨fun q hq => ?_, ih ht fun p hp => hk p (by simp [hp])⟩
      rcases mem_ins hq with rfl | hq
      · exact hak
      · exact ha q hq

theorem key_del {m : SMap α} {k : Nat} {p : Nat × α} (h : p ∈ del m k) : p.1 ≠ k := by
  induction m with
  | nil => simp [del] at h
  | cons q t ih =>
    obtain ⟨a, v⟩ := q
    by_cases ha : a = k
    · simp only [del, ha, if_true] at h; exact ih h
    · simp only [del, ha, if_false, List.mem_cons] at h
      rcases h with rfl | h
      · exact ha
      · exact ih h

@[simp] theorem wf_nil [DecidableEq α] (d : α) : wf d [] = true := rfl

theorem wf_del [DecidableEq α] {d : α} {m : SMap α} (k : Nat) (h : wf d m = true) : wf d (del m k) = true := by
  simp only [wf, Bool.and_eq_true, List.all_eq_true] at *
  exact ⟨sorted_del k h.1, fun p hp => h.2 p (mem_del hp)⟩

theorem wf_put [DecidableEq α] {d : α} {m : SMap α} (k : Nat) {v : α} (hv : v ≠ d) (h : wf d m = true) :
    wf d (put m k v) = true := by
  simp only [wf, Bool.and_eq_true, List.all_eq_true] at *
  refine ⟨sorted_ins k v (sorted_del k h.1) fun p hp => key_del hp, fun p hp => ?_⟩
  rcases mem_ins hp with rfl | hp
  · simpa using hv
  · exact h.2 p (mem_del hp)

/-- A write keeps the canonical form. -/
theorem wf_set [DecidableEq α] {d : α} {m : SMap α} (k : Nat) (v : α) (h : wf d m = true) : wf d (set d m k v) = true := by
  unfold set
  split
  · exact wf_del k h
  · exact wf_put k ‹_› h

theorem sorted_filter {m : SMap α} (p : Nat × α → Bool) (h : sorted m = true) : sorted (m.filter p) = true := by
  induction m with
  | nil => rfl
  | cons q t ih =>
    obtain ⟨a, v⟩ := q
    obtain ⟨ha, ht⟩ := (sorted_cons a v t).1 h
    by_cases hp : p (a, v)
    · rw [List.filter_cons_of_pos hp]
      exact (sorted_cons _ _ _).2 ⟨fun q hq => ha q (List.mem_filter.1 hq).1, ih ht⟩
    · rw [List.filter_cons_of_neg hp]; exact ih ht

/-- So does leaving entries out. -/
theorem wf_filter [DecidableEq α] {d : α} {m : SMap α} (p : Nat × α → Bool) (h : wf d m = true) : wf d (m.filter p) = true := by
  simp only [wf, Bool.and_eq_true, List.all_eq_true] at *
  exact ⟨sorted_filter p h.1, fun q hq => h.2 q (List.mem_filter.1 hq).1⟩

theorem above_ofFn [DecidableEq α] (d : α) (f : Nat → α) (lo n k : Nat) (h : k < lo) : above k (ofFn d f lo n) := by
  induction n generalizing lo with
  | zero => intro p hp; simp [ofFn] at hp
  | succ n ih =>
    intro p hp
    unfold ofFn at hp
    split at hp
    · exact ih (lo + 1) (by omega) p hp
    · rcases List.mem_cons.1 hp with rfl | hp
      · exact h
      · exact ih (lo + 1) (by omega) p hp

/-- A table built from a function is canonical. -/
theorem wf_ofFn [DecidableEq α] (d : α) (f : Nat → α) (lo n : Nat) : wf d (ofFn d f lo n) = true := by
  induction n generalizing lo with
  | zero => rfl
  | succ n ih =>
    unfold ofFn
    split
    · exact ih _
    · have := ih (lo + 1)
      simp only [wf, Bool.and_eq_true, List.all_eq_true] at *
      refine ⟨(sorted_cons _ _ _).2 ⟨above_ofFn _ _ _ _ _ (by omega), this.1⟩, fun p hp => ?_⟩
      rcases List.mem_cons.1 hp with rfl | hp
      · simpa using ‹_›
      · exact this.2 p hp

theorem find?_of_above {m : SMap α} {k : Nat} (h : above k m) : find? m k = none := by
  induction m with
  | nil => rfl
  | cons p t ih =>
    obtain ⟨a, v⟩ := p
    have ha : k < a := h (a, v) (by simp)
    have ht : above k t := fun q hq => h q (by simp [hq])
    simp [find?, Nat.ne_of_gt ha, ih ht]

/-- Equal readings, equal tables: two canonical tables that read alike are the same list. -/
theorem wf_ext [DecidableEq α] {d : α} {m n : SMap α} (hm : wf d m = true) (hn : wf d n = true)
    (h : ∀ k, get d m k = get d n k) : m = n := by
  simp only [wf, Bool.and_eq_true, List.all_eq_true, decide_eq_true_eq] at hm hn
  obtain ⟨hm1, hm2⟩ := hm
  obtain ⟨hn1, hn2⟩ := hn
  induction m generalizing n with
  | nil =>
    cases n with
    | nil => rfl
    | cons q u =>
      obtain ⟨b, w⟩ := q
      have := h b
      simp only [get, find?, if_true, Option.getD_some, Option.getD_none] at this
      exact absurd this.symm (hn2 (b, w) (by simp))
  | cons p t ih =>
    obtain ⟨a, v⟩ := p
    obtain ⟨ha, ht⟩ := (sorted_cons a v t).1 hm1
    cases n with
    | nil =>
      have := h a
      simp only [get, find?, if_true, Option.getD_some, Option.getD_none] at this
      exact absurd this (hm2 (a, v) (by simp))
    | cons q u =>
      obtain ⟨b, w⟩ := q
      obtain ⟨hb, hu⟩ := (sorted_cons b w u).1 hn1
      have hab : a = b := by
        rcases Nat.lt_trichotomy a b with hlt | rfl | hlt
        · have := h a
          have hx : find? ((b, w) :: u) a = none :=
            find?_of_above fun q hq => by
              rcases List.mem_cons.1 hq with rfl | hq
              · exact hlt
              · exact Nat.lt_trans hlt (hb q hq)
          simp only [get, hx] at this
          simp only [find?, if_true, Option.getD_some, Option.getD_none] at this
          exact absurd this (hm2 (a, v) (by simp))
        · rfl
        · have := h b
          have hx : find? ((a, v) :: t) b = none :=
            find?_of_above fun q hq => by
              rcases List.mem_cons.1 hq with rfl | hq
              · exact hlt
              · exact Nat.lt_trans hlt (ha q hq)
          simp only [get, hx] at this
          simp only [find?, if_true, Option.getD_some, Option.getD_none] at this
          exact absurd this.symm (hn2 (b, w) (by simp))
      subst hab
      have hv : v = w := by simpa [get, find?] using h a
      subst hv
      congr 1
      refine ih (fun k => ?_) ht (fun p hp => hm2 p (by simp [hp])) hu fun p hp => hn2 p (by simp [hp])
      by_cases hk : a = k
      · subst hk; simp [get, find?_of_above ha, find?_of_above hb]
      · simpa [get, find?, hk] using h k

end Sys2Proof.Machine.SMap
end

