-- ==== Sys2Proof/Laws/State.lean ====
section
/-! SUPPORT. One lemma per field per named update of the state, and what the parts of the state read as after an update. -/
namespace Sys2Proof.Machine

/-! ## What an update leaves -/

@[simp] theorem State.setCore_focus (s : State) (c : Nat) (k : Core) : (s.setCore c k).focus = s.focus := rfl
@[simp] theorem State.setCore_agenda (s : State) (c : Nat) (k : Core) : (s.setCore c k).agenda = s.agenda := rfl
@[simp] theorem State.setCore_nextFree (s : State) (c : Nat) (k : Core) : (s.setCore c k).nextFree = s.nextFree := rfl
@[simp] theorem State.setCore_ptime (s : State) (c : Nat) (k : Core) : (s.setCore c k).ptime = s.ptime := rfl
@[simp] theorem State.setCore_floor (s : State) (c : Nat) (k : Core) : (s.setCore c k).floor = s.floor := rfl
@[simp] theorem State.setCore_binds (s : State) (c : Nat) (k : Core) : (s.setCore c k).binds = s.binds := rfl
@[simp] theorem State.setCore_ctxs (s : State) (c : Nat) (k : Core) : (s.setCore c k).ctxs = s.ctxs := rfl
@[simp] theorem State.setCore_mem (s : State) (c : Nat) (k : Core) : (s.setCore c k).mem = s.mem := rfl
@[simp] theorem State.setCore_dram (s : State) (c : Nat) (k : Core) : (s.setCore c k).dram = s.dram := rfl
@[simp] theorem State.setCore_host (s : State) (c : Nat) (k : Core) : (s.setCore c k).host = s.host := rfl
@[simp] theorem State.setCore_hmem (s : State) (c : Nat) (k : Core) : (s.setCore c k).hmem = s.hmem := rfl
@[simp] theorem State.setCore_poison (s : State) (c : Nat) (k : Core) : (s.setCore c k).poison = s.poison := rfl
@[simp] theorem State.setCore_dpoison (s : State) (c : Nat) (k : Core) : (s.setCore c k).dpoison = s.dpoison := rfl
@[simp] theorem State.setCore_full (s : State) (c : Nat) (k : Core) : (s.setCore c k).full = s.full := rfl
@[simp] theorem State.setCore_dirty (s : State) (c : Nat) (k : Core) : (s.setCore c k).dirty = s.dirty := rfl
@[simp] theorem State.setCore_l2 (s : State) (c : Nat) (k : Core) : (s.setCore c k).l2 = s.l2 := rfl
@[simp] theorem State.setCore_leases (s : State) (c : Nat) (k : Core) : (s.setCore c k).leases = s.leases := rfl
@[simp] theorem State.setCore_frames (s : State) (c : Nat) (k : Core) : (s.setCore c k).frames = s.frames := rfl
@[simp] theorem State.setCore_resv (s : State) (c : Nat) (k : Core) : (s.setCore c k).resv = s.resv := rfl
@[simp] theorem State.setCore_cells (s : State) (c : Nat) (k : Core) : (s.setCore c k).cells = s.cells := rfl
@[simp] theorem State.setCore_used (s : State) (c : Nat) (k : Core) : (s.setCore c k).used = s.used := rfl
@[simp] theorem State.setCore_pinnedCnt (s : State) (c : Nat) (k : Core) : (s.setCore c k).pinnedCnt = s.pinnedCnt := rfl
@[simp] theorem State.setCore_accs (s : State) (c : Nat) (k : Core) : (s.setCore c k).accs = s.accs := rfl
@[simp] theorem State.setCore_nextAcc (s : State) (c : Nat) (k : Core) : (s.setCore c k).nextAcc = s.nextAcc := rfl
@[simp] theorem State.setCore_arrivals (s : State) (c : Nat) (k : Core) : (s.setCore c k).arrivals = s.arrivals := rfl
@[simp] theorem State.setCore_parks (s : State) (c : Nat) (k : Core) : (s.setCore c k).parks = s.parks := rfl
@[simp] theorem State.setCore_wakes (s : State) (c : Nat) (k : Core) : (s.setCore c k).wakes = s.wakes := rfl
@[simp] theorem State.setCore_mxus (s : State) (c : Nat) (k : Core) : (s.setCore c k).mxus = s.mxus := rfl
@[simp] theorem State.setCore_atc (s : State) (c : Nat) (k : Core) : (s.setCore c k).atc = s.atc := rfl
@[simp] theorem State.setCore_treqs (s : State) (c : Nat) (k : Core) : (s.setCore c k).treqs = s.treqs := rfl
@[simp] theorem State.setCore_preqs (s : State) (c : Nat) (k : Core) : (s.setCore c k).preqs = s.preqs := rfl
@[simp] theorem State.setCore_invals (s : State) (c : Nat) (k : Core) : (s.setCore c k).invals = s.invals := rfl
@[simp] theorem State.setCore_caps (s : State) (c : Nat) (k : Core) : (s.setCore c k).caps = s.caps := rfl
@[simp] theorem State.setCore_net (s : State) (c : Nat) (k : Core) : (s.setCore c k).net = s.net := rfl
@[simp] theorem State.setCore_nodes (s : State) (c : Nat) (k : Core) : (s.setCore c k).nodes = s.nodes := rfl
@[simp] theorem State.setCore_loci (s : State) (c : Nat) (k : Core) : (s.setCore c k).loci = s.loci := rfl
@[simp] theorem State.setCore_reqs (s : State) (c : Nat) (k : Core) : (s.setCore c k).reqs = s.reqs := rfl
@[simp] theorem State.setCore_nextReq (s : State) (c : Nat) (k : Core) : (s.setCore c k).nextReq = s.nextReq := rfl
@[simp] theorem State.setCore_regs (s : State) (c : Nat) (k : Core) : (s.setCore c k).regs = s.regs := rfl
@[simp] theorem State.setCore_lqs (s : State) (c : Nat) (k : Core) : (s.setCore c k).lqs = s.lqs := rfl
@[simp] theorem State.setCore_journal (s : State) (c : Nat) (k : Core) : (s.setCore c k).journal = s.journal := rfl
@[simp] theorem State.setCore_jnext (s : State) (c : Nat) (k : Core) : (s.setCore c k).jnext = s.jnext := rfl
@[simp] theorem State.setCore_slotTab (s : State) (c : Nat) (k : Core) : (s.setCore c k).slotTab = s.slotTab := rfl
@[simp] theorem State.setCore_areas (s : State) (c : Nat) (k : Core) : (s.setCore c k).areas = s.areas := rfl
@[simp] theorem State.setCore_accounts (s : State) (c : Nat) (k : Core) : (s.setCore c k).accounts = s.accounts := rfl
@[simp] theorem State.setCore_period (s : State) (c : Nat) (k : Core) : (s.setCore c k).period = s.period := rfl
@[simp] theorem State.setCore_activity (s : State) (c : Nat) (k : Core) : (s.setCore c k).activity = s.activity := rfl
@[simp] theorem State.setCore_worlds (s : State) (c : Nat) (k : Core) : (s.setCore c k).worlds = s.worlds := rfl
@[simp] theorem State.setCore_keys (s : State) (c : Nat) (k : Core) : (s.setCore c k).keys = s.keys := rfl
@[simp] theorem State.setCore_hostPort (s : State) (c : Nat) (k : Core) : (s.setCore c k).hostPort = s.hostPort := rfl
@[simp] theorem State.setCore_ports (s : State) (c : Nat) (k : Core) : (s.setCore c k).ports = s.ports := rfl
@[simp] theorem State.setCore_proxies (s : State) (c : Nat) (k : Core) : (s.setCore c k).proxies = s.proxies := rfl
@[simp] theorem State.setCore_remote (s : State) (c : Nat) (k : Core) : (s.setCore c k).remote = s.remote := rfl
@[simp] theorem State.setCore_remoteInv (s : State) (c : Nat) (k : Core) : (s.setCore c k).remoteInv = s.remoteInv := rfl
@[simp] theorem State.setCore_failedMods (s : State) (c : Nat) (k : Core) : (s.setCore c k).failedMods = s.failedMods := rfl
@[simp] theorem State.setCore_msi (s : State) (c : Nat) (k : Core) : (s.setCore c k).msi = s.msi := rfl
@[simp] theorem State.setCore_ctxErrs (s : State) (c : Nat) (k : Core) : (s.setCore c k).ctxErrs = s.ctxErrs := rfl
@[simp] theorem State.setCore_errWait (s : State) (c : Nat) (k : Core) : (s.setCore c k).errWait = s.errWait := rfl
@[simp] theorem State.setCore_sent (s : State) (c : Nat) (k : Core) : (s.setCore c k).sent = s.sent := rfl
@[simp] theorem State.setCore_dbg (s : State) (c : Nat) (k : Core) : (s.setCore c k).dbg = s.dbg := rfl
@[simp] theorem State.setCore_scan (s : State) (c : Nat) (k : Core) : (s.setCore c k).scan = s.scan := rfl
@[simp] theorem State.setCore_power (s : State) (c : Nat) (k : Core) : (s.setCore c k).power = s.power := rfl
@[simp] theorem State.setCore_freeze (s : State) (c : Nat) (k : Core) : (s.setCore c k).freeze = s.freeze := rfl
@[simp] theorem State.setCore_powered (s : State) (c : Nat) (k : Core) : (s.setCore c k).powered = s.powered := rfl
@[simp] theorem State.setCore_tripped (s : State) (c : Nat) (k : Core) : (s.setCore c k).tripped = s.tripped := rfl
@[simp] theorem State.setCore_coreMap (s : State) (c : Nat) (k : Core) : (s.setCore c k).coreMap = s.coreMap := rfl
@[simp] theorem State.setCore_spares (s : State) (c : Nat) (k : Core) : (s.setCore c k).spares = s.spares := rfl
@[simp] theorem State.setCore_quarSites (s : State) (c : Nat) (k : Core) : (s.setCore c k).quarSites = s.quarSites := rfl
@[simp] theorem State.setCore_cxlOut (s : State) (c : Nat) (k : Core) : (s.setCore c k).cxlOut = s.cxlOut := rfl
@[simp] theorem State.setCore_traceLost (s : State) (c : Nat) (k : Core) : (s.setCore c k).traceLost = s.traceLost := rfl
@[simp] theorem State.setCore_logWait (s : State) (c : Nat) (k : Core) : (s.setCore c k).logWait = s.logWait := rfl
@[simp] theorem State.setCore_fabTags (s : State) (c : Nat) (k : Core) : (s.setCore c k).fabTags = s.fabTags := rfl
@[simp] theorem State.setCore_fabOut (s : State) (c : Nat) (k : Core) : (s.setCore c k).fabOut = s.fabOut := rfl
@[simp] theorem State.setCore_fabIn (s : State) (c : Nat) (k : Core) : (s.setCore c k).fabIn = s.fabIn := rfl
@[simp] theorem State.setCore_digests (s : State) (c : Nat) (k : Core) : (s.setCore c k).digests = s.digests := rfl
@[simp] theorem State.setCore_rpAhead (s : State) (c : Nat) (k : Core) : (s.setCore c k).rpAhead = s.rpAhead := rfl

@[simp] theorem State.modCore_focus (s : State) (c : Nat) (f : Core → Core) : (s.modCore c f).focus = s.focus := rfl
@[simp] theorem State.modCore_agenda (s : State) (c : Nat) (f : Core → Core) : (s.modCore c f).agenda = s.agenda := rfl
@[simp] theorem State.modCore_nextFree (s : State) (c : Nat) (f : Core → Core) : (s.modCore c f).nextFree = s.nextFree := rfl
@[simp] theorem State.modCore_ptime (s : State) (c : Nat) (f : Core → Core) : (s.modCore c f).ptime = s.ptime := rfl
@[simp] theorem State.modCore_floor (s : State) (c : Nat) (f : Core → Core) : (s.modCore c f).floor = s.floor := rfl
@[simp] theorem State.modCore_binds (s : State) (c : Nat) (f : Core → Core) : (s.modCore c f).binds = s.binds := rfl
@[simp] theorem State.modCore_ctxs (s : State) (c : Nat) (f : Core → Core) : (s.modCore c f).ctxs = s.ctxs := rfl
@[simp] theorem State.modCore_mem (s : State) (c : Nat) (f : Core → Core) : (s.modCore c f).mem = s.mem := rfl
@[simp] theorem State.modCore_dram (s : State) (c : Nat) (f : Core → Core) : (s.modCore c f).dram = s.dram := rfl
@[simp] theorem State.modCore_host (s : State) (c : Nat) (f : Core → Core) : (s.modCore c f).host = s.host := rfl
@[simp] theorem State.modCore_hmem (s : State) (c : Nat) (f : Core → Core) : (s.modCore c f).hmem = s.hmem := rfl
@[simp] theorem State.modCore_poison (s : State) (c : Nat) (f : Core → Core) : (s.modCore c f).poison = s.poison := rfl
@[simp] theorem State.modCore_dpoison (s : State) (c : Nat) (f : Core → Core) : (s.modCore c f).dpoison = s.dpoison := rfl
@[simp] theorem State.modCore_full (s : State) (c : Nat) (f : Core → Core) : (s.modCore c f).full = s.full := rfl
@[simp] theorem State.modCore_dirty (s : State) (c : Nat) (f : Core → Core) : (s.modCore c f).dirty = s.dirty := rfl
@[simp] theorem State.modCore_l2 (s : State) (c : Nat) (f : Core → Core) : (s.modCore c f).l2 = s.l2 := rfl
@[simp] theorem State.modCore_leases (s : State) (c : Nat) (f : Core → Core) : (s.modCore c f).leases = s.leases := rfl
@[simp] theorem State.modCore_frames (s : State) (c : Nat) (f : Core → Core) : (s.modCore c f).frames = s.frames := rfl
@[simp] theorem State.modCore_resv (s : State) (c : Nat) (f : Core → Core) : (s.modCore c f).resv = s.resv := rfl
@[simp] theorem State.modCore_cells (s : State) (c : Nat) (f : Core → Core) : (s.modCore c f).cells = s.cells := rfl
@[simp] theorem State.modCore_used (s : State) (c : Nat) (f : Core → Core) : (s.modCore c f).used = s.used := rfl
@[simp] theorem State.modCore_pinnedCnt (s : State) (c : Nat) (f : Core → Core) : (s.modCore c f).pinnedCnt = s.pinnedCnt := rfl
@[simp] theorem State.modCore_accs (s : State) (c : Nat) (f : Core → Core) : (s.modCore c f).accs = s.accs := rfl
@[simp] theorem State.modCore_nextAcc (s : State) (c : Nat) (f : Core → Core) : (s.modCore c f).nextAcc = s.nextAcc := rfl
@[simp] theorem State.modCore_arrivals (s : State) (c : Nat) (f : Core → Core) : (s.modCore c f).arrivals = s.arrivals := rfl
@[simp] theorem State.modCore_parks (s : State) (c : Nat) (f : Core → Core) : (s.modCore c f).parks = s.parks := rfl
@[simp] theorem State.modCore_wakes (s : State) (c : Nat) (f : Core → Core) : (s.modCore c f).wakes = s.wakes := rfl
@[simp] theorem State.modCore_mxus (s : State) (c : Nat) (f : Core → Core) : (s.modCore c f).mxus = s.mxus := rfl
@[simp] theorem State.modCore_atc (s : State) (c : Nat) (f : Core → Core) : (s.modCore c f).atc = s.atc := rfl
@[simp] theorem State.modCore_treqs (s : State) (c : Nat) (f : Core → Core) : (s.modCore c f).treqs = s.treqs := rfl
@[simp] theorem State.modCore_preqs (s : State) (c : Nat) (f : Core → Core) : (s.modCore c f).preqs = s.preqs := rfl
@[simp] theorem State.modCore_invals (s : State) (c : Nat) (f : Core → Core) : (s.modCore c f).invals = s.invals := rfl
@[simp] theorem State.modCore_caps (s : State) (c : Nat) (f : Core → Core) : (s.modCore c f).caps = s.caps := rfl
@[simp] theorem State.modCore_net (s : State) (c : Nat) (f : Core → Core) : (s.modCore c f).net = s.net := rfl
@[simp] theorem State.modCore_nodes (s : State) (c : Nat) (f : Core → Core) : (s.modCore c f).nodes = s.nodes := rfl
@[simp] theorem State.modCore_loci (s : State) (c : Nat) (f : Core → Core) : (s.modCore c f).loci = s.loci := rfl
@[simp] theorem State.modCore_reqs (s : State) (c : Nat) (f : Core → Core) : (s.modCore c f).reqs = s.reqs := rfl
@[simp] theorem State.modCore_nextReq (s : State) (c : Nat) (f : Core → Core) : (s.modCore c f).nextReq = s.nextReq := rfl
@[simp] theorem State.modCore_regs (s : State) (c : Nat) (f : Core → Core) : (s.modCore c f).regs = s.regs := rfl
@[simp] theorem State.modCore_lqs (s : State) (c : Nat) (f : Core → Core) : (s.modCore c f).lqs = s.lqs := rfl
@[simp] theorem State.modCore_journal (s : State) (c : Nat) (f : Core → Core) : (s.modCore c f).journal = s.journal := rfl
@[simp] theorem State.modCore_jnext (s : State) (c : Nat) (f : Core → Core) : (s.modCore c f).jnext = s.jnext := rfl
@[simp] theorem State.modCore_slotTab (s : State) (c : Nat) (f : Core → Core) : (s.modCore c f).slotTab = s.slotTab := rfl
@[simp] theorem State.modCore_areas (s : State) (c : Nat) (f : Core → Core) : (s.modCore c f).areas = s.areas := rfl
@[simp] theorem State.modCore_accounts (s : State) (c : Nat) (f : Core → Core) : (s.modCore c f).accounts = s.accounts := rfl
@[simp] theorem State.modCore_period (s : State) (c : Nat) (f : Core → Core) : (s.modCore c f).period = s.period := rfl
@[simp] theorem State.modCore_activity (s : State) (c : Nat) (f : Core → Core) : (s.modCore c f).activity = s.activity := rfl
@[simp] theorem State.modCore_worlds (s : State) (c : Nat) (f : Core → Core) : (s.modCore c f).worlds = s.worlds := rfl
@[simp] theorem State.modCore_keys (s : State) (c : Nat) (f : Core → Core) : (s.modCore c f).keys = s.keys := rfl
@[simp] theorem State.modCore_hostPort (s : State) (c : Nat) (f : Core → Core) : (s.modCore c f).hostPort = s.hostPort := rfl
@[simp] theorem State.modCore_ports (s : State) (c : Nat) (f : Core → Core) : (s.modCore c f).ports = s.ports := rfl
@[simp] theorem State.modCore_proxies (s : State) (c : Nat) (f : Core → Core) : (s.modCore c f).proxies = s.proxies := rfl
@[simp] theorem State.modCore_remote (s : State) (c : Nat) (f : Core → Core) : (s.modCore c f).remote = s.remote := rfl
@[simp] theorem State.modCore_remoteInv (s : State) (c : Nat) (f : Core → Core) : (s.modCore c f).remoteInv = s.remoteInv := rfl
@[simp] theorem State.modCore_failedMods (s : State) (c : Nat) (f : Core → Core) : (s.modCore c f).failedMods = s.failedMods := rfl
@[simp] theorem State.modCore_msi (s : State) (c : Nat) (f : Core → Core) : (s.modCore c f).msi = s.msi := rfl
@[simp] theorem State.modCore_ctxErrs (s : State) (c : Nat) (f : Core → Core) : (s.modCore c f).ctxErrs = s.ctxErrs := rfl
@[simp] theorem State.modCore_errWait (s : State) (c : Nat) (f : Core → Core) : (s.modCore c f).errWait = s.errWait := rfl
@[simp] theorem State.modCore_sent (s : State) (c : Nat) (f : Core → Core) : (s.modCore c f).sent = s.sent := rfl
@[simp] theorem State.modCore_dbg (s : State) (c : Nat) (f : Core → Core) : (s.modCore c f).dbg = s.dbg := rfl
@[simp] theorem State.modCore_scan (s : State) (c : Nat) (f : Core → Core) : (s.modCore c f).scan = s.scan := rfl
@[simp] theorem State.modCore_power (s : State) (c : Nat) (f : Core → Core) : (s.modCore c f).power = s.power := rfl
@[simp] theorem State.modCore_freeze (s : State) (c : Nat) (f : Core → Core) : (s.modCore c f).freeze = s.freeze := rfl
@[simp] theorem State.modCore_powered (s : State) (c : Nat) (f : Core → Core) : (s.modCore c f).powered = s.powered := rfl
@[simp] theorem State.modCore_tripped (s : State) (c : Nat) (f : Core → Core) : (s.modCore c f).tripped = s.tripped := rfl
@[simp] theorem State.modCore_coreMap (s : State) (c : Nat) (f : Core → Core) : (s.modCore c f).coreMap = s.coreMap := rfl
@[simp] theorem State.modCore_spares (s : State) (c : Nat) (f : Core → Core) : (s.modCore c f).spares = s.spares := rfl
@[simp] theorem State.modCore_quarSites (s : State) (c : Nat) (f : Core → Core) : (s.modCore c f).quarSites = s.quarSites := rfl
@[simp] theorem State.modCore_cxlOut (s : State) (c : Nat) (f : Core → Core) : (s.modCore c f).cxlOut = s.cxlOut := rfl
@[simp] theorem State.modCore_traceLost (s : State) (c : Nat) (f : Core → Core) : (s.modCore c f).traceLost = s.traceLost := rfl
@[simp] theorem State.modCore_logWait (s : State) (c : Nat) (f : Core → Core) : (s.modCore c f).logWait = s.logWait := rfl
@[simp] theorem State.modCore_fabTags (s : State) (c : Nat) (f : Core → Core) : (s.modCore c f).fabTags = s.fabTags := rfl
@[simp] theorem State.modCore_fabOut (s : State) (c : Nat) (f : Core → Core) : (s.modCore c f).fabOut = s.fabOut := rfl
@[simp] theorem State.modCore_fabIn (s : State) (c : Nat) (f : Core → Core) : (s.modCore c f).fabIn = s.fabIn := rfl
@[simp] theorem State.modCore_digests (s : State) (c : Nat) (f : Core → Core) : (s.modCore c f).digests = s.digests := rfl
@[simp] theorem State.modCore_rpAhead (s : State) (c : Nat) (f : Core → Core) : (s.modCore c f).rpAhead = s.rpAhead := rfl

@[simp] theorem State.setBind_focus (s : State) (n c : Nat) (b : Bind) : (s.setBind n c b).focus = s.focus := rfl
@[simp] theorem State.setBind_agenda (s : State) (n c : Nat) (b : Bind) : (s.setBind n c b).agenda = s.agenda := rfl
@[simp] theorem State.setBind_nextFree (s : State) (n c : Nat) (b : Bind) : (s.setBind n c b).nextFree = s.nextFree := rfl
@[simp] theorem State.setBind_ptime (s : State) (n c : Nat) (b : Bind) : (s.setBind n c b).ptime = s.ptime := rfl
@[simp] theorem State.setBind_floor (s : State) (n c : Nat) (b : Bind) : (s.setBind n c b).floor = s.floor := rfl
@[simp] theorem State.setBind_cores (s : State) (n c : Nat) (b : Bind) : (s.setBind n c b).cores = s.cores := rfl
@[simp] theorem State.setBind_ctxs (s : State) (n c : Nat) (b : Bind) : (s.setBind n c b).ctxs = s.ctxs := rfl
@[simp] theorem State.setBind_mem (s : State) (n c : Nat) (b : Bind) : (s.setBind n c b).mem = s.mem := rfl
@[simp] theorem State.setBind_dram (s : State) (n c : Nat) (b : Bind) : (s.setBind n c b).dram = s.dram := rfl
@[simp] theorem State.setBind_host (s : State) (n c : Nat) (b : Bind) : (s.setBind n c b).host = s.host := rfl
@[simp] theorem State.setBind_hmem (s : State) (n c : Nat) (b : Bind) : (s.setBind n c b).hmem = s.hmem := rfl
@[simp] theorem State.setBind_poison (s : State) (n c : Nat) (b : Bind) : (s.setBind n c b).poison = s.poison := rfl
@[simp] theorem State.setBind_dpoison (s : State) (n c : Nat) (b : Bind) : (s.setBind n c b).dpoison = s.dpoison := rfl
@[simp] theorem State.setBind_full (s : State) (n c : Nat) (b : Bind) : (s.setBind n c b).full = s.full := rfl
@[simp] theorem State.setBind_dirty (s : State) (n c : Nat) (b : Bind) : (s.setBind n c b).dirty = s.dirty := rfl
@[simp] theorem State.setBind_l2 (s : State) (n c : Nat) (b : Bind) : (s.setBind n c b).l2 = s.l2 := rfl
@[simp] theorem State.setBind_leases (s : State) (n c : Nat) (b : Bind) : (s.setBind n c b).leases = s.leases := rfl
@[simp] theorem State.setBind_frames (s : State) (n c : Nat) (b : Bind) : (s.setBind n c b).frames = s.frames := rfl
@[simp] theorem State.setBind_resv (s : State) (n c : Nat) (b : Bind) : (s.setBind n c b).resv = s.resv := rfl
@[simp] theorem State.setBind_cells (s : State) (n c : Nat) (b : Bind) : (s.setBind n c b).cells = s.cells := rfl
@[simp] theorem State.setBind_used (s : State) (n c : Nat) (b : Bind) : (s.setBind n c b).used = s.used := rfl
@[simp] theorem State.setBind_pinnedCnt (s : State) (n c : Nat) (b : Bind) : (s.setBind n c b).pinnedCnt = s.pinnedCnt := rfl
@[simp] theorem State.setBind_accs (s : State) (n c : Nat) (b : Bind) : (s.setBind n c b).accs = s.accs := rfl
@[simp] theorem State.setBind_nextAcc (s : State) (n c : Nat) (b : Bind) : (s.setBind n c b).nextAcc = s.nextAcc := rfl
@[simp] theorem State.setBind_arrivals (s : State) (n c : Nat) (b : Bind) : (s.setBind n c b).arrivals = s.arrivals := rfl
@[simp] theorem State.setBind_parks (s : State) (n c : Nat) (b : Bind) : (s.setBind n c b).parks = s.parks := rfl
@[simp] theorem State.setBind_wakes (s : State) (n c : Nat) (b : Bind) : (s.setBind n c b).wakes = s.wakes := rfl
@[simp] theorem State.setBind_mxus (s : State) (n c : Nat) (b : Bind) : (s.setBind n c b).mxus = s.mxus := rfl
@[simp] theorem State.setBind_atc (s : State) (n c : Nat) (b : Bind) : (s.setBind n c b).atc = s.atc := rfl
@[simp] theorem State.setBind_treqs (s : State) (n c : Nat) (b : Bind) : (s.setBind n c b).treqs = s.treqs := rfl
@[simp] theorem State.setBind_preqs (s : State) (n c : Nat) (b : Bind) : (s.setBind n c b).preqs = s.preqs := rfl
@[simp] theorem State.setBind_invals (s : State) (n c : Nat) (b : Bind) : (s.setBind n c b).invals = s.invals := rfl
@[simp] theorem State.setBind_caps (s : State) (n c : Nat) (b : Bind) : (s.setBind n c b).caps = s.caps := rfl
@[simp] theorem State.setBind_net (s : State) (n c : Nat) (b : Bind) : (s.setBind n c b).net = s.net := rfl
@[simp] theorem State.setBind_nodes (s : State) (n c : Nat) (b : Bind) : (s.setBind n c b).nodes = s.nodes := rfl
@[simp] theorem State.setBind_loci (s : State) (n c : Nat) (b : Bind) : (s.setBind n c b).loci = s.loci := rfl
@[simp] theorem State.setBind_reqs (s : State) (n c : Nat) (b : Bind) : (s.setBind n c b).reqs = s.reqs := rfl
@[simp] theorem State.setBind_nextReq (s : State) (n c : Nat) (b : Bind) : (s.setBind n c b).nextReq = s.nextReq := rfl
@[simp] theorem State.setBind_regs (s : State) (n c : Nat) (b : Bind) : (s.setBind n c b).regs = s.regs := rfl
@[simp] theorem State.setBind_lqs (s : State) (n c : Nat) (b : Bind) : (s.setBind n c b).lqs = s.lqs := rfl
@[simp] theorem State.setBind_journal (s : State) (n c : Nat) (b : Bind) : (s.setBind n c b).journal = s.journal := rfl
@[simp] theorem State.setBind_jnext (s : State) (n c : Nat) (b : Bind) : (s.setBind n c b).jnext = s.jnext := rfl
@[simp] theorem State.setBind_slotTab (s : State) (n c : Nat) (b : Bind) : (s.setBind n c b).slotTab = s.slotTab := rfl
@[simp] theorem State.setBind_areas (s : State) (n c : Nat) (b : Bind) : (s.setBind n c b).areas = s.areas := rfl
@[simp] theorem State.setBind_accounts (s : State) (n c : Nat) (b : Bind) : (s.setBind n c b).accounts = s.accounts := rfl
@[simp] theorem State.setBind_period (s : State) (n c : Nat) (b : Bind) : (s.setBind n c b).period = s.period := rfl
@[simp] theorem State.setBind_activity (s : State) (n c : Nat) (b : Bind) : (s.setBind n c b).activity = s.activity := rfl
@[simp] theorem State.setBind_worlds (s : State) (n c : Nat) (b : Bind) : (s.setBind n c b).worlds = s.worlds := rfl
@[simp] theorem State.setBind_keys (s : State) (n c : Nat) (b : Bind) : (s.setBind n c b).keys = s.keys := rfl
@[simp] theorem State.setBind_hostPort (s : State) (n c : Nat) (b : Bind) : (s.setBind n c b).hostPort = s.hostPort := rfl
@[simp] theorem State.setBind_ports (s : State) (n c : Nat) (b : Bind) : (s.setBind n c b).ports = s.ports := rfl
@[simp] theorem State.setBind_proxies (s : State) (n c : Nat) (b : Bind) : (s.setBind n c b).proxies = s.proxies := rfl
@[simp] theorem State.setBind_remote (s : State) (n c : Nat) (b : Bind) : (s.setBind n c b).remote = s.remote := rfl
@[simp] theorem State.setBind_remoteInv (s : State) (n c : Nat) (b : Bind) : (s.setBind n c b).remoteInv = s.remoteInv := rfl
@[simp] theorem State.setBind_failedMods (s : State) (n c : Nat) (b : Bind) : (s.setBind n c b).failedMods = s.failedMods := rfl
@[simp] theorem State.setBind_msi (s : State) (n c : Nat) (b : Bind) : (s.setBind n c b).msi = s.msi := rfl
@[simp] theorem State.setBind_ctxErrs (s : State) (n c : Nat) (b : Bind) : (s.setBind n c b).ctxErrs = s.ctxErrs := rfl
@[simp] theorem State.setBind_errWait (s : State) (n c : Nat) (b : Bind) : (s.setBind n c b).errWait = s.errWait := rfl
@[simp] theorem State.setBind_sent (s : State) (n c : Nat) (b : Bind) : (s.setBind n c b).sent = s.sent := rfl
@[simp] theorem State.setBind_dbg (s : State) (n c : Nat) (b : Bind) : (s.setBind n c b).dbg = s.dbg := rfl
@[simp] theorem State.setBind_scan (s : State) (n c : Nat) (b : Bind) : (s.setBind n c b).scan = s.scan := rfl
@[simp] theorem State.setBind_power (s : State) (n c : Nat) (b : Bind) : (s.setBind n c b).power = s.power := rfl
@[simp] theorem State.setBind_freeze (s : State) (n c : Nat) (b : Bind) : (s.setBind n c b).freeze = s.freeze := rfl
@[simp] theorem State.setBind_powered (s : State) (n c : Nat) (b : Bind) : (s.setBind n c b).powered = s.powered := rfl
@[simp] theorem State.setBind_tripped (s : State) (n c : Nat) (b : Bind) : (s.setBind n c b).tripped = s.tripped := rfl
@[simp] theorem State.setBind_coreMap (s : State) (n c : Nat) (b : Bind) : (s.setBind n c b).coreMap = s.coreMap := rfl
@[simp] theorem State.setBind_spares (s : State) (n c : Nat) (b : Bind) : (s.setBind n c b).spares = s.spares := rfl
@[simp] theorem State.setBind_quarSites (s : State) (n c : Nat) (b : Bind) : (s.setBind n c b).quarSites = s.quarSites := rfl
@[simp] theorem State.setBind_cxlOut (s : State) (n c : Nat) (b : Bind) : (s.setBind n c b).cxlOut = s.cxlOut := rfl
@[simp] theorem State.setBind_traceLost (s : State) (n c : Nat) (b : Bind) : (s.setBind n c b).traceLost = s.traceLost := rfl
@[simp] theorem State.setBind_logWait (s : State) (n c : Nat) (b : Bind) : (s.setBind n c b).logWait = s.logWait := rfl
@[simp] theorem State.setBind_fabTags (s : State) (n c : Nat) (b : Bind) : (s.setBind n c b).fabTags = s.fabTags := rfl
@[simp] theorem State.setBind_fabOut (s : State) (n c : Nat) (b : Bind) : (s.setBind n c b).fabOut = s.fabOut := rfl
@[simp] theorem State.setBind_fabIn (s : State) (n c : Nat) (b : Bind) : (s.setBind n c b).fabIn = s.fabIn := rfl
@[simp] theorem State.setBind_digests (s : State) (n c : Nat) (b : Bind) : (s.setBind n c b).digests = s.digests := rfl
@[simp] theorem State.setBind_rpAhead (s : State) (n c : Nat) (b : Bind) : (s.setBind n c b).rpAhead = s.rpAhead := rfl

@[simp] theorem State.modBind_focus (s : State) (n c : Nat) (f : Bind → Bind) : (s.modBind n c f).focus = s.focus := rfl
@[simp] theorem State.modBind_agenda (s : State) (n c : Nat) (f : Bind → Bind) : (s.modBind n c f).agenda = s.agenda := rfl
@[simp] theorem State.modBind_nextFree (s : State) (n c : Nat) (f : Bind → Bind) : (s.modBind n c f).nextFree = s.nextFree := rfl
@[simp] theorem State.modBind_ptime (s : State) (n c : Nat) (f : Bind → Bind) : (s.modBind n c f).ptime = s.ptime := rfl
@[simp] theorem State.modBind_floor (s : State) (n c : Nat) (f : Bind → Bind) : (s.modBind n c f).floor = s.floor := rfl
@[simp] theorem State.modBind_cores (s : State) (n c : Nat) (f : Bind → Bind) : (s.modBind n c f).cores = s.cores := rfl
@[simp] theorem State.modBind_ctxs (s : State) (n c : Nat) (f : Bind → Bind) : (s.modBind n c f).ctxs = s.ctxs := rfl
@[simp] theorem State.modBind_mem (s : State) (n c : Nat) (f : Bind → Bind) : (s.modBind n c f).mem = s.mem := rfl
@[simp] theorem State.modBind_dram (s : State) (n c : Nat) (f : Bind → Bind) : (s.modBind n c f).dram = s.dram := rfl
@[simp] theorem State.modBind_host (s : State) (n c : Nat) (f : Bind → Bind) : (s.modBind n c f).host = s.host := rfl
@[simp] theorem State.modBind_hmem (s : State) (n c : Nat) (f : Bind → Bind) : (s.modBind n c f).hmem = s.hmem := rfl
@[simp] theorem State.modBind_poison (s : State) (n c : Nat) (f : Bind → Bind) : (s.modBind n c f).poison = s.poison := rfl
@[simp] theorem State.modBind_dpoison (s : State) (n c : Nat) (f : Bind → Bind) : (s.modBind n c f).dpoison = s.dpoison := rfl
@[simp] theorem State.modBind_full (s : State) (n c : Nat) (f : Bind → Bind) : (s.modBind n c f).full = s.full := rfl
@[simp] theorem State.modBind_dirty (s : State) (n c : Nat) (f : Bind → Bind) : (s.modBind n c f).dirty = s.dirty := rfl
@[simp] theorem State.modBind_l2 (s : State) (n c : Nat) (f : Bind → Bind) : (s.modBind n c f).l2 = s.l2 := rfl
@[simp] theorem State.modBind_leases (s : State) (n c : Nat) (f : Bind → Bind) : (s.modBind n c f).leases = s.leases := rfl
@[simp] theorem State.modBind_frames (s : State) (n c : Nat) (f : Bind → Bind) : (s.modBind n c f).frames = s.frames := rfl
@[simp] theorem State.modBind_resv (s : State) (n c : Nat) (f : Bind → Bind) : (s.modBind n c f).resv = s.resv := rfl
@[simp] theorem State.modBind_cells (s : State) (n c : Nat) (f : Bind → Bind) : (s.modBind n c f).cells = s.cells := rfl
@[simp] theorem State.modBind_used (s : State) (n c : Nat) (f : Bind → Bind) : (s.modBind n c f).used = s.used := rfl
@[simp] theorem State.modBind_pinnedCnt (s : State) (n c : Nat) (f : Bind → Bind) : (s.modBind n c f).pinnedCnt = s.pinnedCnt := rfl
@[simp] theorem State.modBind_accs (s : State) (n c : Nat) (f : Bind → Bind) : (s.modBind n c f).accs = s.accs := rfl
@[simp] theorem State.modBind_nextAcc (s : State) (n c : Nat) (f : Bind → Bind) : (s.modBind n c f).nextAcc = s.nextAcc := rfl
@[simp] theorem State.modBind_arrivals (s : State) (n c : Nat) (f : Bind → Bind) : (s.modBind n c f).arrivals = s.arrivals := rfl
@[simp] theorem State.modBind_parks (s : State) (n c : Nat) (f : Bind → Bind) : (s.modBind n c f).parks = s.parks := rfl
@[simp] theorem State.modBind_wakes (s : State) (n c : Nat) (f : Bind → Bind) : (s.modBind n c f).wakes = s.wakes := rfl
@[simp] theorem State.modBind_mxus (s : State) (n c : Nat) (f : Bind → Bind) : (s.modBind n c f).mxus = s.mxus := rfl
@[simp] theorem State.modBind_atc (s : State) (n c : Nat) (f : Bind → Bind) : (s.modBind n c f).atc = s.atc := rfl
@[simp] theorem State.modBind_treqs (s : State) (n c : Nat) (f : Bind → Bind) : (s.modBind n c f).treqs = s.treqs := rfl
@[simp] theorem State.modBind_preqs (s : State) (n c : Nat) (f : Bind → Bind) : (s.modBind n c f).preqs = s.preqs := rfl
@[simp] theorem State.modBind_invals (s : State) (n c : Nat) (f : Bind → Bind) : (s.modBind n c f).invals = s.invals := rfl
@[simp] theorem State.modBind_caps (s : State) (n c : Nat) (f : Bind → Bind) : (s.modBind n c f).caps = s.caps := rfl
@[simp] theorem State.modBind_net (s : State) (n c : Nat) (f : Bind → Bind) : (s.modBind n c f).net = s.net := rfl
@[simp] theorem State.modBind_nodes (s : State) (n c : Nat) (f : Bind → Bind) : (s.modBind n c f).nodes = s.nodes := rfl
@[simp] theorem State.modBind_loci (s : State) (n c : Nat) (f : Bind → Bind) : (s.modBind n c f).loci = s.loci := rfl
@[simp] theorem State.modBind_reqs (s : State) (n c : Nat) (f : Bind → Bind) : (s.modBind n c f).reqs = s.reqs := rfl
@[simp] theorem State.modBind_nextReq (s : State) (n c : Nat) (f : Bind → Bind) : (s.modBind n c f).nextReq = s.nextReq := rfl
@[simp] theorem State.modBind_regs (s : State) (n c : Nat) (f : Bind → Bind) : (s.modBind n c f).regs = s.regs := rfl
@[simp] theorem State.modBind_lqs (s : State) (n c : Nat) (f : Bind → Bind) : (s.modBind n c f).lqs = s.lqs := rfl
@[simp] theorem State.modBind_journal (s : State) (n c : Nat) (f : Bind → Bind) : (s.modBind n c f).journal = s.journal := rfl
@[simp] theorem State.modBind_jnext (s : State) (n c : Nat) (f : Bind → Bind) : (s.modBind n c f).jnext = s.jnext := rfl
@[simp] theorem State.modBind_slotTab (s : State) (n c : Nat) (f : Bind → Bind) : (s.modBind n c f).slotTab = s.slotTab := rfl
@[simp] theorem State.modBind_areas (s : State) (n c : Nat) (f : Bind → Bind) : (s.modBind n c f).areas = s.areas := rfl
@[simp] theorem State.modBind_accounts (s : State) (n c : Nat) (f : Bind → Bind) : (s.modBind n c f).accounts = s.accounts := rfl
@[simp] theorem State.modBind_period (s : State) (n c : Nat) (f : Bind → Bind) : (s.modBind n c f).period = s.period := rfl
@[simp] theorem State.modBind_activity (s : State) (n c : Nat) (f : Bind → Bind) : (s.modBind n c f).activity = s.activity := rfl
@[simp] theorem State.modBind_worlds (s : State) (n c : Nat) (f : Bind → Bind) : (s.modBind n c f).worlds = s.worlds := rfl
@[simp] theorem State.modBind_keys (s : State) (n c : Nat) (f : Bind → Bind) : (s.modBind n c f).keys = s.keys := rfl
@[simp] theorem State.modBind_hostPort (s : State) (n c : Nat) (f : Bind → Bind) : (s.modBind n c f).hostPort = s.hostPort := rfl
@[simp] theorem State.modBind_ports (s : State) (n c : Nat) (f : Bind → Bind) : (s.modBind n c f).ports = s.ports := rfl
@[simp] theorem State.modBind_proxies (s : State) (n c : Nat) (f : Bind → Bind) : (s.modBind n c f).proxies = s.proxies := rfl
@[simp] theorem State.modBind_remote (s : State) (n c : Nat) (f : Bind → Bind) : (s.modBind n c f).remote = s.remote := rfl
@[simp] theorem State.modBind_remoteInv (s : State) (n c : Nat) (f : Bind → Bind) : (s.modBind n c f).remoteInv = s.remoteInv := rfl
@[simp] theorem State.modBind_failedMods (s : State) (n c : Nat) (f : Bind → Bind) : (s.modBind n c f).failedMods = s.failedMods := rfl
@[simp] theorem State.modBind_msi (s : State) (n c : Nat) (f : Bind → Bind) : (s.modBind n c f).msi = s.msi := rfl
@[simp] theorem State.modBind_ctxErrs (s : State) (n c : Nat) (f : Bind → Bind) : (s.modBind n c f).ctxErrs = s.ctxErrs := rfl
@[simp] theorem State.modBind_errWait (s : State) (n c : Nat) (f : Bind → Bind) : (s.modBind n c f).errWait = s.errWait := rfl
@[simp] theorem State.modBind_sent (s : State) (n c : Nat) (f : Bind → Bind) : (s.modBind n c f).sent = s.sent := rfl
@[simp] theorem State.modBind_dbg (s : State) (n c : Nat) (f : Bind → Bind) : (s.modBind n c f).dbg = s.dbg := rfl
@[simp] theorem State.modBind_scan (s : State) (n c : Nat) (f : Bind → Bind) : (s.modBind n c f).scan = s.scan := rfl
@[simp] theorem State.modBind_power (s : State) (n c : Nat) (f : Bind → Bind) : (s.modBind n c f).power = s.power := rfl
@[simp] theorem State.modBind_freeze (s : State) (n c : Nat) (f : Bind → Bind) : (s.modBind n c f).freeze = s.freeze := rfl
@[simp] theorem State.modBind_powered (s : State) (n c : Nat) (f : Bind → Bind) : (s.modBind n c f).powered = s.powered := rfl
@[simp] theorem State.modBind_tripped (s : State) (n c : Nat) (f : Bind → Bind) : (s.modBind n c f).tripped = s.tripped := rfl
@[simp] theorem State.modBind_coreMap (s : State) (n c : Nat) (f : Bind → Bind) : (s.modBind n c f).coreMap = s.coreMap := rfl
@[simp] theorem State.modBind_spares (s : State) (n c : Nat) (f : Bind → Bind) : (s.modBind n c f).spares = s.spares := rfl
@[simp] theorem State.modBind_quarSites (s : State) (n c : Nat) (f : Bind → Bind) : (s.modBind n c f).quarSites = s.quarSites := rfl
@[simp] theorem State.modBind_cxlOut (s : State) (n c : Nat) (f : Bind → Bind) : (s.modBind n c f).cxlOut = s.cxlOut := rfl
@[simp] theorem State.modBind_traceLost (s : State) (n c : Nat) (f : Bind → Bind) : (s.modBind n c f).traceLost = s.traceLost := rfl
@[simp] theorem State.modBind_logWait (s : State) (n c : Nat) (f : Bind → Bind) : (s.modBind n c f).logWait = s.logWait := rfl
@[simp] theorem State.modBind_fabTags (s : State) (n c : Nat) (f : Bind → Bind) : (s.modBind n c f).fabTags = s.fabTags := rfl
@[simp] theorem State.modBind_fabOut (s : State) (n c : Nat) (f : Bind → Bind) : (s.modBind n c f).fabOut = s.fabOut := rfl
@[simp] theorem State.modBind_fabIn (s : State) (n c : Nat) (f : Bind → Bind) : (s.modBind n c f).fabIn = s.fabIn := rfl
@[simp] theorem State.modBind_digests (s : State) (n c : Nat) (f : Bind → Bind) : (s.modBind n c f).digests = s.digests := rfl
@[simp] theorem State.modBind_rpAhead (s : State) (n c : Nat) (f : Bind → Bind) : (s.modBind n c f).rpAhead = s.rpAhead := rfl

@[simp] theorem State.modCur_focus (s : State) (c : Nat) (f : Bind → Bind) : (s.modCur c f).focus = s.focus := rfl
@[simp] theorem State.modCur_agenda (s : State) (c : Nat) (f : Bind → Bind) : (s.modCur c f).agenda = s.agenda := rfl
@[simp] theorem State.modCur_nextFree (s : State) (c : Nat) (f : Bind → Bind) : (s.modCur c f).nextFree = s.nextFree := rfl
@[simp] theorem State.modCur_ptime (s : State) (c : Nat) (f : Bind → Bind) : (s.modCur c f).ptime = s.ptime := rfl
@[simp] theorem State.modCur_floor (s : State) (c : Nat) (f : Bind → Bind) : (s.modCur c f).floor = s.floor := rfl
@[simp] theorem State.modCur_cores (s : State) (c : Nat) (f : Bind → Bind) : (s.modCur c f).cores = s.cores := rfl
@[simp] theorem State.modCur_ctxs (s : State) (c : Nat) (f : Bind → Bind) : (s.modCur c f).ctxs = s.ctxs := rfl
@[simp] theorem State.modCur_mem (s : State) (c : Nat) (f : Bind → Bind) : (s.modCur c f).mem = s.mem := rfl
@[simp] theorem State.modCur_dram (s : State) (c : Nat) (f : Bind → Bind) : (s.modCur c f).dram = s.dram := rfl
@[simp] theorem State.modCur_host (s : State) (c : Nat) (f : Bind → Bind) : (s.modCur c f).host = s.host := rfl
@[simp] theorem State.modCur_hmem (s : State) (c : Nat) (f : Bind → Bind) : (s.modCur c f).hmem = s.hmem := rfl
@[simp] theorem State.modCur_poison (s : State) (c : Nat) (f : Bind → Bind) : (s.modCur c f).poison = s.poison := rfl
@[simp] theorem State.modCur_dpoison (s : State) (c : Nat) (f : Bind → Bind) : (s.modCur c f).dpoison = s.dpoison := rfl
@[simp] theorem State.modCur_full (s : State) (c : Nat) (f : Bind → Bind) : (s.modCur c f).full = s.full := rfl
@[simp] theorem State.modCur_dirty (s : State) (c : Nat) (f : Bind → Bind) : (s.modCur c f).dirty = s.dirty := rfl
@[simp] theorem State.modCur_l2 (s : State) (c : Nat) (f : Bind → Bind) : (s.modCur c f).l2 = s.l2 := rfl
@[simp] theorem State.modCur_leases (s : State) (c : Nat) (f : Bind → Bind) : (s.modCur c f).leases = s.leases := rfl
@[simp] theorem State.modCur_frames (s : State) (c : Nat) (f : Bind → Bind) : (s.modCur c f).frames = s.frames := rfl
@[simp] theorem State.modCur_resv (s : State) (c : Nat) (f : Bind → Bind) : (s.modCur c f).resv = s.resv := rfl
@[simp] theorem State.modCur_cells (s : State) (c : Nat) (f : Bind → Bind) : (s.modCur c f).cells = s.cells := rfl
@[simp] theorem State.modCur_used (s : State) (c : Nat) (f : Bind → Bind) : (s.modCur c f).used = s.used := rfl
@[simp] theorem State.modCur_pinnedCnt (s : State) (c : Nat) (f : Bind → Bind) : (s.modCur c f).pinnedCnt = s.pinnedCnt := rfl
@[simp] theorem State.modCur_accs (s : State) (c : Nat) (f : Bind → Bind) : (s.modCur c f).accs = s.accs := rfl
@[simp] theorem State.modCur_nextAcc (s : State) (c : Nat) (f : Bind → Bind) : (s.modCur c f).nextAcc = s.nextAcc := rfl
@[simp] theorem State.modCur_arrivals (s : State) (c : Nat) (f : Bind → Bind) : (s.modCur c f).arrivals = s.arrivals := rfl
@[simp] theorem State.modCur_parks (s : State) (c : Nat) (f : Bind → Bind) : (s.modCur c f).parks = s.parks := rfl
@[simp] theorem State.modCur_wakes (s : State) (c : Nat) (f : Bind → Bind) : (s.modCur c f).wakes = s.wakes := rfl
@[simp] theorem State.modCur_mxus (s : State) (c : Nat) (f : Bind → Bind) : (s.modCur c f).mxus = s.mxus := rfl
@[simp] theorem State.modCur_atc (s : State) (c : Nat) (f : Bind → Bind) : (s.modCur c f).atc = s.atc := rfl
@[simp] theorem State.modCur_treqs (s : State) (c : Nat) (f : Bind → Bind) : (s.modCur c f).treqs = s.treqs := rfl
@[simp] theorem State.modCur_preqs (s : State) (c : Nat) (f : Bind → Bind) : (s.modCur c f).preqs = s.preqs := rfl
@[simp] theorem State.modCur_invals (s : State) (c : Nat) (f : Bind → Bind) : (s.modCur c f).invals = s.invals := rfl
@[simp] theorem State.modCur_caps (s : State) (c : Nat) (f : Bind → Bind) : (s.modCur c f).caps = s.caps := rfl
@[simp] theorem State.modCur_net (s : State) (c : Nat) (f : Bind → Bind) : (s.modCur c f).net = s.net := rfl
@[simp] theorem State.modCur_nodes (s : State) (c : Nat) (f : Bind → Bind) : (s.modCur c f).nodes = s.nodes := rfl
@[simp] theorem State.modCur_loci (s : State) (c : Nat) (f : Bind → Bind) : (s.modCur c f).loci = s.loci := rfl
@[simp] theorem State.modCur_reqs (s : State) (c : Nat) (f : Bind → Bind) : (s.modCur c f).reqs = s.reqs := rfl
@[simp] theorem State.modCur_nextReq (s : State) (c : Nat) (f : Bind → Bind) : (s.modCur c f).nextReq = s.nextReq := rfl
@[simp] theorem State.modCur_regs (s : State) (c : Nat) (f : Bind → Bind) : (s.modCur c f).regs = s.regs := rfl
@[simp] theorem State.modCur_lqs (s : State) (c : Nat) (f : Bind → Bind) : (s.modCur c f).lqs = s.lqs := rfl
@[simp] theorem State.modCur_journal (s : State) (c : Nat) (f : Bind → Bind) : (s.modCur c f).journal = s.journal := rfl
@[simp] theorem State.modCur_jnext (s : State) (c : Nat) (f : Bind → Bind) : (s.modCur c f).jnext = s.jnext := rfl
@[simp] theorem State.modCur_slotTab (s : State) (c : Nat) (f : Bind → Bind) : (s.modCur c f).slotTab = s.slotTab := rfl
@[simp] theorem State.modCur_areas (s : State) (c : Nat) (f : Bind → Bind) : (s.modCur c f).areas = s.areas := rfl
@[simp] theorem State.modCur_accounts (s : State) (c : Nat) (f : Bind → Bind) : (s.modCur c f).accounts = s.accounts := rfl
@[simp] theorem State.modCur_period (s : State) (c : Nat) (f : Bind → Bind) : (s.modCur c f).period = s.period := rfl
@[simp] theorem State.modCur_activity (s : State) (c : Nat) (f : Bind → Bind) : (s.modCur c f).activity = s.activity := rfl
@[simp] theorem State.modCur_worlds (s : State) (c : Nat) (f : Bind → Bind) : (s.modCur c f).worlds = s.worlds := rfl
@[simp] theorem State.modCur_keys (s : State) (c : Nat) (f : Bind → Bind) : (s.modCur c f).keys = s.keys := rfl
@[simp] theorem State.modCur_hostPort (s : State) (c : Nat) (f : Bind → Bind) : (s.modCur c f).hostPort = s.hostPort := rfl
@[simp] theorem State.modCur_ports (s : State) (c : Nat) (f : Bind → Bind) : (s.modCur c f).ports = s.ports := rfl
@[simp] theorem State.modCur_proxies (s : State) (c : Nat) (f : Bind → Bind) : (s.modCur c f).proxies = s.proxies := rfl
@[simp] theorem State.modCur_remote (s : State) (c : Nat) (f : Bind → Bind) : (s.modCur c f).remote = s.remote := rfl
@[simp] theorem State.modCur_remoteInv (s : State) (c : Nat) (f : Bind → Bind) : (s.modCur c f).remoteInv = s.remoteInv := rfl
@[simp] theorem State.modCur_failedMods (s : State) (c : Nat) (f : Bind → Bind) : (s.modCur c f).failedMods = s.failedMods := rfl
@[simp] theorem State.modCur_msi (s : State) (c : Nat) (f : Bind → Bind) : (s.modCur c f).msi = s.msi := rfl
@[simp] theorem State.modCur_ctxErrs (s : State) (c : Nat) (f : Bind → Bind) : (s.modCur c f).ctxErrs = s.ctxErrs := rfl
@[simp] theorem State.modCur_errWait (s : State) (c : Nat) (f : Bind → Bind) : (s.modCur c f).errWait = s.errWait := rfl
@[simp] theorem State.modCur_sent (s : State) (c : Nat) (f : Bind → Bind) : (s.modCur c f).sent = s.sent := rfl
@[simp] theorem State.modCur_dbg (s : State) (c : Nat) (f : Bind → Bind) : (s.modCur c f).dbg = s.dbg := rfl
@[simp] theorem State.modCur_scan (s : State) (c : Nat) (f : Bind → Bind) : (s.modCur c f).scan = s.scan := rfl
@[simp] theorem State.modCur_power (s : State) (c : Nat) (f : Bind → Bind) : (s.modCur c f).power = s.power := rfl
@[simp] theorem State.modCur_freeze (s : State) (c : Nat) (f : Bind → Bind) : (s.modCur c f).freeze = s.freeze := rfl
@[simp] theorem State.modCur_powered (s : State) (c : Nat) (f : Bind → Bind) : (s.modCur c f).powered = s.powered := rfl
@[simp] theorem State.modCur_tripped (s : State) (c : Nat) (f : Bind → Bind) : (s.modCur c f).tripped = s.tripped := rfl
@[simp] theorem State.modCur_coreMap (s : State) (c : Nat) (f : Bind → Bind) : (s.modCur c f).coreMap = s.coreMap := rfl
@[simp] theorem State.modCur_spares (s : State) (c : Nat) (f : Bind → Bind) : (s.modCur c f).spares = s.spares := rfl
@[simp] theorem State.modCur_quarSites (s : State) (c : Nat) (f : Bind → Bind) : (s.modCur c f).quarSites = s.quarSites := rfl
@[simp] theorem State.modCur_cxlOut (s : State) (c : Nat) (f : Bind → Bind) : (s.modCur c f).cxlOut = s.cxlOut := rfl
@[simp] theorem State.modCur_traceLost (s : State) (c : Nat) (f : Bind → Bind) : (s.modCur c f).traceLost = s.traceLost := rfl
@[simp] theorem State.modCur_logWait (s : State) (c : Nat) (f : Bind → Bind) : (s.modCur c f).logWait = s.logWait := rfl
@[simp] theorem State.modCur_fabTags (s : State) (c : Nat) (f : Bind → Bind) : (s.modCur c f).fabTags = s.fabTags := rfl
@[simp] theorem State.modCur_fabOut (s : State) (c : Nat) (f : Bind → Bind) : (s.modCur c f).fabOut = s.fabOut := rfl
@[simp] theorem State.modCur_fabIn (s : State) (c : Nat) (f : Bind → Bind) : (s.modCur c f).fabIn = s.fabIn := rfl
@[simp] theorem State.modCur_digests (s : State) (c : Nat) (f : Bind → Bind) : (s.modCur c f).digests = s.digests := rfl
@[simp] theorem State.modCur_rpAhead (s : State) (c : Nat) (f : Bind → Bind) : (s.modCur c f).rpAhead = s.rpAhead := rfl

@[simp] theorem State.modMt_focus (s : State) (c n : Nat) (f : Mt → Mt) : (s.modMt c n f).focus = s.focus := rfl
@[simp] theorem State.modMt_agenda (s : State) (c n : Nat) (f : Mt → Mt) : (s.modMt c n f).agenda = s.agenda := rfl
@[simp] theorem State.modMt_nextFree (s : State) (c n : Nat) (f : Mt → Mt) : (s.modMt c n f).nextFree = s.nextFree := rfl
@[simp] theorem State.modMt_ptime (s : State) (c n : Nat) (f : Mt → Mt) : (s.modMt c n f).ptime = s.ptime := rfl
@[simp] theorem State.modMt_floor (s : State) (c n : Nat) (f : Mt → Mt) : (s.modMt c n f).floor = s.floor := rfl
@[simp] theorem State.modMt_cores (s : State) (c n : Nat) (f : Mt → Mt) : (s.modMt c n f).cores = s.cores := rfl
@[simp] theorem State.modMt_ctxs (s : State) (c n : Nat) (f : Mt → Mt) : (s.modMt c n f).ctxs = s.ctxs := rfl
@[simp] theorem State.modMt_mem (s : State) (c n : Nat) (f : Mt → Mt) : (s.modMt c n f).mem = s.mem := rfl
@[simp] theorem State.modMt_dram (s : State) (c n : Nat) (f : Mt → Mt) : (s.modMt c n f).dram = s.dram := rfl
@[simp] theorem State.modMt_host (s : State) (c n : Nat) (f : Mt → Mt) : (s.modMt c n f).host = s.host := rfl
@[simp] theorem State.modMt_hmem (s : State) (c n : Nat) (f : Mt → Mt) : (s.modMt c n f).hmem = s.hmem := rfl
@[simp] theorem State.modMt_poison (s : State) (c n : Nat) (f : Mt → Mt) : (s.modMt c n f).poison = s.poison := rfl
@[simp] theorem State.modMt_dpoison (s : State) (c n : Nat) (f : Mt → Mt) : (s.modMt c n f).dpoison = s.dpoison := rfl
@[simp] theorem State.modMt_full (s : State) (c n : Nat) (f : Mt → Mt) : (s.modMt c n f).full = s.full := rfl
@[simp] theorem State.modMt_dirty (s : State) (c n : Nat) (f : Mt → Mt) : (s.modMt c n f).dirty = s.dirty := rfl
@[simp] theorem State.modMt_l2 (s : State) (c n : Nat) (f : Mt → Mt) : (s.modMt c n f).l2 = s.l2 := rfl
@[simp] theorem State.modMt_leases (s : State) (c n : Nat) (f : Mt → Mt) : (s.modMt c n f).leases = s.leases := rfl
@[simp] theorem State.modMt_frames (s : State) (c n : Nat) (f : Mt → Mt) : (s.modMt c n f).frames = s.frames := rfl
@[simp] theorem State.modMt_resv (s : State) (c n : Nat) (f : Mt → Mt) : (s.modMt c n f).resv = s.resv := rfl
@[simp] theorem State.modMt_cells (s : State) (c n : Nat) (f : Mt → Mt) : (s.modMt c n f).cells = s.cells := rfl
@[simp] theorem State.modMt_used (s : State) (c n : Nat) (f : Mt → Mt) : (s.modMt c n f).used = s.used := rfl
@[simp] theorem State.modMt_pinnedCnt (s : State) (c n : Nat) (f : Mt → Mt) : (s.modMt c n f).pinnedCnt = s.pinnedCnt := rfl
@[simp] theorem State.modMt_accs (s : State) (c n : Nat) (f : Mt → Mt) : (s.modMt c n f).accs = s.accs := rfl
@[simp] theorem State.modMt_nextAcc (s : State) (c n : Nat) (f : Mt → Mt) : (s.modMt c n f).nextAcc = s.nextAcc := rfl
@[simp] theorem State.modMt_arrivals (s : State) (c n : Nat) (f : Mt → Mt) : (s.modMt c n f).arrivals = s.arrivals := rfl
@[simp] theorem State.modMt_parks (s : State) (c n : Nat) (f : Mt → Mt) : (s.modMt c n f).parks = s.parks := rfl
@[simp] theorem State.modMt_wakes (s : State) (c n : Nat) (f : Mt → Mt) : (s.modMt c n f).wakes = s.wakes := rfl
@[simp] theorem State.modMt_mxus (s : State) (c n : Nat) (f : Mt → Mt) : (s.modMt c n f).mxus = s.mxus := rfl
@[simp] theorem State.modMt_atc (s : State) (c n : Nat) (f : Mt → Mt) : (s.modMt c n f).atc = s.atc := rfl
@[simp] theorem State.modMt_treqs (s : State) (c n : Nat) (f : Mt → Mt) : (s.modMt c n f).treqs = s.treqs := rfl
@[simp] theorem State.modMt_preqs (s : State) (c n : Nat) (f : Mt → Mt) : (s.modMt c n f).preqs = s.preqs := rfl
@[simp] theorem State.modMt_invals (s : State) (c n : Nat) (f : Mt → Mt) : (s.modMt c n f).invals = s.invals := rfl
@[simp] theorem State.modMt_caps (s : State) (c n : Nat) (f : Mt → Mt) : (s.modMt c n f).caps = s.caps := rfl
@[simp] theorem State.modMt_net (s : State) (c n : Nat) (f : Mt → Mt) : (s.modMt c n f).net = s.net := rfl
@[simp] theorem State.modMt_nodes (s : State) (c n : Nat) (f : Mt → Mt) : (s.modMt c n f).nodes = s.nodes := rfl
@[simp] theorem State.modMt_loci (s : State) (c n : Nat) (f : Mt → Mt) : (s.modMt c n f).loci = s.loci := rfl
@[simp] theorem State.modMt_reqs (s : State) (c n : Nat) (f : Mt → Mt) : (s.modMt c n f).reqs = s.reqs := rfl
@[simp] theorem State.modMt_nextReq (s : State) (c n : Nat) (f : Mt → Mt) : (s.modMt c n f).nextReq = s.nextReq := rfl
@[simp] theorem State.modMt_regs (s : State) (c n : Nat) (f : Mt → Mt) : (s.modMt c n f).regs = s.regs := rfl
@[simp] theorem State.modMt_lqs (s : State) (c n : Nat) (f : Mt → Mt) : (s.modMt c n f).lqs = s.lqs := rfl
@[simp] theorem State.modMt_journal (s : State) (c n : Nat) (f : Mt → Mt) : (s.modMt c n f).journal = s.journal := rfl
@[simp] theorem State.modMt_jnext (s : State) (c n : Nat) (f : Mt → Mt) : (s.modMt c n f).jnext = s.jnext := rfl
@[simp] theorem State.modMt_slotTab (s : State) (c n : Nat) (f : Mt → Mt) : (s.modMt c n f).slotTab = s.slotTab := rfl
@[simp] theorem State.modMt_areas (s : State) (c n : Nat) (f : Mt → Mt) : (s.modMt c n f).areas = s.areas := rfl
@[simp] theorem State.modMt_accounts (s : State) (c n : Nat) (f : Mt → Mt) : (s.modMt c n f).accounts = s.accounts := rfl
@[simp] theorem State.modMt_period (s : State) (c n : Nat) (f : Mt → Mt) : (s.modMt c n f).period = s.period := rfl
@[simp] theorem State.modMt_activity (s : State) (c n : Nat) (f : Mt → Mt) : (s.modMt c n f).activity = s.activity := rfl
@[simp] theorem State.modMt_worlds (s : State) (c n : Nat) (f : Mt → Mt) : (s.modMt c n f).worlds = s.worlds := rfl
@[simp] theorem State.modMt_keys (s : State) (c n : Nat) (f : Mt → Mt) : (s.modMt c n f).keys = s.keys := rfl
@[simp] theorem State.modMt_hostPort (s : State) (c n : Nat) (f : Mt → Mt) : (s.modMt c n f).hostPort = s.hostPort := rfl
@[simp] theorem State.modMt_ports (s : State) (c n : Nat) (f : Mt → Mt) : (s.modMt c n f).ports = s.ports := rfl
@[simp] theorem State.modMt_proxies (s : State) (c n : Nat) (f : Mt → Mt) : (s.modMt c n f).proxies = s.proxies := rfl
@[simp] theorem State.modMt_remote (s : State) (c n : Nat) (f : Mt → Mt) : (s.modMt c n f).remote = s.remote := rfl
@[simp] theorem State.modMt_remoteInv (s : State) (c n : Nat) (f : Mt → Mt) : (s.modMt c n f).remoteInv = s.remoteInv := rfl
@[simp] theorem State.modMt_failedMods (s : State) (c n : Nat) (f : Mt → Mt) : (s.modMt c n f).failedMods = s.failedMods := rfl
@[simp] theorem State.modMt_msi (s : State) (c n : Nat) (f : Mt → Mt) : (s.modMt c n f).msi = s.msi := rfl
@[simp] theorem State.modMt_ctxErrs (s : State) (c n : Nat) (f : Mt → Mt) : (s.modMt c n f).ctxErrs = s.ctxErrs := rfl
@[simp] theorem State.modMt_errWait (s : State) (c n : Nat) (f : Mt → Mt) : (s.modMt c n f).errWait = s.errWait := rfl
@[simp] theorem State.modMt_sent (s : State) (c n : Nat) (f : Mt → Mt) : (s.modMt c n f).sent = s.sent := rfl
@[simp] theorem State.modMt_dbg (s : State) (c n : Nat) (f : Mt → Mt) : (s.modMt c n f).dbg = s.dbg := rfl
@[simp] theorem State.modMt_scan (s : State) (c n : Nat) (f : Mt → Mt) : (s.modMt c n f).scan = s.scan := rfl
@[simp] theorem State.modMt_power (s : State) (c n : Nat) (f : Mt → Mt) : (s.modMt c n f).power = s.power := rfl
@[simp] theorem State.modMt_freeze (s : State) (c n : Nat) (f : Mt → Mt) : (s.modMt c n f).freeze = s.freeze := rfl
@[simp] theorem State.modMt_powered (s : State) (c n : Nat) (f : Mt → Mt) : (s.modMt c n f).powered = s.powered := rfl
@[simp] theorem State.modMt_tripped (s : State) (c n : Nat) (f : Mt → Mt) : (s.modMt c n f).tripped = s.tripped := rfl
@[simp] theorem State.modMt_coreMap (s : State) (c n : Nat) (f : Mt → Mt) : (s.modMt c n f).coreMap = s.coreMap := rfl
@[simp] theorem State.modMt_spares (s : State) (c n : Nat) (f : Mt → Mt) : (s.modMt c n f).spares = s.spares := rfl
@[simp] theorem State.modMt_quarSites (s : State) (c n : Nat) (f : Mt → Mt) : (s.modMt c n f).quarSites = s.quarSites := rfl
@[simp] theorem State.modMt_cxlOut (s : State) (c n : Nat) (f : Mt → Mt) : (s.modMt c n f).cxlOut = s.cxlOut := rfl
@[simp] theorem State.modMt_traceLost (s : State) (c n : Nat) (f : Mt → Mt) : (s.modMt c n f).traceLost = s.traceLost := rfl
@[simp] theorem State.modMt_logWait (s : State) (c n : Nat) (f : Mt → Mt) : (s.modMt c n f).logWait = s.logWait := rfl
@[simp] theorem State.modMt_fabTags (s : State) (c n : Nat) (f : Mt → Mt) : (s.modMt c n f).fabTags = s.fabTags := rfl
@[simp] theorem State.modMt_fabOut (s : State) (c n : Nat) (f : Mt → Mt) : (s.modMt c n f).fabOut = s.fabOut := rfl
@[simp] theorem State.modMt_fabIn (s : State) (c n : Nat) (f : Mt → Mt) : (s.modMt c n f).fabIn = s.fabIn := rfl
@[simp] theorem State.modMt_digests (s : State) (c n : Nat) (f : Mt → Mt) : (s.modMt c n f).digests = s.digests := rfl
@[simp] theorem State.modMt_rpAhead (s : State) (c n : Nat) (f : Mt → Mt) : (s.modMt c n f).rpAhead = s.rpAhead := rfl

@[simp] theorem State.modCtx_focus (s : State) (n : Nat) (f : Ctx → Ctx) : (s.modCtx n f).focus = s.focus := rfl
@[simp] theorem State.modCtx_agenda (s : State) (n : Nat) (f : Ctx → Ctx) : (s.modCtx n f).agenda = s.agenda := rfl
@[simp] theorem State.modCtx_nextFree (s : State) (n : Nat) (f : Ctx → Ctx) : (s.modCtx n f).nextFree = s.nextFree := rfl
@[simp] theorem State.modCtx_ptime (s : State) (n : Nat) (f : Ctx → Ctx) : (s.modCtx n f).ptime = s.ptime := rfl
@[simp] theorem State.modCtx_floor (s : State) (n : Nat) (f : Ctx → Ctx) : (s.modCtx n f).floor = s.floor := rfl
@[simp] theorem State.modCtx_cores (s : State) (n : Nat) (f : Ctx → Ctx) : (s.modCtx n f).cores = s.cores := rfl
@[simp] theorem State.modCtx_binds (s : State) (n : Nat) (f : Ctx → Ctx) : (s.modCtx n f).binds = s.binds := rfl
@[simp] theorem State.modCtx_mem (s : State) (n : Nat) (f : Ctx → Ctx) : (s.modCtx n f).mem = s.mem := rfl
@[simp] theorem State.modCtx_dram (s : State) (n : Nat) (f : Ctx → Ctx) : (s.modCtx n f).dram = s.dram := rfl
@[simp] theorem State.modCtx_host (s : State) (n : Nat) (f : Ctx → Ctx) : (s.modCtx n f).host = s.host := rfl
@[simp] theorem State.modCtx_hmem (s : State) (n : Nat) (f : Ctx → Ctx) : (s.modCtx n f).hmem = s.hmem := rfl
@[simp] theorem State.modCtx_poison (s : State) (n : Nat) (f : Ctx → Ctx) : (s.modCtx n f).poison = s.poison := rfl
@[simp] theorem State.modCtx_dpoison (s : State) (n : Nat) (f : Ctx → Ctx) : (s.modCtx n f).dpoison = s.dpoison := rfl
@[simp] theorem State.modCtx_full (s : State) (n : Nat) (f : Ctx → Ctx) : (s.modCtx n f).full = s.full := rfl
@[simp] theorem State.modCtx_dirty (s : State) (n : Nat) (f : Ctx → Ctx) : (s.modCtx n f).dirty = s.dirty := rfl
@[simp] theorem State.modCtx_l2 (s : State) (n : Nat) (f : Ctx → Ctx) : (s.modCtx n f).l2 = s.l2 := rfl
@[simp] theorem State.modCtx_leases (s : State) (n : Nat) (f : Ctx → Ctx) : (s.modCtx n f).leases = s.leases := rfl
@[simp] theorem State.modCtx_frames (s : State) (n : Nat) (f : Ctx → Ctx) : (s.modCtx n f).frames = s.frames := rfl
@[simp] theorem State.modCtx_resv (s : State) (n : Nat) (f : Ctx → Ctx) : (s.modCtx n f).resv = s.resv := rfl
@[simp] theorem State.modCtx_cells (s : State) (n : Nat) (f : Ctx → Ctx) : (s.modCtx n f).cells = s.cells := rfl
@[simp] theorem State.modCtx_used (s : State) (n : Nat) (f : Ctx → Ctx) : (s.modCtx n f).used = s.used := rfl
@[simp] theorem State.modCtx_pinnedCnt (s : State) (n : Nat) (f : Ctx → Ctx) : (s.modCtx n f).pinnedCnt = s.pinnedCnt := rfl
@[simp] theorem State.modCtx_accs (s : State) (n : Nat) (f : Ctx → Ctx) : (s.modCtx n f).accs = s.accs := rfl
@[simp] theorem State.modCtx_nextAcc (s : State) (n : Nat) (f : Ctx → Ctx) : (s.modCtx n f).nextAcc = s.nextAcc := rfl
@[simp] theorem State.modCtx_arrivals (s : State) (n : Nat) (f : Ctx → Ctx) : (s.modCtx n f).arrivals = s.arrivals := rfl
@[simp] theorem State.modCtx_parks (s : State) (n : Nat) (f : Ctx → Ctx) : (s.modCtx n f).parks = s.parks := rfl
@[simp] theorem State.modCtx_wakes (s : State) (n : Nat) (f : Ctx → Ctx) : (s.modCtx n f).wakes = s.wakes := rfl
@[simp] theorem State.modCtx_mxus (s : State) (n : Nat) (f : Ctx → Ctx) : (s.modCtx n f).mxus = s.mxus := rfl
@[simp] theorem State.modCtx_atc (s : State) (n : Nat) (f : Ctx → Ctx) : (s.modCtx n f).atc = s.atc := rfl
@[simp] theorem State.modCtx_treqs (s : State) (n : Nat) (f : Ctx → Ctx) : (s.modCtx n f).treqs = s.treqs := rfl
@[simp] theorem State.modCtx_preqs (s : State) (n : Nat) (f : Ctx → Ctx) : (s.modCtx n f).preqs = s.preqs := rfl
@[simp] theorem State.modCtx_invals (s : State) (n : Nat) (f : Ctx → Ctx) : (s.modCtx n f).invals = s.invals := rfl
@[simp] theorem State.modCtx_caps (s : State) (n : Nat) (f : Ctx → Ctx) : (s.modCtx n f).caps = s.caps := rfl
@[simp] theorem State.modCtx_net (s : State) (n : Nat) (f : Ctx → Ctx) : (s.modCtx n f).net = s.net := rfl
@[simp] theorem State.modCtx_nodes (s : State) (n : Nat) (f : Ctx → Ctx) : (s.modCtx n f).nodes = s.nodes := rfl
@[simp] theorem State.modCtx_loci (s : State) (n : Nat) (f : Ctx → Ctx) : (s.modCtx n f).loci = s.loci := rfl
@[simp] theorem State.modCtx_reqs (s : State) (n : Nat) (f : Ctx → Ctx) : (s.modCtx n f).reqs = s.reqs := rfl
@[simp] theorem State.modCtx_nextReq (s : State) (n : Nat) (f : Ctx → Ctx) : (s.modCtx n f).nextReq = s.nextReq := rfl
@[simp] theorem State.modCtx_regs (s : State) (n : Nat) (f : Ctx → Ctx) : (s.modCtx n f).regs = s.regs := rfl
@[simp] theorem State.modCtx_lqs (s : State) (n : Nat) (f : Ctx → Ctx) : (s.modCtx n f).lqs = s.lqs := rfl
@[simp] theorem State.modCtx_journal (s : State) (n : Nat) (f : Ctx → Ctx) : (s.modCtx n f).journal = s.journal := rfl
@[simp] theorem State.modCtx_jnext (s : State) (n : Nat) (f : Ctx → Ctx) : (s.modCtx n f).jnext = s.jnext := rfl
@[simp] theorem State.modCtx_slotTab (s : State) (n : Nat) (f : Ctx → Ctx) : (s.modCtx n f).slotTab = s.slotTab := rfl
@[simp] theorem State.modCtx_areas (s : State) (n : Nat) (f : Ctx → Ctx) : (s.modCtx n f).areas = s.areas := rfl
@[simp] theorem State.modCtx_accounts (s : State) (n : Nat) (f : Ctx → Ctx) : (s.modCtx n f).accounts = s.accounts := rfl
@[simp] theorem State.modCtx_period (s : State) (n : Nat) (f : Ctx → Ctx) : (s.modCtx n f).period = s.period := rfl
@[simp] theorem State.modCtx_activity (s : State) (n : Nat) (f : Ctx → Ctx) : (s.modCtx n f).activity = s.activity := rfl
@[simp] theorem State.modCtx_worlds (s : State) (n : Nat) (f : Ctx → Ctx) : (s.modCtx n f).worlds = s.worlds := rfl
@[simp] theorem State.modCtx_keys (s : State) (n : Nat) (f : Ctx → Ctx) : (s.modCtx n f).keys = s.keys := rfl
@[simp] theorem State.modCtx_hostPort (s : State) (n : Nat) (f : Ctx → Ctx) : (s.modCtx n f).hostPort = s.hostPort := rfl
@[simp] theorem State.modCtx_ports (s : State) (n : Nat) (f : Ctx → Ctx) : (s.modCtx n f).ports = s.ports := rfl
@[simp] theorem State.modCtx_proxies (s : State) (n : Nat) (f : Ctx → Ctx) : (s.modCtx n f).proxies = s.proxies := rfl
@[simp] theorem State.modCtx_remote (s : State) (n : Nat) (f : Ctx → Ctx) : (s.modCtx n f).remote = s.remote := rfl
@[simp] theorem State.modCtx_remoteInv (s : State) (n : Nat) (f : Ctx → Ctx) : (s.modCtx n f).remoteInv = s.remoteInv := rfl
@[simp] theorem State.modCtx_failedMods (s : State) (n : Nat) (f : Ctx → Ctx) : (s.modCtx n f).failedMods = s.failedMods := rfl
@[simp] theorem State.modCtx_msi (s : State) (n : Nat) (f : Ctx → Ctx) : (s.modCtx n f).msi = s.msi := rfl
@[simp] theorem State.modCtx_ctxErrs (s : State) (n : Nat) (f : Ctx → Ctx) : (s.modCtx n f).ctxErrs = s.ctxErrs := rfl
@[simp] theorem State.modCtx_errWait (s : State) (n : Nat) (f : Ctx → Ctx) : (s.modCtx n f).errWait = s.errWait := rfl
@[simp] theorem State.modCtx_sent (s : State) (n : Nat) (f : Ctx → Ctx) : (s.modCtx n f).sent = s.sent := rfl
@[simp] theorem State.modCtx_dbg (s : State) (n : Nat) (f : Ctx → Ctx) : (s.modCtx n f).dbg = s.dbg := rfl
@[simp] theorem State.modCtx_scan (s : State) (n : Nat) (f : Ctx → Ctx) : (s.modCtx n f).scan = s.scan := rfl
@[simp] theorem State.modCtx_power (s : State) (n : Nat) (f : Ctx → Ctx) : (s.modCtx n f).power = s.power := rfl
@[simp] theorem State.modCtx_freeze (s : State) (n : Nat) (f : Ctx → Ctx) : (s.modCtx n f).freeze = s.freeze := rfl
@[simp] theorem State.modCtx_powered (s : State) (n : Nat) (f : Ctx → Ctx) : (s.modCtx n f).powered = s.powered := rfl
@[simp] theorem State.modCtx_tripped (s : State) (n : Nat) (f : Ctx → Ctx) : (s.modCtx n f).tripped = s.tripped := rfl
@[simp] theorem State.modCtx_coreMap (s : State) (n : Nat) (f : Ctx → Ctx) : (s.modCtx n f).coreMap = s.coreMap := rfl
@[simp] theorem State.modCtx_spares (s : State) (n : Nat) (f : Ctx → Ctx) : (s.modCtx n f).spares = s.spares := rfl
@[simp] theorem State.modCtx_quarSites (s : State) (n : Nat) (f : Ctx → Ctx) : (s.modCtx n f).quarSites = s.quarSites := rfl
@[simp] theorem State.modCtx_cxlOut (s : State) (n : Nat) (f : Ctx → Ctx) : (s.modCtx n f).cxlOut = s.cxlOut := rfl
@[simp] theorem State.modCtx_traceLost (s : State) (n : Nat) (f : Ctx → Ctx) : (s.modCtx n f).traceLost = s.traceLost := rfl
@[simp] theorem State.modCtx_logWait (s : State) (n : Nat) (f : Ctx → Ctx) : (s.modCtx n f).logWait = s.logWait := rfl
@[simp] theorem State.modCtx_fabTags (s : State) (n : Nat) (f : Ctx → Ctx) : (s.modCtx n f).fabTags = s.fabTags := rfl
@[simp] theorem State.modCtx_fabOut (s : State) (n : Nat) (f : Ctx → Ctx) : (s.modCtx n f).fabOut = s.fabOut := rfl
@[simp] theorem State.modCtx_fabIn (s : State) (n : Nat) (f : Ctx → Ctx) : (s.modCtx n f).fabIn = s.fabIn := rfl
@[simp] theorem State.modCtx_digests (s : State) (n : Nat) (f : Ctx → Ctx) : (s.modCtx n f).digests = s.digests := rfl
@[simp] theorem State.modCtx_rpAhead (s : State) (n : Nat) (f : Ctx → Ctx) : (s.modCtx n f).rpAhead = s.rpAhead := rfl

@[simp] theorem State.modFrame_focus (s : State) (n : Nat) (f : Frame → Frame) : (s.modFrame n f).focus = s.focus := rfl
@[simp] theorem State.modFrame_agenda (s : State) (n : Nat) (f : Frame → Frame) : (s.modFrame n f).agenda = s.agenda := rfl
@[simp] theorem State.modFrame_nextFree (s : State) (n : Nat) (f : Frame → Frame) : (s.modFrame n f).nextFree = s.nextFree := rfl
@[simp] theorem State.modFrame_ptime (s : State) (n : Nat) (f : Frame → Frame) : (s.modFrame n f).ptime = s.ptime := rfl
@[simp] theorem State.modFrame_floor (s : State) (n : Nat) (f : Frame → Frame) : (s.modFrame n f).floor = s.floor := rfl
@[simp] theorem State.modFrame_cores (s : State) (n : Nat) (f : Frame → Frame) : (s.modFrame n f).cores = s.cores := rfl
@[simp] theorem State.modFrame_binds (s : State) (n : Nat) (f : Frame → Frame) : (s.modFrame n f).binds = s.binds := rfl
@[simp] theorem State.modFrame_ctxs (s : State) (n : Nat) (f : Frame → Frame) : (s.modFrame n f).ctxs = s.ctxs := rfl
@[simp] theorem State.modFrame_mem (s : State) (n : Nat) (f : Frame → Frame) : (s.modFrame n f).mem = s.mem := rfl
@[simp] theorem State.modFrame_dram (s : State) (n : Nat) (f : Frame → Frame) : (s.modFrame n f).dram = s.dram := rfl
@[simp] theorem State.modFrame_host (s : State) (n : Nat) (f : Frame → Frame) : (s.modFrame n f).host = s.host := rfl
@[simp] theorem State.modFrame_hmem (s : State) (n : Nat) (f : Frame → Frame) : (s.modFrame n f).hmem = s.hmem := rfl
@[simp] theorem State.modFrame_poison (s : State) (n : Nat) (f : Frame → Frame) : (s.modFrame n f).poison = s.poison := rfl
@[simp] theorem State.modFrame_dpoison (s : State) (n : Nat) (f : Frame → Frame) : (s.modFrame n f).dpoison = s.dpoison := rfl
@[simp] theorem State.modFrame_full (s : State) (n : Nat) (f : Frame → Frame) : (s.modFrame n f).full = s.full := rfl
@[simp] theorem State.modFrame_dirty (s : State) (n : Nat) (f : Frame → Frame) : (s.modFrame n f).dirty = s.dirty := rfl
@[simp] theorem State.modFrame_l2 (s : State) (n : Nat) (f : Frame → Frame) : (s.modFrame n f).l2 = s.l2 := rfl
@[simp] theorem State.modFrame_leases (s : State) (n : Nat) (f : Frame → Frame) : (s.modFrame n f).leases = s.leases := rfl
@[simp] theorem State.modFrame_resv (s : State) (n : Nat) (f : Frame → Frame) : (s.modFrame n f).resv = s.resv := rfl
@[simp] theorem State.modFrame_cells (s : State) (n : Nat) (f : Frame → Frame) : (s.modFrame n f).cells = s.cells := rfl
@[simp] theorem State.modFrame_used (s : State) (n : Nat) (f : Frame → Frame) : (s.modFrame n f).used = s.used := rfl
@[simp] theorem State.modFrame_pinnedCnt (s : State) (n : Nat) (f : Frame → Frame) : (s.modFrame n f).pinnedCnt = s.pinnedCnt := rfl
@[simp] theorem State.modFrame_accs (s : State) (n : Nat) (f : Frame → Frame) : (s.modFrame n f).accs = s.accs := rfl
@[simp] theorem State.modFrame_nextAcc (s : State) (n : Nat) (f : Frame → Frame) : (s.modFrame n f).nextAcc = s.nextAcc := rfl
@[simp] theorem State.modFrame_arrivals (s : State) (n : Nat) (f : Frame → Frame) : (s.modFrame n f).arrivals = s.arrivals := rfl
@[simp] theorem State.modFrame_parks (s : State) (n : Nat) (f : Frame → Frame) : (s.modFrame n f).parks = s.parks := rfl
@[simp] theorem State.modFrame_wakes (s : State) (n : Nat) (f : Frame → Frame) : (s.modFrame n f).wakes = s.wakes := rfl
@[simp] theorem State.modFrame_mxus (s : State) (n : Nat) (f : Frame → Frame) : (s.modFrame n f).mxus = s.mxus := rfl
@[simp] theorem State.modFrame_atc (s : State) (n : Nat) (f : Frame → Frame) : (s.modFrame n f).atc = s.atc := rfl
@[simp] theorem State.modFrame_treqs (s : State) (n : Nat) (f : Frame → Frame) : (s.modFrame n f).treqs = s.treqs := rfl
@[simp] theorem State.modFrame_preqs (s : State) (n : Nat) (f : Frame → Frame) : (s.modFrame n f).preqs = s.preqs := rfl
@[simp] theorem State.modFrame_invals (s : State) (n : Nat) (f : Frame → Frame) : (s.modFrame n f).invals = s.invals := rfl
@[simp] theorem State.modFrame_caps (s : State) (n : Nat) (f : Frame → Frame) : (s.modFrame n f).caps = s.caps := rfl
@[simp] theorem State.modFrame_net (s : State) (n : Nat) (f : Frame → Frame) : (s.modFrame n f).net = s.net := rfl
@[simp] theorem State.modFrame_nodes (s : State) (n : Nat) (f : Frame → Frame) : (s.modFrame n f).nodes = s.nodes := rfl
@[simp] theorem State.modFrame_loci (s : State) (n : Nat) (f : Frame → Frame) : (s.modFrame n f).loci = s.loci := rfl
@[simp] theorem State.modFrame_reqs (s : State) (n : Nat) (f : Frame → Frame) : (s.modFrame n f).reqs = s.reqs := rfl
@[simp] theorem State.modFrame_nextReq (s : State) (n : Nat) (f : Frame → Frame) : (s.modFrame n f).nextReq = s.nextReq := rfl
@[simp] theorem State.modFrame_regs (s : State) (n : Nat) (f : Frame → Frame) : (s.modFrame n f).regs = s.regs := rfl
@[simp] theorem State.modFrame_lqs (s : State) (n : Nat) (f : Frame → Frame) : (s.modFrame n f).lqs = s.lqs := rfl
@[simp] theorem State.modFrame_journal (s : State) (n : Nat) (f : Frame → Frame) : (s.modFrame n f).journal = s.journal := rfl
@[simp] theorem State.modFrame_jnext (s : State) (n : Nat) (f : Frame → Frame) : (s.modFrame n f).jnext = s.jnext := rfl
@[simp] theorem State.modFrame_slotTab (s : State) (n : Nat) (f : Frame → Frame) : (s.modFrame n f).slotTab = s.slotTab := rfl
@[simp] theorem State.modFrame_areas (s : State) (n : Nat) (f : Frame → Frame) : (s.modFrame n f).areas = s.areas := rfl
@[simp] theorem State.modFrame_accounts (s : State) (n : Nat) (f : Frame → Frame) : (s.modFrame n f).accounts = s.accounts := rfl
@[simp] theorem State.modFrame_period (s : State) (n : Nat) (f : Frame → Frame) : (s.modFrame n f).period = s.period := rfl
@[simp] theorem State.modFrame_activity (s : State) (n : Nat) (f : Frame → Frame) : (s.modFrame n f).activity = s.activity := rfl
@[simp] theorem State.modFrame_worlds (s : State) (n : Nat) (f : Frame → Frame) : (s.modFrame n f).worlds = s.worlds := rfl
@[simp] theorem State.modFrame_keys (s : State) (n : Nat) (f : Frame → Frame) : (s.modFrame n f).keys = s.keys := rfl
@[simp] theorem State.modFrame_hostPort (s : State) (n : Nat) (f : Frame → Frame) : (s.modFrame n f).hostPort = s.hostPort := rfl
@[simp] theorem State.modFrame_ports (s : State) (n : Nat) (f : Frame → Frame) : (s.modFrame n f).ports = s.ports := rfl
@[simp] theorem State.modFrame_proxies (s : State) (n : Nat) (f : Frame → Frame) : (s.modFrame n f).proxies = s.proxies := rfl
@[simp] theorem State.modFrame_remote (s : State) (n : Nat) (f : Frame → Frame) : (s.modFrame n f).remote = s.remote := rfl
@[simp] theorem State.modFrame_remoteInv (s : State) (n : Nat) (f : Frame → Frame) : (s.modFrame n f).remoteInv = s.remoteInv := rfl
@[simp] theorem State.modFrame_failedMods (s : State) (n : Nat) (f : Frame → Frame) : (s.modFrame n f).failedMods = s.failedMods := rfl
@[simp] theorem State.modFrame_msi (s : State) (n : Nat) (f : Frame → Frame) : (s.modFrame n f).msi = s.msi := rfl
@[simp] theorem State.modFrame_ctxErrs (s : State) (n : Nat) (f : Frame → Frame) : (s.modFrame n f).ctxErrs = s.ctxErrs := rfl
@[simp] theorem State.modFrame_errWait (s : State) (n : Nat) (f : Frame → Frame) : (s.modFrame n f).errWait = s.errWait := rfl
@[simp] theorem State.modFrame_sent (s : State) (n : Nat) (f : Frame → Frame) : (s.modFrame n f).sent = s.sent := rfl
@[simp] theorem State.modFrame_dbg (s : State) (n : Nat) (f : Frame → Frame) : (s.modFrame n f).dbg = s.dbg := rfl
@[simp] theorem State.modFrame_scan (s : State) (n : Nat) (f : Frame → Frame) : (s.modFrame n f).scan = s.scan := rfl
@[simp] theorem State.modFrame_power (s : State) (n : Nat) (f : Frame → Frame) : (s.modFrame n f).power = s.power := rfl
@[simp] theorem State.modFrame_freeze (s : State) (n : Nat) (f : Frame → Frame) : (s.modFrame n f).freeze = s.freeze := rfl
@[simp] theorem State.modFrame_powered (s : State) (n : Nat) (f : Frame → Frame) : (s.modFrame n f).powered = s.powered := rfl
@[simp] theorem State.modFrame_tripped (s : State) (n : Nat) (f : Frame → Frame) : (s.modFrame n f).tripped = s.tripped := rfl
@[simp] theorem State.modFrame_coreMap (s : State) (n : Nat) (f : Frame → Frame) : (s.modFrame n f).coreMap = s.coreMap := rfl
@[simp] theorem State.modFrame_spares (s : State) (n : Nat) (f : Frame → Frame) : (s.modFrame n f).spares = s.spares := rfl
@[simp] theorem State.modFrame_quarSites (s : State) (n : Nat) (f : Frame → Frame) : (s.modFrame n f).quarSites = s.quarSites := rfl
@[simp] theorem State.modFrame_cxlOut (s : State) (n : Nat) (f : Frame → Frame) : (s.modFrame n f).cxlOut = s.cxlOut := rfl
@[simp] theorem State.modFrame_traceLost (s : State) (n : Nat) (f : Frame → Frame) : (s.modFrame n f).traceLost = s.traceLost := rfl
@[simp] theorem State.modFrame_logWait (s : State) (n : Nat) (f : Frame → Frame) : (s.modFrame n f).logWait = s.logWait := rfl
@[simp] theorem State.modFrame_fabTags (s : State) (n : Nat) (f : Frame → Frame) : (s.modFrame n f).fabTags = s.fabTags := rfl
@[simp] theorem State.modFrame_fabOut (s : State) (n : Nat) (f : Frame → Frame) : (s.modFrame n f).fabOut = s.fabOut := rfl
@[simp] theorem State.modFrame_fabIn (s : State) (n : Nat) (f : Frame → Frame) : (s.modFrame n f).fabIn = s.fabIn := rfl
@[simp] theorem State.modFrame_digests (s : State) (n : Nat) (f : Frame → Frame) : (s.modFrame n f).digests = s.digests := rfl
@[simp] theorem State.modFrame_rpAhead (s : State) (n : Nat) (f : Frame → Frame) : (s.modFrame n f).rpAhead = s.rpAhead := rfl

@[simp] theorem State.modNode_focus (s : State) (n : Nat) (f : Node → Node) : (s.modNode n f).focus = s.focus := rfl
@[simp] theorem State.modNode_agenda (s : State) (n : Nat) (f : Node → Node) : (s.modNode n f).agenda = s.agenda := rfl
@[simp] theorem State.modNode_nextFree (s : State) (n : Nat) (f : Node → Node) : (s.modNode n f).nextFree = s.nextFree := rfl
@[simp] theorem State.modNode_ptime (s : State) (n : Nat) (f : Node → Node) : (s.modNode n f).ptime = s.ptime := rfl
@[simp] theorem State.modNode_floor (s : State) (n : Nat) (f : Node → Node) : (s.modNode n f).floor = s.floor := rfl
@[simp] theorem State.modNode_cores (s : State) (n : Nat) (f : Node → Node) : (s.modNode n f).cores = s.cores := rfl
@[simp] theorem State.modNode_binds (s : State) (n : Nat) (f : Node → Node) : (s.modNode n f).binds = s.binds := rfl
@[simp] theorem State.modNode_ctxs (s : State) (n : Nat) (f : Node → Node) : (s.modNode n f).ctxs = s.ctxs := rfl
@[simp] theorem State.modNode_mem (s : State) (n : Nat) (f : Node → Node) : (s.modNode n f).mem = s.mem := rfl
@[simp] theorem State.modNode_dram (s : State) (n : Nat) (f : Node → Node) : (s.modNode n f).dram = s.dram := rfl
@[simp] theorem State.modNode_host (s : State) (n : Nat) (f : Node → Node) : (s.modNode n f).host = s.host := rfl
@[simp] theorem State.modNode_hmem (s : State) (n : Nat) (f : Node → Node) : (s.modNode n f).hmem = s.hmem := rfl
@[simp] theorem State.modNode_poison (s : State) (n : Nat) (f : Node → Node) : (s.modNode n f).poison = s.poison := rfl
@[simp] theorem State.modNode_dpoison (s : State) (n : Nat) (f : Node → Node) : (s.modNode n f).dpoison = s.dpoison := rfl
@[simp] theorem State.modNode_full (s : State) (n : Nat) (f : Node → Node) : (s.modNode n f).full = s.full := rfl
@[simp] theorem State.modNode_dirty (s : State) (n : Nat) (f : Node → Node) : (s.modNode n f).dirty = s.dirty := rfl
@[simp] theorem State.modNode_l2 (s : State) (n : Nat) (f : Node → Node) : (s.modNode n f).l2 = s.l2 := rfl
@[simp] theorem State.modNode_leases (s : State) (n : Nat) (f : Node → Node) : (s.modNode n f).leases = s.leases := rfl
@[simp] theorem State.modNode_frames (s : State) (n : Nat) (f : Node → Node) : (s.modNode n f).frames = s.frames := rfl
@[simp] theorem State.modNode_resv (s : State) (n : Nat) (f : Node → Node) : (s.modNode n f).resv = s.resv := rfl
@[simp] theorem State.modNode_cells (s : State) (n : Nat) (f : Node → Node) : (s.modNode n f).cells = s.cells := rfl
@[simp] theorem State.modNode_used (s : State) (n : Nat) (f : Node → Node) : (s.modNode n f).used = s.used := rfl
@[simp] theorem State.modNode_pinnedCnt (s : State) (n : Nat) (f : Node → Node) : (s.modNode n f).pinnedCnt = s.pinnedCnt := rfl
@[simp] theorem State.modNode_accs (s : State) (n : Nat) (f : Node → Node) : (s.modNode n f).accs = s.accs := rfl
@[simp] theorem State.modNode_nextAcc (s : State) (n : Nat) (f : Node → Node) : (s.modNode n f).nextAcc = s.nextAcc := rfl
@[simp] theorem State.modNode_arrivals (s : State) (n : Nat) (f : Node → Node) : (s.modNode n f).arrivals = s.arrivals := rfl
@[simp] theorem State.modNode_parks (s : State) (n : Nat) (f : Node → Node) : (s.modNode n f).parks = s.parks := rfl
@[simp] theorem State.modNode_wakes (s : State) (n : Nat) (f : Node → Node) : (s.modNode n f).wakes = s.wakes := rfl
@[simp] theorem State.modNode_mxus (s : State) (n : Nat) (f : Node → Node) : (s.modNode n f).mxus = s.mxus := rfl
@[simp] theorem State.modNode_atc (s : State) (n : Nat) (f : Node → Node) : (s.modNode n f).atc = s.atc := rfl
@[simp] theorem State.modNode_treqs (s : State) (n : Nat) (f : Node → Node) : (s.modNode n f).treqs = s.treqs := rfl
@[simp] theorem State.modNode_preqs (s : State) (n : Nat) (f : Node → Node) : (s.modNode n f).preqs = s.preqs := rfl
@[simp] theorem State.modNode_invals (s : State) (n : Nat) (f : Node → Node) : (s.modNode n f).invals = s.invals := rfl
@[simp] theorem State.modNode_caps (s : State) (n : Nat) (f : Node → Node) : (s.modNode n f).caps = s.caps := rfl
@[simp] theorem State.modNode_net (s : State) (n : Nat) (f : Node → Node) : (s.modNode n f).net = s.net := rfl
@[simp] theorem State.modNode_loci (s : State) (n : Nat) (f : Node → Node) : (s.modNode n f).loci = s.loci := rfl
@[simp] theorem State.modNode_reqs (s : State) (n : Nat) (f : Node → Node) : (s.modNode n f).reqs = s.reqs := rfl
@[simp] theorem State.modNode_nextReq (s : State) (n : Nat) (f : Node → Node) : (s.modNode n f).nextReq = s.nextReq := rfl
@[simp] theorem State.modNode_regs (s : State) (n : Nat) (f : Node → Node) : (s.modNode n f).regs = s.regs := rfl
@[simp] theorem State.modNode_lqs (s : State) (n : Nat) (f : Node → Node) : (s.modNode n f).lqs = s.lqs := rfl
@[simp] theorem State.modNode_journal (s : State) (n : Nat) (f : Node → Node) : (s.modNode n f).journal = s.journal := rfl
@[simp] theorem State.modNode_jnext (s : State) (n : Nat) (f : Node → Node) : (s.modNode n f).jnext = s.jnext := rfl
@[simp] theorem State.modNode_slotTab (s : State) (n : Nat) (f : Node → Node) : (s.modNode n f).slotTab = s.slotTab := rfl
@[simp] theorem State.modNode_areas (s : State) (n : Nat) (f : Node → Node) : (s.modNode n f).areas = s.areas := rfl
@[simp] theorem State.modNode_accounts (s : State) (n : Nat) (f : Node → Node) : (s.modNode n f).accounts = s.accounts := rfl
@[simp] theorem State.modNode_period (s : State) (n : Nat) (f : Node → Node) : (s.modNode n f).period = s.period := rfl
@[simp] theorem State.modNode_activity (s : State) (n : Nat) (f : Node → Node) : (s.modNode n f).activity = s.activity := rfl
@[simp] theorem State.modNode_worlds (s : State) (n : Nat) (f : Node → Node) : (s.modNode n f).worlds = s.worlds := rfl
@[simp] theorem State.modNode_keys (s : State) (n : Nat) (f : Node → Node) : (s.modNode n f).keys = s.keys := rfl
@[simp] theorem State.modNode_hostPort (s : State) (n : Nat) (f : Node → Node) : (s.modNode n f).hostPort = s.hostPort := rfl
@[simp] theorem State.modNode_ports (s : State) (n : Nat) (f : Node → Node) : (s.modNode n f).ports = s.ports := rfl
@[simp] theorem State.modNode_proxies (s : State) (n : Nat) (f : Node → Node) : (s.modNode n f).proxies = s.proxies := rfl
@[simp] theorem State.modNode_remote (s : State) (n : Nat) (f : Node → Node) : (s.modNode n f).remote = s.remote := rfl
@[simp] theorem State.modNode_remoteInv (s : State) (n : Nat) (f : Node → Node) : (s.modNode n f).remoteInv = s.remoteInv := rfl
@[simp] theorem State.modNode_failedMods (s : State) (n : Nat) (f : Node → Node) : (s.modNode n f).failedMods = s.failedMods := rfl
@[simp] theorem State.modNode_msi (s : State) (n : Nat) (f : Node → Node) : (s.modNode n f).msi = s.msi := rfl
@[simp] theorem State.modNode_ctxErrs (s : State) (n : Nat) (f : Node → Node) : (s.modNode n f).ctxErrs = s.ctxErrs := rfl
@[simp] theorem State.modNode_errWait (s : State) (n : Nat) (f : Node → Node) : (s.modNode n f).errWait = s.errWait := rfl
@[simp] theorem State.modNode_sent (s : State) (n : Nat) (f : Node → Node) : (s.modNode n f).sent = s.sent := rfl
@[simp] theorem State.modNode_dbg (s : State) (n : Nat) (f : Node → Node) : (s.modNode n f).dbg = s.dbg := rfl
@[simp] theorem State.modNode_scan (s : State) (n : Nat) (f : Node → Node) : (s.modNode n f).scan = s.scan := rfl
@[simp] theorem State.modNode_power (s : State) (n : Nat) (f : Node → Node) : (s.modNode n f).power = s.power := rfl
@[simp] theorem State.modNode_freeze (s : State) (n : Nat) (f : Node → Node) : (s.modNode n f).freeze = s.freeze := rfl
@[simp] theorem State.modNode_powered (s : State) (n : Nat) (f : Node → Node) : (s.modNode n f).powered = s.powered := rfl
@[simp] theorem State.modNode_tripped (s : State) (n : Nat) (f : Node → Node) : (s.modNode n f).tripped = s.tripped := rfl
@[simp] theorem State.modNode_coreMap (s : State) (n : Nat) (f : Node → Node) : (s.modNode n f).coreMap = s.coreMap := rfl
@[simp] theorem State.modNode_spares (s : State) (n : Nat) (f : Node → Node) : (s.modNode n f).spares = s.spares := rfl
@[simp] theorem State.modNode_quarSites (s : State) (n : Nat) (f : Node → Node) : (s.modNode n f).quarSites = s.quarSites := rfl
@[simp] theorem State.modNode_cxlOut (s : State) (n : Nat) (f : Node → Node) : (s.modNode n f).cxlOut = s.cxlOut := rfl
@[simp] theorem State.modNode_traceLost (s : State) (n : Nat) (f : Node → Node) : (s.modNode n f).traceLost = s.traceLost := rfl
@[simp] theorem State.modNode_logWait (s : State) (n : Nat) (f : Node → Node) : (s.modNode n f).logWait = s.logWait := rfl
@[simp] theorem State.modNode_fabTags (s : State) (n : Nat) (f : Node → Node) : (s.modNode n f).fabTags = s.fabTags := rfl
@[simp] theorem State.modNode_fabOut (s : State) (n : Nat) (f : Node → Node) : (s.modNode n f).fabOut = s.fabOut := rfl
@[simp] theorem State.modNode_fabIn (s : State) (n : Nat) (f : Node → Node) : (s.modNode n f).fabIn = s.fabIn := rfl
@[simp] theorem State.modNode_digests (s : State) (n : Nat) (f : Node → Node) : (s.modNode n f).digests = s.digests := rfl
@[simp] theorem State.modNode_rpAhead (s : State) (n : Nat) (f : Node → Node) : (s.modNode n f).rpAhead = s.rpAhead := rfl

@[simp] theorem State.setReg_focus (s : State) (k : Nat) (v : Word) : (s.setReg k v).focus = s.focus := rfl
@[simp] theorem State.setReg_agenda (s : State) (k : Nat) (v : Word) : (s.setReg k v).agenda = s.agenda := rfl
@[simp] theorem State.setReg_nextFree (s : State) (k : Nat) (v : Word) : (s.setReg k v).nextFree = s.nextFree := rfl
@[simp] theorem State.setReg_ptime (s : State) (k : Nat) (v : Word) : (s.setReg k v).ptime = s.ptime := rfl
@[simp] theorem State.setReg_floor (s : State) (k : Nat) (v : Word) : (s.setReg k v).floor = s.floor := rfl
@[simp] theorem State.setReg_cores (s : State) (k : Nat) (v : Word) : (s.setReg k v).cores = s.cores := rfl
@[simp] theorem State.setReg_binds (s : State) (k : Nat) (v : Word) : (s.setReg k v).binds = s.binds := rfl
@[simp] theorem State.setReg_ctxs (s : State) (k : Nat) (v : Word) : (s.setReg k v).ctxs = s.ctxs := rfl
@[simp] theorem State.setReg_mem (s : State) (k : Nat) (v : Word) : (s.setReg k v).mem = s.mem := rfl
@[simp] theorem State.setReg_dram (s : State) (k : Nat) (v : Word) : (s.setReg k v).dram = s.dram := rfl
@[simp] theorem State.setReg_host (s : State) (k : Nat) (v : Word) : (s.setReg k v).host = s.host := rfl
@[simp] theorem State.setReg_hmem (s : State) (k : Nat) (v : Word) : (s.setReg k v).hmem = s.hmem := rfl
@[simp] theorem State.setReg_poison (s : State) (k : Nat) (v : Word) : (s.setReg k v).poison = s.poison := rfl
@[simp] theorem State.setReg_dpoison (s : State) (k : Nat) (v : Word) : (s.setReg k v).dpoison = s.dpoison := rfl
@[simp] theorem State.setReg_full (s : State) (k : Nat) (v : Word) : (s.setReg k v).full = s.full := rfl
@[simp] theorem State.setReg_dirty (s : State) (k : Nat) (v : Word) : (s.setReg k v).dirty = s.dirty := rfl
@[simp] theorem State.setReg_l2 (s : State) (k : Nat) (v : Word) : (s.setReg k v).l2 = s.l2 := rfl
@[simp] theorem State.setReg_leases (s : State) (k : Nat) (v : Word) : (s.setReg k v).leases = s.leases := rfl
@[simp] theorem State.setReg_frames (s : State) (k : Nat) (v : Word) : (s.setReg k v).frames = s.frames := rfl
@[simp] theorem State.setReg_resv (s : State) (k : Nat) (v : Word) : (s.setReg k v).resv = s.resv := rfl
@[simp] theorem State.setReg_cells (s : State) (k : Nat) (v : Word) : (s.setReg k v).cells = s.cells := rfl
@[simp] theorem State.setReg_used (s : State) (k : Nat) (v : Word) : (s.setReg k v).used = s.used := rfl
@[simp] theorem State.setReg_pinnedCnt (s : State) (k : Nat) (v : Word) : (s.setReg k v).pinnedCnt = s.pinnedCnt := rfl
@[simp] theorem State.setReg_accs (s : State) (k : Nat) (v : Word) : (s.setReg k v).accs = s.accs := rfl
@[simp] theorem State.setReg_nextAcc (s : State) (k : Nat) (v : Word) : (s.setReg k v).nextAcc = s.nextAcc := rfl
@[simp] theorem State.setReg_arrivals (s : State) (k : Nat) (v : Word) : (s.setReg k v).arrivals = s.arrivals := rfl
@[simp] theorem State.setReg_parks (s : State) (k : Nat) (v : Word) : (s.setReg k v).parks = s.parks := rfl
@[simp] theorem State.setReg_wakes (s : State) (k : Nat) (v : Word) : (s.setReg k v).wakes = s.wakes := rfl
@[simp] theorem State.setReg_mxus (s : State) (k : Nat) (v : Word) : (s.setReg k v).mxus = s.mxus := rfl
@[simp] theorem State.setReg_atc (s : State) (k : Nat) (v : Word) : (s.setReg k v).atc = s.atc := rfl
@[simp] theorem State.setReg_treqs (s : State) (k : Nat) (v : Word) : (s.setReg k v).treqs = s.treqs := rfl
@[simp] theorem State.setReg_preqs (s : State) (k : Nat) (v : Word) : (s.setReg k v).preqs = s.preqs := rfl
@[simp] theorem State.setReg_invals (s : State) (k : Nat) (v : Word) : (s.setReg k v).invals = s.invals := rfl
@[simp] theorem State.setReg_caps (s : State) (k : Nat) (v : Word) : (s.setReg k v).caps = s.caps := rfl
@[simp] theorem State.setReg_net (s : State) (k : Nat) (v : Word) : (s.setReg k v).net = s.net := rfl
@[simp] theorem State.setReg_nodes (s : State) (k : Nat) (v : Word) : (s.setReg k v).nodes = s.nodes := rfl
@[simp] theorem State.setReg_loci (s : State) (k : Nat) (v : Word) : (s.setReg k v).loci = s.loci := rfl
@[simp] theorem State.setReg_reqs (s : State) (k : Nat) (v : Word) : (s.setReg k v).reqs = s.reqs := rfl
@[simp] theorem State.setReg_nextReq (s : State) (k : Nat) (v : Word) : (s.setReg k v).nextReq = s.nextReq := rfl
@[simp] theorem State.setReg_lqs (s : State) (k : Nat) (v : Word) : (s.setReg k v).lqs = s.lqs := rfl
@[simp] theorem State.setReg_journal (s : State) (k : Nat) (v : Word) : (s.setReg k v).journal = s.journal := rfl
@[simp] theorem State.setReg_jnext (s : State) (k : Nat) (v : Word) : (s.setReg k v).jnext = s.jnext := rfl
@[simp] theorem State.setReg_slotTab (s : State) (k : Nat) (v : Word) : (s.setReg k v).slotTab = s.slotTab := rfl
@[simp] theorem State.setReg_areas (s : State) (k : Nat) (v : Word) : (s.setReg k v).areas = s.areas := rfl
@[simp] theorem State.setReg_accounts (s : State) (k : Nat) (v : Word) : (s.setReg k v).accounts = s.accounts := rfl
@[simp] theorem State.setReg_period (s : State) (k : Nat) (v : Word) : (s.setReg k v).period = s.period := rfl
@[simp] theorem State.setReg_activity (s : State) (k : Nat) (v : Word) : (s.setReg k v).activity = s.activity := rfl
@[simp] theorem State.setReg_worlds (s : State) (k : Nat) (v : Word) : (s.setReg k v).worlds = s.worlds := rfl
@[simp] theorem State.setReg_keys (s : State) (k : Nat) (v : Word) : (s.setReg k v).keys = s.keys := rfl
@[simp] theorem State.setReg_hostPort (s : State) (k : Nat) (v : Word) : (s.setReg k v).hostPort = s.hostPort := rfl
@[simp] theorem State.setReg_ports (s : State) (k : Nat) (v : Word) : (s.setReg k v).ports = s.ports := rfl
@[simp] theorem State.setReg_proxies (s : State) (k : Nat) (v : Word) : (s.setReg k v).proxies = s.proxies := rfl
@[simp] theorem State.setReg_remote (s : State) (k : Nat) (v : Word) : (s.setReg k v).remote = s.remote := rfl
@[simp] theorem State.setReg_remoteInv (s : State) (k : Nat) (v : Word) : (s.setReg k v).remoteInv = s.remoteInv := rfl
@[simp] theorem State.setReg_failedMods (s : State) (k : Nat) (v : Word) : (s.setReg k v).failedMods = s.failedMods := rfl
@[simp] theorem State.setReg_msi (s : State) (k : Nat) (v : Word) : (s.setReg k v).msi = s.msi := rfl
@[simp] theorem State.setReg_ctxErrs (s : State) (k : Nat) (v : Word) : (s.setReg k v).ctxErrs = s.ctxErrs := rfl
@[simp] theorem State.setReg_errWait (s : State) (k : Nat) (v : Word) : (s.setReg k v).errWait = s.errWait := rfl
@[simp] theorem State.setReg_sent (s : State) (k : Nat) (v : Word) : (s.setReg k v).sent = s.sent := rfl
@[simp] theorem State.setReg_dbg (s : State) (k : Nat) (v : Word) : (s.setReg k v).dbg = s.dbg := rfl
@[simp] theorem State.setReg_scan (s : State) (k : Nat) (v : Word) : (s.setReg k v).scan = s.scan := rfl
@[simp] theorem State.setReg_power (s : State) (k : Nat) (v : Word) : (s.setReg k v).power = s.power := rfl
@[simp] theorem State.setReg_freeze (s : State) (k : Nat) (v : Word) : (s.setReg k v).freeze = s.freeze := rfl
@[simp] theorem State.setReg_powered (s : State) (k : Nat) (v : Word) : (s.setReg k v).powered = s.powered := rfl
@[simp] theorem State.setReg_tripped (s : State) (k : Nat) (v : Word) : (s.setReg k v).tripped = s.tripped := rfl
@[simp] theorem State.setReg_coreMap (s : State) (k : Nat) (v : Word) : (s.setReg k v).coreMap = s.coreMap := rfl
@[simp] theorem State.setReg_spares (s : State) (k : Nat) (v : Word) : (s.setReg k v).spares = s.spares := rfl
@[simp] theorem State.setReg_quarSites (s : State) (k : Nat) (v : Word) : (s.setReg k v).quarSites = s.quarSites := rfl
@[simp] theorem State.setReg_cxlOut (s : State) (k : Nat) (v : Word) : (s.setReg k v).cxlOut = s.cxlOut := rfl
@[simp] theorem State.setReg_traceLost (s : State) (k : Nat) (v : Word) : (s.setReg k v).traceLost = s.traceLost := rfl
@[simp] theorem State.setReg_logWait (s : State) (k : Nat) (v : Word) : (s.setReg k v).logWait = s.logWait := rfl
@[simp] theorem State.setReg_fabTags (s : State) (k : Nat) (v : Word) : (s.setReg k v).fabTags = s.fabTags := rfl
@[simp] theorem State.setReg_fabOut (s : State) (k : Nat) (v : Word) : (s.setReg k v).fabOut = s.fabOut := rfl
@[simp] theorem State.setReg_fabIn (s : State) (k : Nat) (v : Word) : (s.setReg k v).fabIn = s.fabIn := rfl
@[simp] theorem State.setReg_digests (s : State) (k : Nat) (v : Word) : (s.setReg k v).digests = s.digests := rfl
@[simp] theorem State.setReg_rpAhead (s : State) (k : Nat) (v : Word) : (s.setReg k v).rpAhead = s.rpAhead := rfl

/-! ## What a part reads as after its update -/

theorem State.core_setCore (s : State) (c j : Nat) (k : Core) : (s.setCore c k).core j = if j = c then k else s.core j :=
  SMap.get_set _ _ _ _ _

@[simp] theorem State.core_setCore_same (s : State) (c : Nat) (k : Core) : (s.setCore c k).core c = k := by
  simp [State.core_setCore]

theorem State.core_modCore (s : State) (c j : Nat) (f : Core → Core) :
    (s.modCore c f).core j = if j = c then f (s.core c) else s.core j := State.core_setCore _ _ _ _

@[simp] theorem State.core_modCore_same (s : State) (c : Nat) (f : Core → Core) : (s.modCore c f).core c = f (s.core c) := by
  simp [State.core_modCore]

@[simp] theorem State.modCore_modCore (s : State) (c : Nat) (f g : Core → Core) :
    (s.modCore c f).modCore c g = s.modCore c (fun k => g (f k)) := by
  simp [State.modCore, State.setCore, State.core]

@[simp] theorem State.core_setBind (s : State) (n c j : Nat) (b : Bind) : (s.setBind n c b).core j = s.core j := rfl
@[simp] theorem State.core_modBind (s : State) (n c j : Nat) (f : Bind → Bind) : (s.modBind n c f).core j = s.core j := rfl
@[simp] theorem State.core_modCur (s : State) (c j : Nat) (f : Bind → Bind) : (s.modCur c f).core j = s.core j := rfl
@[simp] theorem State.core_modMt (s : State) (c n j : Nat) (f : Mt → Mt) : (s.modMt c n f).core j = s.core j := rfl
@[simp] theorem State.core_modCtx (s : State) (n j : Nat) (f : Ctx → Ctx) : (s.modCtx n f).core j = s.core j := rfl
@[simp] theorem State.core_modFrame (s : State) (n j : Nat) (f : Frame → Frame) : (s.modFrame n f).core j = s.core j := rfl
@[simp] theorem State.core_modNode (s : State) (n j : Nat) (f : Node → Node) : (s.modNode n f).core j = s.core j := rfl
@[simp] theorem State.core_setReg (s : State) (k j : Nat) (v : Word) : (s.setReg k v).core j = s.core j := rfl

@[simp] theorem State.ctxOf_setBind (s : State) (n c j : Nat) (b : Bind) : (s.setBind n c b).ctxOf j = s.ctxOf j := rfl
@[simp] theorem State.ctxOf_modBind (s : State) (n c j : Nat) (f : Bind → Bind) : (s.modBind n c f).ctxOf j = s.ctxOf j := rfl
@[simp] theorem State.ctxOf_modCur (s : State) (c j : Nat) (f : Bind → Bind) : (s.modCur c f).ctxOf j = s.ctxOf j := rfl
@[simp] theorem State.ctxOf_modMt (s : State) (c n j : Nat) (f : Mt → Mt) : (s.modMt c n f).ctxOf j = s.ctxOf j := rfl
@[simp] theorem State.ctxOf_modCtx (s : State) (n j : Nat) (f : Ctx → Ctx) : (s.modCtx n f).ctxOf j = s.ctxOf j := rfl
@[simp] theorem State.ctxOf_modFrame (s : State) (n j : Nat) (f : Frame → Frame) : (s.modFrame n f).ctxOf j = s.ctxOf j := rfl
@[simp] theorem State.ctxOf_setReg (s : State) (k j : Nat) (v : Word) : (s.setReg k v).ctxOf j = s.ctxOf j := rfl

theorem State.ctxOf_modCore (s : State) (c j : Nat) (f : Core → Core) (h : (f (s.core c)).ctx = (s.core c).ctx) :
    (s.modCore c f).ctxOf j = s.ctxOf j := by
  unfold State.ctxOf; rw [State.core_modCore]; split
  · subst j; rw [h]
  · rfl

theorem State.bind_setBind (s : State) (n c m j : Nat) (b : Bind) :
    (s.setBind n c b).bind m j = if bindKey m j = bindKey n c then b else s.bind m j := SMap.get_set _ _ _ _ _

@[simp] theorem State.bind_setBind_same (s : State) (n c : Nat) (b : Bind) : (s.setBind n c b).bind n c = b := by
  simp [State.bind_setBind]

@[simp] theorem State.bind_modBind_same (s : State) (n c : Nat) (f : Bind → Bind) : (s.modBind n c f).bind n c = f (s.bind n c) := by
  simp [State.modBind]

theorem State.bind_modBind (s : State) (n c m j : Nat) (f : Bind → Bind) :
    (s.modBind n c f).bind m j = if bindKey m j = bindKey n c then f (s.bind n c) else s.bind m j :=
  State.bind_setBind _ _ _ _ _ _

@[simp] theorem State.modBind_modBind (s : State) (n c : Nat) (f g : Bind → Bind) :
    (s.modBind n c f).modBind n c g = s.modBind n c (fun b => g (f b)) := by
  simp [State.modBind, State.setBind, State.bind]

@[simp] theorem State.bind_setCore (s : State) (c n j : Nat) (k : Core) : (s.setCore c k).bind n j = s.bind n j := rfl
@[simp] theorem State.bind_modCore (s : State) (c n j : Nat) (f : Core → Core) : (s.modCore c f).bind n j = s.bind n j := rfl
@[simp] theorem State.bind_modCtx (s : State) (c n j : Nat) (f : Ctx → Ctx) : (s.modCtx c f).bind n j = s.bind n j := rfl
@[simp] theorem State.bind_modFrame (s : State) (c n j : Nat) (f : Frame → Frame) : (s.modFrame c f).bind n j = s.bind n j := rfl
@[simp] theorem State.bind_setReg (s : State) (k n j : Nat) (v : Word) : (s.setReg k v).bind n j = s.bind n j := rfl

@[simp] theorem State.cur_modCur_same (s : State) (c : Nat) (f : Bind → Bind) : (s.modCur c f).cur c = f (s.cur c) := by
  simp [State.cur, State.modCur]

@[simp] theorem State.modCur_modCur (s : State) (c : Nat) (f g : Bind → Bind) :
    (s.modCur c f).modCur c g = s.modCur c (fun b => g (f b)) := by
  simp [State.modCur]

theorem State.cur_modCore (s : State) (c j : Nat) (f : Core → Core) (h : (f (s.core c)).ctx = (s.core c).ctx) :
    (s.modCore c f).cur j = s.cur j := by
  simp [State.cur, State.ctxOf_modCore _ _ _ _ h]

@[simp] theorem Bind.mt_modMt_same (b : Bind) (n : Nat) (f : Mt → Mt) : (b.modMt n f).mt n = f (b.mt n) := by
  simp [Bind.modMt, Bind.mt]

theorem Bind.mt_modMt (b : Bind) (n j : Nat) (f : Mt → Mt) : (b.modMt n f).mt j = if j = n then f (b.mt n) else b.mt j :=
  SMap.get_set _ _ _ _ _

@[simp] theorem Bind.modMt_modMt (b : Bind) (n : Nat) (f g : Mt → Mt) : (b.modMt n f).modMt n g = b.modMt n (fun m => g (f m)) := by
  simp [Bind.modMt, Bind.mt]

@[simp] theorem Bind.slot_modSlot_same (b : Bind) (n : Nat) (f : Slot → Slot) : (b.modSlot n f).slot n = f (b.slot n) := by
  simp [Bind.modSlot, Bind.slot]

@[simp] theorem State.cur_modMt_same (s : State) (c n : Nat) (f : Mt → Mt) : (s.modMt c n f).cur c = (s.cur c).modMt n f := by
  simp [State.modMt]

@[simp] theorem State.ctx_modCtx_same (s : State) (n : Nat) (f : Ctx → Ctx) : (s.modCtx n f).ctx n = f (s.ctx n) := by
  simp [State.modCtx, State.ctx]

theorem State.frameBase_modFrame (s : State) (n j : Nat) (f : Frame → Frame) : (s.modFrame n f).frameBase j = s.frameBase j := rfl

@[simp] theorem State.frame_modFrame_same (s : State) (n : Nat) (f : Frame → Frame) : (s.modFrame n f).frame n = f (s.frame n) := by
  unfold State.frame
  rw [State.frameBase_modFrame]
  exact SMap.get_set_same _ _ _ _

theorem State.frame_modFrame (s : State) (n j : Nat) (f : Frame → Frame) :
    (s.modFrame n f).frame j = if j = n then f (s.frame n) else s.frame j := by
  by_cases h : j = n
  · subst h; simp
  · simp only [h, if_false]
    unfold State.frame
    rw [State.frameBase_modFrame]
    exact SMap.get_set_other _ _ _ _ h

@[simp] theorem State.node_modNode_same (s : State) (n : Nat) (f : Node → Node) : (s.modNode n f).node n = f (s.node n) := by
  simp [State.modNode, State.node]

theorem State.reg_setReg (s : State) (k j : Nat) (v : Word) : (s.setReg k v).reg j = if j = k then v else s.reg j := by
  unfold State.reg State.setReg
  by_cases h : v = resetReg k
  · by_cases hj : j = k
    · subst hj; simp [h, SMap.find?_del]
    · simp [h, SMap.find?_del, hj]
  · by_cases hj : j = k
    · subst hj; simp [h, SMap.find?_put]
    · simp [h, SMap.find?_put, hj]

@[simp] theorem State.reg_setReg_same (s : State) (k : Nat) (v : Word) : (s.setReg k v).reg k = v := by
  simp [State.reg_setReg]

end Sys2Proof.Machine
end

