-- ==== Sys2Proof/Laws/Memory.lean ====
section
/-! SUPPORT. The tables of bytes: what a store reads back as, what it leaves alone, and that every operation over memory keeps
the canonical form. -/
namespace Sys2Proof.Machine

/-! ## Little-endian numbers and the CRC of a flit -/

theorem length_leBytes (n v : Nat) : (leBytes n v).length = n := by
  induction n generalizing v with
  | zero => rfl
  | succ n ih => simp [leBytes, ih]

theorem ofLe_leBytes (n v : Nat) : ofLe (leBytes n v) = v % 256 ^ n := by
  induction n generalizing v with
  | zero => simp [ofLe, leBytes, Nat.mod_one]
  | succ n ih =>
    simp only [leBytes, ofLe, ih, BitVec.toNat_ofNat]
    have h := Nat.mod_mul (x := v) (a := 256) (b := 256 ^ n)
    rw [show (256 : Nat) ^ (n + 1) = 256 * 256 ^ n from Nat.pow_succ', h]

/-- A flit of 248 bytes followed by its CRC is good (R363, R410). -/
theorem flitGood_append (b : List Byte) (h : b.length = 248) : flitGood (b ++ leBytes 8 (crc64 b).toNat) = true := by
  have ht : (b ++ leBytes 8 (crc64 b).toNat).take 248 = b := by rw [← h]; exact List.take_left' rfl
  have hd : (b ++ leBytes 8 (crc64 b).toNat).drop 248 = leBytes 8 (crc64 b).toNat := by rw [← h]; exact List.drop_left' rfl
  have hm : ofLe (leBytes 8 (crc64 b).toNat) = (crc64 b).toNat := by rw [ofLe_leBytes]; exact Nat.mod_eq_of_lt (crc64 b).isLt
  simp [flitGood, ht, hd, hm, length_leBytes, h]

/-! ## Bytes stored in a table -/

theorem get_putBytes (m : SMap Byte) (a : Nat) (bs : List Byte) (j : Nat) :
    SMap.get 0 (putBytes m a bs) j = if a ≤ j ∧ j < a + bs.length then bs.getD (j - a) 0 else SMap.get 0 m j := by
  induction bs generalizing m a with
  | nil => simp only [putBytes, List.length_nil]; rw [if_neg (by omega)]
  | cons b t ih =>
    simp only [putBytes, ih, SMap.get_set, List.length_cons]
    by_cases h : j = a
    · subst h
      rw [if_neg (by omega), if_pos rfl, if_pos (by omega), Nat.sub_self, List.getD_cons_zero]
    · by_cases h2 : a + 1 ≤ j ∧ j < a + 1 + t.length
      · have h4 : j - a = (j - (a + 1)) + 1 := by omega
        rw [if_pos h2, if_pos (by omega), h4, List.getD_cons_succ]
      · rw [if_neg h2, if_neg h, if_neg (by omega)]

theorem wf_putBytes {m : SMap Byte} (a : Nat) (bs : List Byte) (h : Memory.wf m = true) : Memory.wf (putBytes m a bs) = true := by
  induction bs generalizing m a with
  | nil => exact h
  | cons b t ih => exact ih (a + 1) (SMap.wf_set a b h)

theorem wf_reset : Memory.wf State.reset.mem = true ∧ Memory.wf State.reset.host = true ∧ Memory.wf State.reset.dram = true := by
  decide

/-- Equal reads make equal tables. -/
theorem Memory.ext {m n : SMap Byte} (hm : Memory.wf m = true) (hn : Memory.wf n = true) (h : ∀ a, SMap.get 0 m a = SMap.get 0 n a) :
    m = n := SMap.wf_ext hm hn h

/-! ## What the operations leave of the tables -/

@[simp] theorem cleanPoison_mem (s : State) (la n : Nat) : (s.cleanPoison la n).mem = s.mem := by
  unfold State.cleanPoison; split <;> rfl

@[simp] theorem cleanPoison_host (s : State) (la n : Nat) : (s.cleanPoison la n).host = s.host := by
  unfold State.cleanPoison; split <;> rfl

@[simp] theorem cleanPoison_dram (s : State) (la n : Nat) : (s.cleanPoison la n).dram = s.dram := by
  unfold State.cleanPoison; split <;> rfl

@[simp] theorem cleanPoison_regs (s : State) (la n : Nat) : (s.cleanPoison la n).regs = s.regs := by
  unfold State.cleanPoison; split <;> rfl

@[simp] theorem poisonBack_mem (s : State) (l : Nat) : (s.poisonBack l).mem = s.mem := by
  unfold State.poisonBack; dsimp only; repeat' split
  all_goals rfl

@[simp] theorem poisonBack_host (s : State) (l : Nat) : (s.poisonBack l).host = s.host := by
  unfold State.poisonBack; dsimp only; repeat' split
  all_goals rfl

@[simp] theorem poisonBack_regs (s : State) (l : Nat) : (s.poisonBack l).regs = s.regs := by
  unfold State.poisonBack; dsimp only; repeat' split
  all_goals rfl

@[simp] theorem writeBack_mem (s : State) (l : Nat) : (s.writeBack l).mem = s.mem := by
  unfold State.writeBack; split <;> simp

@[simp] theorem writeBack_host (s : State) (l : Nat) : (s.writeBack l).host = s.host := by
  unfold State.writeBack; split <;> simp

@[simp] theorem writeBack_regs (s : State) (l : Nat) : (s.writeBack l).regs = s.regs := by
  unfold State.writeBack; split <;> simp

/-- A write at its target touches memory or host memory, never both, and no register. -/
theorem writeAt_host {s : State} {la : Nat} (bs : List Byte) (h : isHost la = true) :
    (s.writeAt la bs).mem = s.mem ∧ (s.writeAt la bs).host = putBytes s.host (s.hostAddr la) bs ∧ (s.writeAt la bs).regs = s.regs := by
  simp [State.writeAt, h]

theorem writeAt_mem {s : State} {la : Nat} (bs : List Byte) (h : isHost la = false) :
    (s.writeAt la bs).mem = putBytes s.mem la bs ∧ (s.writeAt la bs).host = s.host ∧ (s.writeAt la bs).regs = s.regs := by
  simp only [State.writeAt, h, Bool.false_eq_true, ↓reduceIte]
  split
  · split <;> simp
  · simp

/-- The host address of a host-frame address depends on the host windows alone (R356). -/
theorem hostAddr_congr {s t : State} (h : t.regs = s.regs) (la : Nat) : t.hostAddr la = s.hostAddr la := by
  simp [State.hostAddr, State.reg, h]

theorem byteAt_congr {s t : State} (h1 : t.mem = s.mem) (h2 : t.host = s.host) (h3 : t.regs = s.regs) (la : Nat) :
    t.byteAt la = s.byteAt la := by
  simp [State.byteAt, h1, h2, hostAddr_congr h3]

/-- A write below host memory reads back, byte by byte. -/
theorem byteAt_writeAt {s : State} {la : Nat} (bs : List Byte) {k : Nat} (h : isHost la = false) (hk : isHost (la + k) = false)
    (hl : k < bs.length) : (s.writeAt la bs).byteAt (la + k) = bs.getD k 0 := by
  have := (writeAt_mem (s := s) bs h).1
  simp only [State.byteAt, hk, this, get_putBytes, Bool.false_eq_true, ↓reduceIte]
  rw [if_pos (by omega)]
  congr 1; omega

/-- A write below host memory leaves every byte outside it. -/
theorem elsewhere_writeAt (s : State) {la : Nat} (bs : List Byte) (h : isHost la = false) :
    ElsewhereSame la bs.length s (s.writeAt la bs) := by
  intro a ha
  have hw := writeAt_mem (s := s) bs h
  simp only [State.byteAt, hw.1, hw.2.1, hostAddr_congr hw.2.2, get_putBytes]
  rw [if_neg (show ¬(la ≤ a ∧ a < la + bs.length) by omega)]

/-! ## Every operation keeps the canonical form -/

/-- The three tables of bytes are in their canonical form. -/
def State.tablesOk (s : State) : Prop := Memory.wf s.mem = true ∧ Memory.wf s.host = true ∧ Memory.wf s.dram = true

theorem tablesOk_of_eq {s t : State} (h : s.tablesOk) (h1 : t.mem = s.mem) (h2 : t.host = s.host) (h3 : t.dram = s.dram) : t.tablesOk := by
  unfold State.tablesOk at *; rw [h1, h2, h3]; exact h

theorem writeBack_dram (s : State) (l : Nat) : (s.writeBack l).dram =
    if SMap.get false s.dirty l then putBytes s.dram (l * 128) (s.bytesAt (l * 128) 128) else s.dram := by
  unfold State.writeBack; cases h : SMap.get false s.dirty l <;> simp

theorem tablesOk_writeBack {s : State} (l : Nat) (h : s.tablesOk) : (s.writeBack l).tablesOk := by
  obtain ⟨h1, h2, h3⟩ := h
  have h4 : Memory.wf (s.writeBack l).dram = true := by
    simp only [writeBack_dram]; split
    · exact wf_putBytes _ _ h3
    · exact h3
  unfold State.tablesOk
  rewrite [writeBack_mem, writeBack_host]
  exact ⟨h1, h2, h4⟩

theorem tablesOk_writeAt {s : State} (la : Nat) (bs : List Byte) (h : s.tablesOk) : (s.writeAt la bs).tablesOk := by
  unfold State.writeAt
  split
  · exact ⟨h.1, wf_putBytes _ _ h.2.1, h.2.2⟩
  · have h1 : (({ s with mem := putBytes s.mem la bs } : State).cleanPoison la bs.length).tablesOk :=
      ⟨by simpa using wf_putBytes la bs h.1, by simpa using h.2.1, by simpa using h.2.2⟩
    dsimp only
    split
    · split
      · exact tablesOk_writeBack _ h1
      · exact h1
    · exact h1

theorem tablesOk_dropLine {s : State} (l : Nat) (h : s.tablesOk) : (s.dropLine l).tablesOk :=
  ⟨wf_putBytes _ _ h.1, h.2.1, h.2.2⟩

theorem tablesOk_clearBank {s : State} (c n : Nat) (h : s.tablesOk) : (s.clearBank c n).tablesOk :=
  ⟨SMap.wf_filter _ h.1, h.2.1, h.2.2⟩

theorem tablesOk_modCore {s : State} (c : Nat) (f : Core → Core) (h : s.tablesOk) : (s.modCore c f).tablesOk := h

theorem tablesOk_foldl {α : Type} (f : State → α → State) (hf : ∀ s a, s.tablesOk → (f s a).tablesOk) (l : List α) {s : State}
    (h : s.tablesOk) : (l.foldl f s).tablesOk := by
  induction l generalizing s with
  | nil => exact h
  | cons a t ih => exact ih (hf s a h)

theorem tablesOk_freeBanks {s : State} (ctx : Nat) (h : s.tablesOk) : (s.freeBanks ctx).tablesOk :=
  tablesOk_foldl _ (fun _ _ h => tablesOk_modCore _ _ (tablesOk_clearBank _ _ h)) _ h

end Sys2Proof.Machine
end

