-- ==== Sys2Proof/Laws/PerInstr.lean ====
section
/-! SUPPORT. The encoder and the decoder agree, instruction by instruction: the word of a well-formed instruction is read as that
instruction, and bit 0 tells its length (R67, R70-R72, R77-R81, R85). -/
set_option linter.unusedSimpArgs false
namespace Sys2Proof.Laws.RoundTrip

/-! ## Fields of a concatenation -/

theorem ext_low {m n : Nat} (x : BitVec m) (y : BitVec n) (lo len : Nat) (h : lo + len ≤ n) :
    (x ++ y).extractLsb' lo len = y.extractLsb' lo len := by
  apply BitVec.eq_of_getLsbD_eq; intro i hi
  have : lo + i < n := by omega
  simp [BitVec.getLsbD_append, this, hi]

theorem ext_high {m n : Nat} (x : BitVec m) (y : BitVec n) (lo len : Nat) (h : n ≤ lo) :
    (x ++ y).extractLsb' lo len = x.extractLsb' (lo - n) len := by
  apply BitVec.eq_of_getLsbD_eq; intro i hi
  have h1 : ¬ lo + i < n := by omega
  have h2 : lo + i - n = lo - n + i := by omega
  simp [BitVec.getLsbD_append, h1, h2]

theorem ext_self {n : Nat} (x : BitVec n) : x.extractLsb' 0 n = x := by
  apply BitVec.eq_of_getLsbD_eq; intro i hi
  simp [hi]

theorem join {n : Nat} (x : BitVec n) (lo a b : Nat) : x.extractLsb' (lo + b) a ++ x.extractLsb' lo b = x.extractLsb' lo (a + b) := by
  apply BitVec.eq_of_getLsbD_eq; intro i hi
  simp only [BitVec.getLsbD_extractLsb', BitVec.getLsbD_append]
  by_cases h : i < b
  · have : i < a + b := by omega
    simp [h, this]
  · have h1 : i - b < a := by omega
    have h2 : lo + b + (i - b) = lo + i := by omega
    simp [h, h1, h2, hi]

theorem ext_ext {n : Nat} (x : BitVec n) (lo len lo' len' : Nat) (h : lo' + len' ≤ len) :
    (x.extractLsb' lo len).extractLsb' lo' len' = x.extractLsb' (lo + lo') len' := by
  apply BitVec.eq_of_getLsbD_eq; intro i hi
  have : lo' + i < len := by omega
  simp [this, Nat.add_assoc]

/-! ## The fields of the R shape (R70) -/

section
variable (f7 : BitVec 7) (b a : BitVec 5) (f3 : BitVec 3) (d : BitVec 5) (m : BitVec 7)

theorem rs_ge7 (lo len : Nat) (h : 7 ≤ lo) :
   (rShape f7 b a f3 d m).extractLsb' lo len = (f7 ++ b ++ a ++ f3 ++ d).extractLsb' (lo - 7) len := ext_high (f7 ++ b ++ a ++ f3 ++ d) m lo len h
theorem rs_m : (rShape f7 b a f3 d m).extractLsb' 0 7 = m := (ext_low (f7 ++ b ++ a ++ f3 ++ d) m 0 7 (by decide)).trans (ext_self m)
theorem rs_d (lo len : Nat) (h : 7 ≤ lo) (h2 : lo + len ≤ 12) : (rShape f7 b a f3 d m).extractLsb' lo len = d.extractLsb' (lo - 7) len :=
  (rs_ge7 f7 b a f3 d m lo len h).trans (ext_low (f7 ++ b ++ a ++ f3) d (lo - 7) len (by omega))
theorem rs_ge12 (lo len : Nat) (h : 12 ≤ lo) :
   (rShape f7 b a f3 d m).extractLsb' lo len = (f7 ++ b ++ a ++ f3).extractLsb' (lo - 12) len :=
  (rs_ge7 f7 b a f3 d m lo len (by omega)).trans ((ext_high (f7 ++ b ++ a ++ f3) d (lo - 7) len (by omega)).trans (by rw [show lo - 7 - 5 = lo - 12 by omega]))
theorem rs_f3 : (rShape f7 b a f3 d m).extractLsb' 12 3 = f3 :=
  (rs_ge12 f7 b a f3 d m 12 3 (by decide)).trans ((ext_low (f7 ++ b ++ a) f3 0 3 (by decide)).trans (ext_self f3))
theorem rs_ge15 (lo len : Nat) (h : 15 ≤ lo) :
   (rShape f7 b a f3 d m).extractLsb' lo len = (f7 ++ b ++ a).extractLsb' (lo - 15) len :=
  (rs_ge12 f7 b a f3 d m lo len (by omega)).trans ((ext_high (f7 ++ b ++ a) f3 (lo - 12) len (by omega)).trans (by rw [show lo - 12 - 3 = lo - 15 by omega]))
theorem rs_a (lo len : Nat) (h : 15 ≤ lo) (h2 : lo + len ≤ 20) : (rShape f7 b a f3 d m).extractLsb' lo len = a.extractLsb' (lo - 15) len :=
  (rs_ge15 f7 b a f3 d m lo len h).trans (ext_low (f7 ++ b) a (lo - 15) len (by omega))
theorem rs_ge20 (lo len : Nat) (h : 20 ≤ lo) : (rShape f7 b a f3 d m).extractLsb' lo len = (f7 ++ b).extractLsb' (lo - 20) len :=
  (rs_ge15 f7 b a f3 d m lo len (by omega)).trans ((ext_high (f7 ++ b) a (lo - 15) len (by omega)).trans (by rw [show lo - 15 - 5 = lo - 20 by omega]))
theorem rs_b (lo len : Nat) (h : 20 ≤ lo) (h2 : lo + len ≤ 25) : (rShape f7 b a f3 d m).extractLsb' lo len = b.extractLsb' (lo - 20) len :=
  (rs_ge20 f7 b a f3 d m lo len h).trans (ext_low f7 b (lo - 20) len (by omega))
theorem rs_f7 (lo len : Nat) (h : 25 ≤ lo) : (rShape f7 b a f3 d m).extractLsb' lo len = f7.extractLsb' (lo - 25) len :=
  (rs_ge20 f7 b a f3 d m lo len (by omega)).trans ((ext_high f7 b (lo - 20) len (by omega)).trans (by rw [show lo - 20 - 5 = lo - 25 by omega]))
theorem rs_bit0 : (rShape f7 b a f3 d m).getLsbD 0 = m.getLsbD 0 := by
  simpa using congrArg (fun x => x.getLsbD 0) (rs_m f7 b a f3 d m)

/-- The immediate of the I format (R71). -/
theorem rs_i12 : (rShape f7 b a f3 d m).extractLsb' 20 12 = f7 ++ b :=
  (rs_ge20 f7 b a f3 d m 20 12 (by decide)).trans (ext_self (f7 ++ b))

/-- The immediate of the U and J formats (R71). -/
theorem rs_i20 : (rShape f7 b a f3 d m).extractLsb' 12 20 = f7 ++ b ++ a ++ f3 :=
  (rs_ge12 f7 b a f3 d m 12 20 (by decide)).trans (ext_self (f7 ++ b ++ a ++ f3))

/-- A shift amount (R96). -/
theorem rs_i6 (x : BitVec 6) (h : BitVec 6) :
    (rShape (x ++ h.extractLsb' 5 1) (h.extractLsb' 0 5) a f3 d m).extractLsb' 20 6 = h := by
  rw [rs_ge20 _ _ _ _ _ _ 20 6 (by decide)]
  apply BitVec.eq_of_getLsbD_eq; intro i hi
  simp only [BitVec.getLsbD_extractLsb', BitVec.getLsbD_append]
  by_cases h5 : i < 5
  · simp [h5, hi]
  · have : i = 5 := by omega
    subst this; simp

/-- The scope of a FENCE (R79). -/
theorem rs_fence (x : BitVec 5) (s : BitVec 3) (k : BitVec 4) :
    (rShape (x ++ s.extractLsb' 1 2) (s.extractLsb' 0 1 ++ k) a f3 d m).extractLsb' 24 3 = s := by
  rw [rs_ge20 _ _ _ _ _ _ 24 3 (by decide)]
  apply BitVec.eq_of_getLsbD_eq; intro i hi
  simp only [BitVec.getLsbD_extractLsb', BitVec.getLsbD_append]
  have : i = 0 ∨ i = 1 ∨ i = 2 := by omega
  rcases this with h | h | h <;> subst h <;> simp

end

theorem imm12 (i : BitVec 12) : i.extractLsb' 5 7 ++ i.extractLsb' 0 5 = i := (join i 0 7 5).trans (ext_self i)

theorem imm20 (i : BitVec 20) : i.extractLsb' 13 7 ++ i.extractLsb' 8 5 ++ i.extractLsb' 3 5 ++ i.extractLsb' 0 3 = i := by
  have h1 : i.extractLsb' 13 7 ++ i.extractLsb' 8 5 = i.extractLsb' 8 12 := join i 8 7 5
  have h2 : i.extractLsb' 8 12 ++ i.extractLsb' 3 5 = i.extractLsb' 3 17 := join i 3 12 5
  have h3 : i.extractLsb' 3 17 ++ i.extractLsb' 0 3 = i.extractLsb' 0 20 := join i 0 17 3
  rw [h1, h2, h3, ext_self]

/-! ## Pairs, triples and quadruples of fields -/

theorem cat41_hi (x : BitVec 4) (y : BitVec 1) : (x ++ y : BitVec 5).extractLsb' 1 4 = x := (ext_high x y 1 4 (by decide)).trans (ext_self x)
theorem cat41_lo (x : BitVec 4) (y : BitVec 1) : (x ++ y : BitVec 5).extractLsb' 0 1 = y := (ext_low x y 0 1 (by decide)).trans (ext_self y)
theorem cat61_hi (x : BitVec 6) (y : BitVec 1) : (x ++ y : BitVec 7).extractLsb' 1 6 = x := (ext_high x y 1 6 (by decide)).trans (ext_self x)
theorem cat61_lo (x : BitVec 6) (y : BitVec 1) : (x ++ y : BitVec 7).extractLsb' 0 1 = y := (ext_low x y 0 1 (by decide)).trans (ext_self y)
theorem cat34_hi (x : BitVec 3) (y : BitVec 4) : (x ++ y : BitVec 7).extractLsb' 4 3 = x := (ext_high x y 4 3 (by decide)).trans (ext_self x)
theorem cat34_lo (x : BitVec 3) (y : BitVec 4) : (x ++ y : BitVec 7).extractLsb' 0 4 = y := (ext_low x y 0 4 (by decide)).trans (ext_self y)
theorem cat32_hi (x : BitVec 3) (y : BitVec 2) : (x ++ y : BitVec 5).extractLsb' 2 3 = x := (ext_high x y 2 3 (by decide)).trans (ext_self x)
theorem cat32_lo (x : BitVec 3) (y : BitVec 2) : (x ++ y : BitVec 5).extractLsb' 0 2 = y := (ext_low x y 0 2 (by decide)).trans (ext_self y)
theorem cat16_hi (x : BitVec 1) (y : BitVec 6) : (x ++ y : BitVec 7).extractLsb' 6 1 = x := (ext_high x y 6 1 (by decide)).trans (ext_self x)
theorem cat16_lo (x : BitVec 1) (y : BitVec 6) : (x ++ y : BitVec 7).extractLsb' 0 6 = y := (ext_low x y 0 6 (by decide)).trans (ext_self y)
theorem cat52_hi (x : BitVec 5) (y : BitVec 2) : (x ++ y : BitVec 7).extractLsb' 2 5 = x := (ext_high x y 2 5 (by decide)).trans (ext_self x)
theorem cat52_lo (x : BitVec 5) (y : BitVec 2) : (x ++ y : BitVec 7).extractLsb' 0 2 = y := (ext_low x y 0 2 (by decide)).trans (ext_self y)
theorem cat13_hi (x : BitVec 1) (y : BitVec 3) : (x ++ y : BitVec 4).extractLsb' 3 1 = x := (ext_high x y 3 1 (by decide)).trans (ext_self x)
theorem cat13_lo (x : BitVec 1) (y : BitVec 3) : (x ++ y : BitVec 4).extractLsb' 0 3 = y := (ext_low x y 0 3 (by decide)).trans (ext_self y)
theorem cat14_hi (x : BitVec 1) (y : BitVec 4) : (x ++ y : BitVec 5).extractLsb' 4 1 = x := (ext_high x y 4 1 (by decide)).trans (ext_self x)
theorem cat14_lo (x : BitVec 1) (y : BitVec 4) : (x ++ y : BitVec 5).extractLsb' 0 4 = y := (ext_low x y 0 4 (by decide)).trans (ext_self y)
theorem cat23_hi (x : BitVec 2) (y : BitVec 3) : (x ++ y : BitVec 5).extractLsb' 3 2 = x := (ext_high x y 3 2 (by decide)).trans (ext_self x)
theorem cat23_lo (x : BitVec 2) (y : BitVec 3) : (x ++ y : BitVec 5).extractLsb' 0 3 = y := (ext_low x y 0 3 (by decide)).trans (ext_self y)
theorem cat25_hi (x : BitVec 2) (y : BitVec 5) : (x ++ y : BitVec 7).extractLsb' 5 2 = x := (ext_high x y 5 2 (by decide)).trans (ext_self x)
theorem cat25_lo (x : BitVec 2) (y : BitVec 5) : (x ++ y : BitVec 7).extractLsb' 0 5 = y := (ext_low x y 0 5 (by decide)).trans (ext_self y)
theorem cat63_hi (x : BitVec 6) (y : BitVec 3) : (x ++ y : BitVec 9).extractLsb' 3 6 = x := (ext_high x y 3 6 (by decide)).trans (ext_self x)
theorem cat63_lo (x : BitVec 6) (y : BitVec 3) : (x ++ y : BitVec 9).extractLsb' 0 3 = y := (ext_low x y 0 3 (by decide)).trans (ext_self y)
theorem cat15_hi (x : BitVec 1) (y : BitVec 5) : (x ++ y : BitVec 6).extractLsb' 5 1 = x := (ext_high x y 5 1 (by decide)).trans (ext_self x)
theorem cat15_lo (x : BitVec 1) (y : BitVec 5) : (x ++ y : BitVec 6).extractLsb' 0 5 = y := (ext_low x y 0 5 (by decide)).trans (ext_self y)
theorem cat124_hi (x : BitVec 12) (y : BitVec 4) : (x ++ y : BitVec 16).extractLsb' 4 12 = x := (ext_high x y 4 12 (by decide)).trans (ext_self x)
theorem cat124_lo (x : BitVec 12) (y : BitVec 4) : (x ++ y : BitVec 16).extractLsb' 0 4 = y := (ext_low x y 0 4 (by decide)).trans (ext_self y)
theorem cat412_hi (x : BitVec 4) (y : BitVec 1) (z : BitVec 2) : (x ++ y ++ z : BitVec 7).extractLsb' 3 4 = x :=
  (ext_high (x ++ y) z 3 4 (by decide)).trans (cat41_hi x y)
theorem cat412_mid (x : BitVec 4) (y : BitVec 1) (z : BitVec 2) : (x ++ y ++ z : BitVec 7).extractLsb' 2 1 = y :=
  (ext_high (x ++ y) z 2 1 (by decide)).trans (cat41_lo x y)
theorem cat412_lo (x : BitVec 4) (y : BitVec 1) (z : BitVec 2) : (x ++ y ++ z : BitVec 7).extractLsb' 0 2 = z := (ext_low (x ++ y) z 0 2 (by decide)).trans (ext_self z)
theorem cat322_hi (x : BitVec 3) (y : BitVec 2) (z : BitVec 2) : (x ++ y ++ z : BitVec 7).extractLsb' 4 3 = x :=
  (ext_high (x ++ y) z 4 3 (by decide)).trans (cat32_hi x y)
theorem cat322_mid (x : BitVec 3) (y : BitVec 2) (z : BitVec 2) : (x ++ y ++ z : BitVec 7).extractLsb' 2 2 = y :=
  (ext_high (x ++ y) z 2 2 (by decide)).trans (cat32_lo x y)
theorem cat322_lo (x : BitVec 3) (y : BitVec 2) (z : BitVec 2) : (x ++ y ++ z : BitVec 7).extractLsb' 0 2 = z := (ext_low (x ++ y) z 0 2 (by decide)).trans (ext_self z)
theorem cat133_hi (x : BitVec 1) (y : BitVec 3) (z : BitVec 3) : (x ++ y ++ z : BitVec 7).extractLsb' 6 1 = x :=
  (ext_high (x ++ y) z 6 1 (by decide)).trans (cat13_hi x y)
theorem cat133_mid (x : BitVec 1) (y : BitVec 3) (z : BitVec 3) : (x ++ y ++ z : BitVec 7).extractLsb' 3 3 = y :=
  (ext_high (x ++ y) z 3 3 (by decide)).trans (cat13_lo x y)
theorem cat133_lo (x : BitVec 1) (y : BitVec 3) (z : BitVec 3) : (x ++ y ++ z : BitVec 7).extractLsb' 0 3 = z := (ext_low (x ++ y) z 0 3 (by decide)).trans (ext_self z)
theorem cat156_hi (x : BitVec 1) (y : BitVec 5) (z : BitVec 6) : (x ++ y ++ z : BitVec 12).extractLsb' 11 1 = x :=
  (ext_high (x ++ y) z 11 1 (by decide)).trans (cat15_hi x y)
theorem cat156_mid (x : BitVec 1) (y : BitVec 5) (z : BitVec 6) : (x ++ y ++ z : BitVec 12).extractLsb' 6 5 = y :=
  (ext_high (x ++ y) z 6 5 (by decide)).trans (cat15_lo x y)
theorem cat156_lo (x : BitVec 1) (y : BitVec 5) (z : BitVec 6) : (x ++ y ++ z : BitVec 12).extractLsb' 0 6 = z := (ext_low (x ++ y) z 0 6 (by decide)).trans (ext_self z)
theorem cat255_hi (x : BitVec 2) (y : BitVec 5) (z : BitVec 5) : (x ++ y ++ z : BitVec 12).extractLsb' 10 2 = x :=
  (ext_high (x ++ y) z 10 2 (by decide)).trans (cat25_hi x y)
theorem cat255_mid (x : BitVec 2) (y : BitVec 5) (z : BitVec 5) : (x ++ y ++ z : BitVec 12).extractLsb' 5 5 = y :=
  (ext_high (x ++ y) z 5 5 (by decide)).trans (cat25_lo x y)
theorem cat255_lo (x : BitVec 2) (y : BitVec 5) (z : BitVec 5) : (x ++ y ++ z : BitVec 12).extractLsb' 0 5 = z := (ext_low (x ++ y) z 0 5 (by decide)).trans (ext_self z)
theorem cat633_hi (x : BitVec 6) (y : BitVec 3) (z : BitVec 3) : (x ++ y ++ z : BitVec 12).extractLsb' 6 6 = x :=
  (ext_high (x ++ y) z 6 6 (by decide)).trans (cat63_hi x y)
theorem cat633_mid (x : BitVec 6) (y : BitVec 3) (z : BitVec 3) : (x ++ y ++ z : BitVec 12).extractLsb' 3 3 = y :=
  (ext_high (x ++ y) z 3 3 (by decide)).trans (cat63_lo x y)
theorem cat633_lo (x : BitVec 6) (y : BitVec 3) (z : BitVec 3) : (x ++ y ++ z : BitVec 12).extractLsb' 0 3 = z := (ext_low (x ++ y) z 0 3 (by decide)).trans (ext_self z)
theorem cat138_hi (x : BitVec 1) (y : BitVec 3) (z : BitVec 8) : (x ++ y ++ z : BitVec 12).extractLsb' 11 1 = x :=
  (ext_high (x ++ y) z 11 1 (by decide)).trans (cat13_hi x y)
theorem cat138_mid (x : BitVec 1) (y : BitVec 3) (z : BitVec 8) : (x ++ y ++ z : BitVec 12).extractLsb' 8 3 = y :=
  (ext_high (x ++ y) z 8 3 (by decide)).trans (cat13_lo x y)
theorem cat138_lo (x : BitVec 1) (y : BitVec 3) (z : BitVec 8) : (x ++ y ++ z : BitVec 12).extractLsb' 0 8 = z := (ext_low (x ++ y) z 0 8 (by decide)).trans (ext_self z)
theorem cat135_hi (x : BitVec 1) (y : BitVec 3) (z : BitVec 5) : (x ++ y ++ z : BitVec 9).extractLsb' 8 1 = x :=
  (ext_high (x ++ y) z 8 1 (by decide)).trans (cat13_hi x y)
theorem cat135_mid (x : BitVec 1) (y : BitVec 3) (z : BitVec 5) : (x ++ y ++ z : BitVec 9).extractLsb' 5 3 = y :=
  (ext_high (x ++ y) z 5 3 (by decide)).trans (cat13_lo x y)
theorem cat135_lo (x : BitVec 1) (y : BitVec 3) (z : BitVec 5) : (x ++ y ++ z : BitVec 9).extractLsb' 0 5 = z := (ext_low (x ++ y) z 0 5 (by decide)).trans (ext_self z)
theorem cat1564_a (x : BitVec 1) (y : BitVec 5) (z : BitVec 6) (w : BitVec 4) : (x ++ y ++ z ++ w : BitVec 16).extractLsb' 15 1 = x :=
  (ext_high (x ++ y ++ z) w 15 1 (by decide)).trans (cat156_hi x y z)
theorem cat1564_b (x : BitVec 1) (y : BitVec 5) (z : BitVec 6) (w : BitVec 4) : (x ++ y ++ z ++ w : BitVec 16).extractLsb' 10 5 = y :=
  (ext_high (x ++ y ++ z) w 10 5 (by decide)).trans (cat156_mid x y z)
theorem cat1564_c (x : BitVec 1) (y : BitVec 5) (z : BitVec 6) (w : BitVec 4) : (x ++ y ++ z ++ w : BitVec 16).extractLsb' 4 6 = z :=
  (ext_high (x ++ y ++ z) w 4 6 (by decide)).trans (cat156_lo x y z)
theorem cat1564_d (x : BitVec 1) (y : BitVec 5) (z : BitVec 6) (w : BitVec 4) : (x ++ y ++ z ++ w : BitVec 16).extractLsb' 0 4 = w := (ext_low (x ++ y ++ z) w 0 4 (by decide)).trans (ext_self w)
theorem cat2554_a (x : BitVec 2) (y : BitVec 5) (z : BitVec 5) (w : BitVec 4) : (x ++ y ++ z ++ w : BitVec 16).extractLsb' 14 2 = x :=
  (ext_high (x ++ y ++ z) w 14 2 (by decide)).trans (cat255_hi x y z)
theorem cat2554_b (x : BitVec 2) (y : BitVec 5) (z : BitVec 5) (w : BitVec 4) : (x ++ y ++ z ++ w : BitVec 16).extractLsb' 9 5 = y :=
  (ext_high (x ++ y ++ z) w 9 5 (by decide)).trans (cat255_mid x y z)
theorem cat2554_c (x : BitVec 2) (y : BitVec 5) (z : BitVec 5) (w : BitVec 4) : (x ++ y ++ z ++ w : BitVec 16).extractLsb' 4 5 = z :=
  (ext_high (x ++ y ++ z) w 4 5 (by decide)).trans (cat255_lo x y z)
theorem cat2554_d (x : BitVec 2) (y : BitVec 5) (z : BitVec 5) (w : BitVec 4) : (x ++ y ++ z ++ w : BitVec 16).extractLsb' 0 4 = w := (ext_low (x ++ y ++ z) w 0 4 (by decide)).trans (ext_self w)
theorem cat6334_a (x : BitVec 6) (y : BitVec 3) (z : BitVec 3) (w : BitVec 4) : (x ++ y ++ z ++ w : BitVec 16).extractLsb' 10 6 = x :=
  (ext_high (x ++ y ++ z) w 10 6 (by decide)).trans (cat633_hi x y z)
theorem cat6334_b (x : BitVec 6) (y : BitVec 3) (z : BitVec 3) (w : BitVec 4) : (x ++ y ++ z ++ w : BitVec 16).extractLsb' 7 3 = y :=
  (ext_high (x ++ y ++ z) w 7 3 (by decide)).trans (cat633_mid x y z)
theorem cat6334_c (x : BitVec 6) (y : BitVec 3) (z : BitVec 3) (w : BitVec 4) : (x ++ y ++ z ++ w : BitVec 16).extractLsb' 4 3 = z :=
  (ext_high (x ++ y ++ z) w 4 3 (by decide)).trans (cat633_lo x y z)
theorem cat6334_d (x : BitVec 6) (y : BitVec 3) (z : BitVec 3) (w : BitVec 4) : (x ++ y ++ z ++ w : BitVec 16).extractLsb' 0 4 = w := (ext_low (x ++ y ++ z) w 0 4 (by decide)).trans (ext_self w)
theorem cat1384_a (x : BitVec 1) (y : BitVec 3) (z : BitVec 8) (w : BitVec 4) : (x ++ y ++ z ++ w : BitVec 16).extractLsb' 15 1 = x :=
  (ext_high (x ++ y ++ z) w 15 1 (by decide)).trans (cat138_hi x y z)
theorem cat1384_b (x : BitVec 1) (y : BitVec 3) (z : BitVec 8) (w : BitVec 4) : (x ++ y ++ z ++ w : BitVec 16).extractLsb' 12 3 = y :=
  (ext_high (x ++ y ++ z) w 12 3 (by decide)).trans (cat138_mid x y z)
theorem cat1384_c (x : BitVec 1) (y : BitVec 3) (z : BitVec 8) (w : BitVec 4) : (x ++ y ++ z ++ w : BitVec 16).extractLsb' 4 8 = z :=
  (ext_high (x ++ y ++ z) w 4 8 (by decide)).trans (cat138_lo x y z)
theorem cat1384_d (x : BitVec 1) (y : BitVec 3) (z : BitVec 8) (w : BitVec 4) : (x ++ y ++ z ++ w : BitVec 16).extractLsb' 0 4 = w := (ext_low (x ++ y ++ z) w 0 4 (by decide)).trans (ext_self w)
theorem cat1357_a (x : BitVec 1) (y : BitVec 3) (z : BitVec 5) (w : BitVec 7) : (x ++ y ++ z ++ w : BitVec 16).extractLsb' 15 1 = x :=
  (ext_high (x ++ y ++ z) w 15 1 (by decide)).trans (cat135_hi x y z)
theorem cat1357_b (x : BitVec 1) (y : BitVec 3) (z : BitVec 5) (w : BitVec 7) : (x ++ y ++ z ++ w : BitVec 16).extractLsb' 12 3 = y :=
  (ext_high (x ++ y ++ z) w 12 3 (by decide)).trans (cat135_mid x y z)
theorem cat1357_c (x : BitVec 1) (y : BitVec 3) (z : BitVec 5) (w : BitVec 7) : (x ++ y ++ z ++ w : BitVec 16).extractLsb' 7 5 = z :=
  (ext_high (x ++ y ++ z) w 7 5 (by decide)).trans (cat135_lo x y z)
theorem cat1357_d (x : BitVec 1) (y : BitVec 3) (z : BitVec 5) (w : BitVec 7) : (x ++ y ++ z ++ w : BitVec 16).extractLsb' 0 7 = w := (ext_low (x ++ y ++ z) w 0 7 (by decide)).trans (ext_self w)

/-! ## The majors (R77) -/

theorem major_opr {w : IWord} (h : w.extractLsb' 0 7 = 3#7) : decode32? w = decodeOpr w := by simp only [decode32?, h]; rfl
theorem major_opi {w : IWord} (h : w.extractLsb' 0 7 = 5#7) : decode32? w = decodeOpi w := by simp only [decode32?, h]; rfl
theorem major_lui {w : IWord} (h : w.extractLsb' 0 7 = 9#7) : decode32? w = decodeLui w := by simp only [decode32?, h]; rfl
theorem major_auipc {w : IWord} (h : w.extractLsb' 0 7 = 11#7) : decode32? w = decodeAuipc w := by simp only [decode32?, h]; rfl
theorem major_br {w : IWord} (h : w.extractLsb' 0 7 = 13#7) : decode32? w = decodeBr w := by simp only [decode32?, h]; rfl
theorem major_jal {w : IWord} (h : w.extractLsb' 0 7 = 15#7) : decode32? w = decodeJal w := by simp only [decode32?, h]; rfl
theorem major_jalr {w : IWord} (h : w.extractLsb' 0 7 = 17#7) : decode32? w = decodeJalr w := by simp only [decode32?, h]; rfl
theorem major_load {w : IWord} (h : w.extractLsb' 0 7 = 19#7) : decode32? w = decodeLoad w := by simp only [decode32?, h]; rfl
theorem major_store {w : IWord} (h : w.extractLsb' 0 7 = 21#7) : decode32? w = decodeStore w := by simp only [decode32?, h]; rfl
theorem major_ldfe {w : IWord} (h : w.extractLsb' 0 7 = 23#7) : decode32? w = decodeLdfe w := by simp only [decode32?, h]; rfl
theorem major_amo {w : IWord} (h : w.extractLsb' 0 7 = 25#7) : decode32? w = decodeAmo w := by simp only [decode32?, h]; rfl
theorem major_memctl {w : IWord} (h : w.extractLsb' 0 7 = 27#7) : decode32? w = decodeMemctl w := by simp only [decode32?, h]; rfl
theorem major_muldiv {w : IWord} (h : w.extractLsb' 0 7 = 29#7) : decode32? w = decodeMuldiv w := by simp only [decode32?, h]; rfl
theorem major_bits {w : IWord} (h : w.extractLsb' 0 7 = 31#7) : decode32? w = decodeBits w := by simp only [decode32?, h]; rfl
theorem major_ext {w : IWord} (h : w.extractLsb' 0 7 = 33#7) : decode32? w = decodeExt w := by simp only [decode32?, h]; rfl
theorem major_queue {w : IWord} (h : w.extractLsb' 0 7 = 35#7) : decode32? w = decodeQueue w := by simp only [decode32?, h]; rfl
theorem major_loop {w : IWord} (h : w.extractLsb' 0 7 = 37#7) : decode32? w = decodeLoop w := by simp only [decode32?, h]; rfl
theorem major_msg {w : IWord} (h : w.extractLsb' 0 7 = 39#7) : decode32? w = decodeMsg w := by simp only [decode32?, h]; rfl
theorem major_act {w : IWord} (h : w.extractLsb' 0 7 = 41#7) : decode32? w = decodeAct w := by simp only [decode32?, h]; rfl
theorem major_grp {w : IWord} (h : w.extractLsb' 0 7 = 43#7) : decode32? w = decodeGrp w := by simp only [decode32?, h]; rfl
theorem major_bar {w : IWord} (h : w.extractLsb' 0 7 = 45#7) : decode32? w = decodeBar w := by simp only [decode32?, h]; rfl
theorem major_mta {w : IWord} (h : w.extractLsb' 0 7 = 47#7) : decode32? w = decodeMta w := by simp only [decode32?, h]; rfl
theorem major_valu {w : IWord} (h : w.extractLsb' 0 7 = 49#7) : decode32? w = decodeValu w := by simp only [decode32?, h]; rfl
theorem major_vfp {w : IWord} (h : w.extractLsb' 0 7 = 51#7) : decode32? w = decodeVfp w := by simp only [decode32?, h]; rfl
theorem major_vmem {w : IWord} (h : w.extractLsb' 0 7 = 53#7) : decode32? w = decodeVmem w := by simp only [decode32?, h]; rfl
theorem major_vcvt {w : IWord} (h : w.extractLsb' 0 7 = 55#7) : decode32? w = decodeVcvt w := by simp only [decode32?, h]; rfl
theorem major_vred {w : IWord} (h : w.extractLsb' 0 7 = 57#7) : decode32? w = decodeVred w := by simp only [decode32?, h]; rfl
theorem major_vmisc {w : IWord} (h : w.extractLsb' 0 7 = 59#7) : decode32? w = decodeVmisc w := by simp only [decode32?, h]; rfl
theorem major_mtx {w : IWord} (h : w.extractLsb' 0 7 = 61#7) : decode32? w = decodeMtx w := by simp only [decode32?, h]; rfl
theorem major_cpy {w : IWord} (h : w.extractLsb' 0 7 = 63#7) : decode32? w = decodeCpy w := by simp only [decode32?, h]; rfl
theorem major_map {w : IWord} (h : w.extractLsb' 0 7 = 65#7) : decode32? w = decodeMap w := by simp only [decode32?, h]; rfl
theorem major_sys {w : IWord} (h : w.extractLsb' 0 7 = 67#7) : decode32? w = decodeSys w := by simp only [decode32?, h]; rfl
theorem major_sec {w : IWord} (h : w.extractLsb' 0 7 = 69#7) : decode32? w = decodeSec w := by simp only [decode32?, h]; rfl

/-! ## The instructions -/

/-- The word of the instruction, where it is well-formed, is read as the instruction, and bit 0 of a word is 1 and of a halfword 0. -/
def Statement (i : Instr) : Prop :=
  i.wf = true → match encode i with
    | .word w => decode32? w = some i ∧ w.getLsbD 0 = true
    | .half h => decode16? h = some i ∧ h.getLsbD 0 = false
    | .none => True

theorem add (b : Reg) (a : Reg) (d : Reg) : Statement (.add b a d) := by
  intro _
  refine ⟨?_, rs_bit0 ..⟩
  rw [major_opr (rs_m ..)]
  simp [decodeOpr, rs_f7, rs_b, rs_a, rs_f3, rs_d]

theorem sub (b : Reg) (a : Reg) (d : Reg) : Statement (.sub b a d) := by
  intro _
  refine ⟨?_, rs_bit0 ..⟩
  rw [major_opr (rs_m ..)]
  simp [decodeOpr, rs_f7, rs_b, rs_a, rs_f3, rs_d]

theorem sll (b : Reg) (a : Reg) (d : Reg) : Statement (.sll b a d) := by
  intro _
  refine ⟨?_, rs_bit0 ..⟩
  rw [major_opr (rs_m ..)]
  simp [decodeOpr, rs_f7, rs_b, rs_a, rs_f3, rs_d]

theorem slt (b : Reg) (a : Reg) (d : Reg) : Statement (.slt b a d) := by
  intro _
  refine ⟨?_, rs_bit0 ..⟩
  rw [major_opr (rs_m ..)]
  simp [decodeOpr, rs_f7, rs_b, rs_a, rs_f3, rs_d]

theorem sltu (b : Reg) (a : Reg) (d : Reg) : Statement (.sltu b a d) := by
  intro _
  refine ⟨?_, rs_bit0 ..⟩
  rw [major_opr (rs_m ..)]
  simp [decodeOpr, rs_f7, rs_b, rs_a, rs_f3, rs_d]

theorem xor (b : Reg) (a : Reg) (d : Reg) : Statement (.xor b a d) := by
  intro _
  refine ⟨?_, rs_bit0 ..⟩
  rw [major_opr (rs_m ..)]
  simp [decodeOpr, rs_f7, rs_b, rs_a, rs_f3, rs_d]

theorem srl (b : Reg) (a : Reg) (d : Reg) : Statement (.srl b a d) := by
  intro _
  refine ⟨?_, rs_bit0 ..⟩
  rw [major_opr (rs_m ..)]
  simp [decodeOpr, rs_f7, rs_b, rs_a, rs_f3, rs_d]

theorem sra (b : Reg) (a : Reg) (d : Reg) : Statement (.sra b a d) := by
  intro _
  refine ⟨?_, rs_bit0 ..⟩
  rw [major_opr (rs_m ..)]
  simp [decodeOpr, rs_f7, rs_b, rs_a, rs_f3, rs_d]

theorem and (b : Reg) (a : Reg) (d : Reg) : Statement (.and b a d) := by
  intro _
  refine ⟨?_, rs_bit0 ..⟩
  rw [major_opr (rs_m ..)]
  simp [decodeOpr, rs_f7, rs_b, rs_a, rs_f3, rs_d]

theorem or (b : Reg) (a : Reg) (d : Reg) : Statement (.or b a d) := by
  intro _
  refine ⟨?_, rs_bit0 ..⟩
  rw [major_opr (rs_m ..)]
  simp [decodeOpr, rs_f7, rs_b, rs_a, rs_f3, rs_d]

theorem andn (b : Reg) (a : Reg) (d : Reg) : Statement (.andn b a d) := by
  intro _
  refine ⟨?_, rs_bit0 ..⟩
  rw [major_opr (rs_m ..)]
  simp [decodeOpr, rs_f7, rs_b, rs_a, rs_f3, rs_d]

theorem orn (b : Reg) (a : Reg) (d : Reg) : Statement (.orn b a d) := by
  intro _
  refine ⟨?_, rs_bit0 ..⟩
  rw [major_opr (rs_m ..)]
  simp [decodeOpr, rs_f7, rs_b, rs_a, rs_f3, rs_d]

theorem xnor (b : Reg) (a : Reg) (d : Reg) : Statement (.xnor b a d) := by
  intro _
  refine ⟨?_, rs_bit0 ..⟩
  rw [major_opr (rs_m ..)]
  simp [decodeOpr, rs_f7, rs_b, rs_a, rs_f3, rs_d]

theorem addi (i : BitVec 12) (a : Reg) (d : Reg) : Statement (.addi i a d) := by
  intro _
  refine ⟨?_, rs_bit0 ..⟩
  rw [major_opi (rs_m ..)]
  simp [decodeOpi, rs_f7, rs_b, rs_a, rs_f3, rs_d, rs_i12, imm12]

theorem slli (h : BitVec 6) (a : Reg) (d : Reg) : Statement (.slli h a d) := by
  intro _
  refine ⟨?_, rs_bit0 ..⟩
  rw [major_opi (rs_m ..)]
  simp [decodeOpi, rs_f7, rs_b, rs_a, rs_f3, rs_d, rs_i6, cat61_hi]

theorem slti (i : BitVec 12) (a : Reg) (d : Reg) : Statement (.slti i a d) := by
  intro _
  refine ⟨?_, rs_bit0 ..⟩
  rw [major_opi (rs_m ..)]
  simp [decodeOpi, rs_f7, rs_b, rs_a, rs_f3, rs_d, rs_i12, imm12]

theorem sltiu (i : BitVec 12) (a : Reg) (d : Reg) : Statement (.sltiu i a d) := by
  intro _
  refine ⟨?_, rs_bit0 ..⟩
  rw [major_opi (rs_m ..)]
  simp [decodeOpi, rs_f7, rs_b, rs_a, rs_f3, rs_d, rs_i12, imm12]

theorem xori (i : BitVec 12) (a : Reg) (d : Reg) : Statement (.xori i a d) := by
  intro _
  refine ⟨?_, rs_bit0 ..⟩
  rw [major_opi (rs_m ..)]
  simp [decodeOpi, rs_f7, rs_b, rs_a, rs_f3, rs_d, rs_i12, imm12]

theorem srli (h : BitVec 6) (a : Reg) (d : Reg) : Statement (.srli h a d) := by
  intro _
  refine ⟨?_, rs_bit0 ..⟩
  rw [major_opi (rs_m ..)]
  simp [decodeOpi, rs_f7, rs_b, rs_a, rs_f3, rs_d, rs_i6, cat61_hi]

theorem srai (h : BitVec 6) (a : Reg) (d : Reg) : Statement (.srai h a d) := by
  intro _
  refine ⟨?_, rs_bit0 ..⟩
  rw [major_opi (rs_m ..)]
  simp [decodeOpi, rs_f7, rs_b, rs_a, rs_f3, rs_d, rs_i6, cat61_hi]

theorem ori (i : BitVec 12) (a : Reg) (d : Reg) : Statement (.ori i a d) := by
  intro _
  refine ⟨?_, rs_bit0 ..⟩
  rw [major_opi (rs_m ..)]
  simp [decodeOpi, rs_f7, rs_b, rs_a, rs_f3, rs_d, rs_i12, imm12]

theorem andi (i : BitVec 12) (a : Reg) (d : Reg) : Statement (.andi i a d) := by
  intro _
  refine ⟨?_, rs_bit0 ..⟩
  rw [major_opi (rs_m ..)]
  simp [decodeOpi, rs_f7, rs_b, rs_a, rs_f3, rs_d, rs_i12, imm12]

theorem lui (i : BitVec 20) (d : Reg) : Statement (.lui i d) := by
  intro _
  refine ⟨?_, rs_bit0 ..⟩
  rw [major_lui (rs_m ..)]
  simp [decodeLui, rs_f7, rs_b, rs_a, rs_f3, rs_d, rs_i20, imm20]

theorem auipc (i : BitVec 20) (d : Reg) : Statement (.auipc i d) := by
  intro _
  refine ⟨?_, rs_bit0 ..⟩
  rw [major_auipc (rs_m ..)]
  simp [decodeAuipc, rs_f7, rs_b, rs_a, rs_f3, rs_d, rs_i20, imm20]

theorem mul (b : Reg) (a : Reg) (d : Reg) : Statement (.mul b a d) := by
  intro _
  refine ⟨?_, rs_bit0 ..⟩
  rw [major_muldiv (rs_m ..)]
  simp [decodeMuldiv, rs_f7, rs_b, rs_a, rs_f3, rs_d]

theorem mulh (b : Reg) (a : Reg) (d : Reg) : Statement (.mulh b a d) := by
  intro _
  refine ⟨?_, rs_bit0 ..⟩
  rw [major_muldiv (rs_m ..)]
  simp [decodeMuldiv, rs_f7, rs_b, rs_a, rs_f3, rs_d]

theorem mulhsu (b : Reg) (a : Reg) (d : Reg) : Statement (.mulhsu b a d) := by
  intro _
  refine ⟨?_, rs_bit0 ..⟩
  rw [major_muldiv (rs_m ..)]
  simp [decodeMuldiv, rs_f7, rs_b, rs_a, rs_f3, rs_d]

theorem mulhu (b : Reg) (a : Reg) (d : Reg) : Statement (.mulhu b a d) := by
  intro _
  refine ⟨?_, rs_bit0 ..⟩
  rw [major_muldiv (rs_m ..)]
  simp [decodeMuldiv, rs_f7, rs_b, rs_a, rs_f3, rs_d]

theorem div (b : Reg) (a : Reg) (d : Reg) : Statement (.div b a d) := by
  intro _
  refine ⟨?_, rs_bit0 ..⟩
  rw [major_muldiv (rs_m ..)]
  simp [decodeMuldiv, rs_f7, rs_b, rs_a, rs_f3, rs_d]

theorem divu (b : Reg) (a : Reg) (d : Reg) : Statement (.divu b a d) := by
  intro _
  refine ⟨?_, rs_bit0 ..⟩
  rw [major_muldiv (rs_m ..)]
  simp [decodeMuldiv, rs_f7, rs_b, rs_a, rs_f3, rs_d]

theorem rem (b : Reg) (a : Reg) (d : Reg) : Statement (.rem b a d) := by
  intro _
  refine ⟨?_, rs_bit0 ..⟩
  rw [major_muldiv (rs_m ..)]
  simp [decodeMuldiv, rs_f7, rs_b, rs_a, rs_f3, rs_d]

theorem remu (b : Reg) (a : Reg) (d : Reg) : Statement (.remu b a d) := by
  intro _
  refine ⟨?_, rs_bit0 ..⟩
  rw [major_muldiv (rs_m ..)]
  simp [decodeMuldiv, rs_f7, rs_b, rs_a, rs_f3, rs_d]

theorem min (b : Reg) (a : Reg) (d : Reg) : Statement (.min b a d) := by
  intro _
  refine ⟨?_, rs_bit0 ..⟩
  rw [major_bits (rs_m ..)]
  simp [decodeBits, rs_f7, rs_b, rs_a, rs_f3, rs_d]

theorem max (b : Reg) (a : Reg) (d : Reg) : Statement (.max b a d) := by
  intro _
  refine ⟨?_, rs_bit0 ..⟩
  rw [major_bits (rs_m ..)]
  simp [decodeBits, rs_f7, rs_b, rs_a, rs_f3, rs_d]

theorem minu (b : Reg) (a : Reg) (d : Reg) : Statement (.minu b a d) := by
  intro _
  refine ⟨?_, rs_bit0 ..⟩
  rw [major_bits (rs_m ..)]
  simp [decodeBits, rs_f7, rs_b, rs_a, rs_f3, rs_d]

theorem maxu (b : Reg) (a : Reg) (d : Reg) : Statement (.maxu b a d) := by
  intro _
  refine ⟨?_, rs_bit0 ..⟩
  rw [major_bits (rs_m ..)]
  simp [decodeBits, rs_f7, rs_b, rs_a, rs_f3, rs_d]

theorem clz (a : Reg) (d : Reg) : Statement (.clz a d) := by
  intro _
  refine ⟨?_, rs_bit0 ..⟩
  rw [major_bits (rs_m ..)]
  simp [decodeBits, rs_f7, rs_b, rs_a, rs_f3, rs_d]

theorem ctz (a : Reg) (d : Reg) : Statement (.ctz a d) := by
  intro _
  refine ⟨?_, rs_bit0 ..⟩
  rw [major_bits (rs_m ..)]
  simp [decodeBits, rs_f7, rs_b, rs_a, rs_f3, rs_d]

theorem popc (a : Reg) (d : Reg) : Statement (.popc a d) := by
  intro _
  refine ⟨?_, rs_bit0 ..⟩
  rw [major_bits (rs_m ..)]
  simp [decodeBits, rs_f7, rs_b, rs_a, rs_f3, rs_d]

theorem brev (a : Reg) (d : Reg) : Statement (.brev a d) := by
  intro _
  refine ⟨?_, rs_bit0 ..⟩
  rw [major_bits (rs_m ..)]
  simp [decodeBits, rs_f7, rs_b, rs_a, rs_f3, rs_d]

theorem beq (i : BitVec 12) (b : Reg) (a : Reg) : Statement (.beq i b a) := by
  intro _
  refine ⟨?_, rs_bit0 ..⟩
  rw [major_br (rs_m ..)]
  simp [decodeBr, rs_f7, rs_b, rs_a, rs_f3, rs_d, rs_i12, imm12]

theorem bne (i : BitVec 12) (b : Reg) (a : Reg) : Statement (.bne i b a) := by
  intro _
  refine ⟨?_, rs_bit0 ..⟩
  rw [major_br (rs_m ..)]
  simp [decodeBr, rs_f7, rs_b, rs_a, rs_f3, rs_d, rs_i12, imm12]

theorem blt (i : BitVec 12) (b : Reg) (a : Reg) : Statement (.blt i b a) := by
  intro _
  refine ⟨?_, rs_bit0 ..⟩
  rw [major_br (rs_m ..)]
  simp [decodeBr, rs_f7, rs_b, rs_a, rs_f3, rs_d, rs_i12, imm12]

theorem bge (i : BitVec 12) (b : Reg) (a : Reg) : Statement (.bge i b a) := by
  intro _
  refine ⟨?_, rs_bit0 ..⟩
  rw [major_br (rs_m ..)]
  simp [decodeBr, rs_f7, rs_b, rs_a, rs_f3, rs_d, rs_i12, imm12]

theorem bltu (i : BitVec 12) (b : Reg) (a : Reg) : Statement (.bltu i b a) := by
  intro _
  refine ⟨?_, rs_bit0 ..⟩
  rw [major_br (rs_m ..)]
  simp [decodeBr, rs_f7, rs_b, rs_a, rs_f3, rs_d, rs_i12, imm12]

theorem bgeu (i : BitVec 12) (b : Reg) (a : Reg) : Statement (.bgeu i b a) := by
  intro _
  refine ⟨?_, rs_bit0 ..⟩
  rw [major_br (rs_m ..)]
  simp [decodeBr, rs_f7, rs_b, rs_a, rs_f3, rs_d, rs_i12, imm12]

theorem jal (i : BitVec 20) (d : Reg) : Statement (.jal i d) := by
  intro _
  refine ⟨?_, rs_bit0 ..⟩
  rw [major_jal (rs_m ..)]
  simp [decodeJal, rs_f7, rs_b, rs_a, rs_f3, rs_d, rs_i20, imm20]

theorem jalr (i : BitVec 12) (a : Reg) (d : Reg) : Statement (.jalr i a d) := by
  intro _
  refine ⟨?_, rs_bit0 ..⟩
  rw [major_jalr (rs_m ..)]
  simp [decodeJalr, rs_f7, rs_b, rs_a, rs_f3, rs_d, rs_i12, imm12]

theorem lb (i : BitVec 12) (a : Reg) (d : Reg) : Statement (.lb i a d) := by
  intro _
  refine ⟨?_, rs_bit0 ..⟩
  rw [major_load (rs_m ..)]
  simp [decodeLoad, rs_f7, rs_b, rs_a, rs_f3, rs_d, rs_i12, imm12]

theorem lh (i : BitVec 12) (a : Reg) (d : Reg) : Statement (.lh i a d) := by
  intro _
  refine ⟨?_, rs_bit0 ..⟩
  rw [major_load (rs_m ..)]
  simp [decodeLoad, rs_f7, rs_b, rs_a, rs_f3, rs_d, rs_i12, imm12]

theorem lw (i : BitVec 12) (a : Reg) (d : Reg) : Statement (.lw i a d) := by
  intro _
  refine ⟨?_, rs_bit0 ..⟩
  rw [major_load (rs_m ..)]
  simp [decodeLoad, rs_f7, rs_b, rs_a, rs_f3, rs_d, rs_i12, imm12]

theorem ld (i : BitVec 12) (a : Reg) (d : Reg) : Statement (.ld i a d) := by
  intro _
  refine ⟨?_, rs_bit0 ..⟩
  rw [major_load (rs_m ..)]
  simp [decodeLoad, rs_f7, rs_b, rs_a, rs_f3, rs_d, rs_i12, imm12]

theorem lbu (i : BitVec 12) (a : Reg) (d : Reg) : Statement (.lbu i a d) := by
  intro _
  refine ⟨?_, rs_bit0 ..⟩
  rw [major_load (rs_m ..)]
  simp [decodeLoad, rs_f7, rs_b, rs_a, rs_f3, rs_d, rs_i12, imm12]

theorem lhu (i : BitVec 12) (a : Reg) (d : Reg) : Statement (.lhu i a d) := by
  intro _
  refine ⟨?_, rs_bit0 ..⟩
  rw [major_load (rs_m ..)]
  simp [decodeLoad, rs_f7, rs_b, rs_a, rs_f3, rs_d, rs_i12, imm12]

theorem lwu (i : BitVec 12) (a : Reg) (d : Reg) : Statement (.lwu i a d) := by
  intro _
  refine ⟨?_, rs_bit0 ..⟩
  rw [major_load (rs_m ..)]
  simp [decodeLoad, rs_f7, rs_b, rs_a, rs_f3, rs_d, rs_i12, imm12]

theorem sb (i : BitVec 12) (b : Reg) (a : Reg) : Statement (.sb i b a) := by
  intro _
  refine ⟨?_, rs_bit0 ..⟩
  rw [major_store (rs_m ..)]
  simp [decodeStore, rs_f7, rs_b, rs_a, rs_f3, rs_d, rs_i12, imm12]

theorem sh (i : BitVec 12) (b : Reg) (a : Reg) : Statement (.sh i b a) := by
  intro _
  refine ⟨?_, rs_bit0 ..⟩
  rw [major_store (rs_m ..)]
  simp [decodeStore, rs_f7, rs_b, rs_a, rs_f3, rs_d, rs_i12, imm12]

theorem sw (i : BitVec 12) (b : Reg) (a : Reg) : Statement (.sw i b a) := by
  intro _
  refine ⟨?_, rs_bit0 ..⟩
  rw [major_store (rs_m ..)]
  simp [decodeStore, rs_f7, rs_b, rs_a, rs_f3, rs_d, rs_i12, imm12]

theorem sd (i : BitVec 12) (b : Reg) (a : Reg) : Statement (.sd i b a) := by
  intro _
  refine ⟨?_, rs_bit0 ..⟩
  rw [major_store (rs_m ..)]
  simp [decodeStore, rs_f7, rs_b, rs_a, rs_f3, rs_d, rs_i12, imm12]

theorem swf (i : BitVec 12) (b : Reg) (a : Reg) : Statement (.swf i b a) := by
  intro _
  refine ⟨?_, rs_bit0 ..⟩
  rw [major_store (rs_m ..)]
  simp [decodeStore, rs_f7, rs_b, rs_a, rs_f3, rs_d, rs_i12, imm12]

theorem sdf (i : BitVec 12) (b : Reg) (a : Reg) : Statement (.sdf i b a) := by
  intro _
  refine ⟨?_, rs_bit0 ..⟩
  rw [major_store (rs_m ..)]
  simp [decodeStore, rs_f7, rs_b, rs_a, rs_f3, rs_d, rs_i12, imm12]

theorem lwf (i : BitVec 12) (a : Reg) (d : Reg) : Statement (.lwf i a d) := by
  intro _
  refine ⟨?_, rs_bit0 ..⟩
  rw [major_ldfe (rs_m ..)]
  simp [decodeLdfe, rs_f7, rs_b, rs_a, rs_f3, rs_d, rs_i12, imm12]

theorem ldf (i : BitVec 12) (a : Reg) (d : Reg) : Statement (.ldf i a d) := by
  intro _
  refine ⟨?_, rs_bit0 ..⟩
  rw [major_ldfe (rs_m ..)]
  simp [decodeLdfe, rs_f7, rs_b, rs_a, rs_f3, rs_d, rs_i12, imm12]

theorem lwfc (i : BitVec 12) (a : Reg) (d : Reg) : Statement (.lwfc i a d) := by
  intro _
  refine ⟨?_, rs_bit0 ..⟩
  rw [major_ldfe (rs_m ..)]
  simp [decodeLdfe, rs_f7, rs_b, rs_a, rs_f3, rs_d, rs_i12, imm12]

theorem ldfc (i : BitVec 12) (a : Reg) (d : Reg) : Statement (.ldfc i a d) := by
  intro _
  refine ⟨?_, rs_bit0 ..⟩
  rw [major_ldfe (rs_m ..)]
  simp [decodeLdfe, rs_f7, rs_b, rs_a, rs_f3, rs_d, rs_i12, imm12]

theorem amoadd (z : BitVec 1) (r : BitVec 2) (b : Reg) (a : Reg) (s : BitVec 3) (d : Reg) : Statement (.amoadd z r b a s d) := by
  intro _
  refine ⟨?_, rs_bit0 ..⟩
  rw [major_amo (rs_m ..)]
  simp [decodeAmo, rs_f7, rs_b, rs_a, rs_f3, rs_d, cat412_hi, cat412_mid, cat412_lo]

theorem amoswap (z : BitVec 1) (r : BitVec 2) (b : Reg) (a : Reg) (s : BitVec 3) (d : Reg) : Statement (.amoswap z r b a s d) := by
  intro _
  refine ⟨?_, rs_bit0 ..⟩
  rw [major_amo (rs_m ..)]
  simp [decodeAmo, rs_f7, rs_b, rs_a, rs_f3, rs_d, cat412_hi, cat412_mid, cat412_lo]

theorem amoand (z : BitVec 1) (r : BitVec 2) (b : Reg) (a : Reg) (s : BitVec 3) (d : Reg) : Statement (.amoand z r b a s d) := by
  intro _
  refine ⟨?_, rs_bit0 ..⟩
  rw [major_amo (rs_m ..)]
  simp [decodeAmo, rs_f7, rs_b, rs_a, rs_f3, rs_d, cat412_hi, cat412_mid, cat412_lo]

theorem amoor (z : BitVec 1) (r : BitVec 2) (b : Reg) (a : Reg) (s : BitVec 3) (d : Reg) : Statement (.amoor z r b a s d) := by
  intro _
  refine ⟨?_, rs_bit0 ..⟩
  rw [major_amo (rs_m ..)]
  simp [decodeAmo, rs_f7, rs_b, rs_a, rs_f3, rs_d, cat412_hi, cat412_mid, cat412_lo]

theorem amoxor (z : BitVec 1) (r : BitVec 2) (b : Reg) (a : Reg) (s : BitVec 3) (d : Reg) : Statement (.amoxor z r b a s d) := by
  intro _
  refine ⟨?_, rs_bit0 ..⟩
  rw [major_amo (rs_m ..)]
  simp [decodeAmo, rs_f7, rs_b, rs_a, rs_f3, rs_d, cat412_hi, cat412_mid, cat412_lo]

theorem amomin (z : BitVec 1) (r : BitVec 2) (b : Reg) (a : Reg) (s : BitVec 3) (d : Reg) : Statement (.amomin z r b a s d) := by
  intro _
  refine ⟨?_, rs_bit0 ..⟩
  rw [major_amo (rs_m ..)]
  simp [decodeAmo, rs_f7, rs_b, rs_a, rs_f3, rs_d, cat412_hi, cat412_mid, cat412_lo]

theorem amomax (z : BitVec 1) (r : BitVec 2) (b : Reg) (a : Reg) (s : BitVec 3) (d : Reg) : Statement (.amomax z r b a s d) := by
  intro _
  refine ⟨?_, rs_bit0 ..⟩
  rw [major_amo (rs_m ..)]
  simp [decodeAmo, rs_f7, rs_b, rs_a, rs_f3, rs_d, cat412_hi, cat412_mid, cat412_lo]

theorem amominu (z : BitVec 1) (r : BitVec 2) (b : Reg) (a : Reg) (s : BitVec 3) (d : Reg) : Statement (.amominu z r b a s d) := by
  intro _
  refine ⟨?_, rs_bit0 ..⟩
  rw [major_amo (rs_m ..)]
  simp [decodeAmo, rs_f7, rs_b, rs_a, rs_f3, rs_d, cat412_hi, cat412_mid, cat412_lo]

theorem amomaxu (z : BitVec 1) (r : BitVec 2) (b : Reg) (a : Reg) (s : BitVec 3) (d : Reg) : Statement (.amomaxu z r b a s d) := by
  intro _
  refine ⟨?_, rs_bit0 ..⟩
  rw [major_amo (rs_m ..)]
  simp [decodeAmo, rs_f7, rs_b, rs_a, rs_f3, rs_d, cat412_hi, cat412_mid, cat412_lo]

theorem amocas (z : BitVec 1) (r : BitVec 2) (b : Reg) (a : Reg) (s : BitVec 3) (d : Reg) : Statement (.amocas z r b a s d) := by
  intro _
  refine ⟨?_, rs_bit0 ..⟩
  rw [major_amo (rs_m ..)]
  simp [decodeAmo, rs_f7, rs_b, rs_a, rs_f3, rs_d, cat412_hi, cat412_mid, cat412_lo]

theorem fence (s : BitVec 3) (k : BitVec 4) : Statement (.fence s k) := by
  intro _
  refine ⟨?_, rs_bit0 ..⟩
  rw [major_memctl (rs_m ..)]
  simp [decodeMemctl, rs_f7, rs_b, rs_a, rs_f3, rs_d, rs_fence, cat14_lo, cat52_hi]

theorem discard (i : BitVec 12) (a : Reg) : Statement (.discard i a) := by
  intro _
  refine ⟨?_, rs_bit0 ..⟩
  rw [major_memctl (rs_m ..)]
  simp [decodeMemctl, rs_f7, rs_b, rs_a, rs_f3, rs_d, rs_i12, imm12]

theorem lastuse (i : BitVec 12) (a : Reg) : Statement (.lastuse i a) := by
  intro _
  refine ⟨?_, rs_bit0 ..⟩
  rw [major_memctl (rs_m ..)]
  simp [decodeMemctl, rs_f7, rs_b, rs_a, rs_f3, rs_d, rs_i12, imm12]

theorem prefetch (i : BitVec 12) (a : Reg) : Statement (.prefetch i a) := by
  intro _
  refine ⟨?_, rs_bit0 ..⟩
  rw [major_memctl (rs_m ..)]
  simp [decodeMemctl, rs_f7, rs_b, rs_a, rs_f3, rs_d, rs_i12, imm12]

theorem flushl (i : BitVec 12) (a : Reg) : Statement (.flushl i a) := by
  intro _
  refine ⟨?_, rs_bit0 ..⟩
  rw [major_memctl (rs_m ..)]
  simp [decodeMemctl, rs_f7, rs_b, rs_a, rs_f3, rs_d, rs_i12, imm12]

theorem sete (a : Reg) (d : Reg) : Statement (.sete a d) := by
  intro _
  refine ⟨?_, rs_bit0 ..⟩
  rw [major_ext (rs_m ..)]
  simp [decodeExt, rs_f7, rs_b, rs_a, rs_f3, rs_d]

theorem setei (i : BitVec 12) (d : Reg) : Statement (.setei i d) := by
  intro _
  refine ⟨?_, rs_bit0 ..⟩
  rw [major_ext (rs_m ..)]
  simp [decodeExt, rs_f7, rs_b, rs_a, rs_f3, rs_d, rs_i12, imm12]

theorem gete (a : Reg) (d : Reg) : Statement (.gete a d) := by
  intro h
  refine ⟨?_, rs_bit0 ..⟩
  have h1 : ¬ a.extractLsb' 2 3 = 2#3 := by
    have h2 : ∀ a : BitVec 5, a.toNat ≤ 7 → ¬ a.extractLsb' 2 3 = 2#3 := by decide
    exact h2 a (by simpa [Instr.wf, eRegOk] using h)
  rw [major_ext (rs_m ..)]
  simp [decodeExt, rs_f7, rs_b, rs_a, rs_f3, rs_d, h1]

theorem geteI (n : BitVec 2) (d : Reg) : Statement (.geteI n d) := by
  intro _
  refine ⟨?_, rs_bit0 ..⟩
  rw [major_ext (rs_m ..)]
  simp [decodeExt, rs_f7, rs_b, rs_a, rs_f3, rs_d, cat32_hi, cat32_lo]

theorem qput (b : Reg) (a : Reg) (q : Reg) : Statement (.qput b a q) := by
  intro _
  refine ⟨?_, rs_bit0 ..⟩
  rw [major_queue (rs_m ..)]
  simp [decodeQueue, rs_f7, rs_b, rs_a, rs_f3, rs_d]

theorem qget (b : Reg) (q : Reg) (d : Reg) : Statement (.qget b q d) := by
  intro _
  refine ⟨?_, rs_bit0 ..⟩
  rw [major_queue (rs_m ..)]
  simp [decodeQueue, rs_f7, rs_b, rs_a, rs_f3, rs_d]

theorem qpeek (q : Reg) (d : Reg) : Statement (.qpeek q d) := by
  intro _
  refine ⟨?_, rs_bit0 ..⟩
  rw [major_queue (rs_m ..)]
  simp [decodeQueue, rs_f7, rs_b, rs_a, rs_f3, rs_d]

theorem qcnt (q : Reg) (d : Reg) : Statement (.qcnt q d) := by
  intro _
  refine ⟨?_, rs_bit0 ..⟩
  rw [major_queue (rs_m ..)]
  simp [decodeQueue, rs_f7, rs_b, rs_a, rs_f3, rs_d]

theorem nest (b : Reg) (a : Reg) : Statement (.nest b a) := by
  intro _
  refine ⟨?_, rs_bit0 ..⟩
  rw [major_loop (rs_m ..)]
  simp [decodeLoop, rs_f7, rs_b, rs_a, rs_f3, rs_d]

theorem loop (i : BitVec 12) (a : Reg) : Statement (.loop i a) := by
  intro _
  refine ⟨?_, rs_bit0 ..⟩
  rw [major_loop (rs_m ..)]
  simp [decodeLoop, rs_f7, rs_b, rs_a, rs_f3, rs_d, rs_i12, imm12]

theorem nestq (a : Reg) (d : Reg) : Statement (.nestq a d) := by
  intro _
  refine ⟨?_, rs_bit0 ..⟩
  rw [major_loop (rs_m ..)]
  simp [decodeLoop, rs_f7, rs_b, rs_a, rs_f3, rs_d]

theorem send (b : Reg) (a : Reg) : Statement (.send b a) := by
  intro _
  refine ⟨?_, rs_bit0 ..⟩
  rw [major_msg (rs_m ..)]
  simp [decodeMsg, rs_f7, rs_b, rs_a, rs_f3, rs_d]

theorem sendg (b : Reg) (a : Reg) : Statement (.sendg b a) := by
  intro _
  refine ⟨?_, rs_bit0 ..⟩
  rw [major_msg (rs_m ..)]
  simp [decodeMsg, rs_f7, rs_b, rs_a, rs_f3, rs_d]

theorem sendf (b : Reg) (a : Reg) : Statement (.sendf b a) := by
  intro _
  refine ⟨?_, rs_bit0 ..⟩
  rw [major_msg (rs_m ..)]
  simp [decodeMsg, rs_f7, rs_b, rs_a, rs_f3, rs_d]

theorem mld (a : Reg) (d : Reg) : Statement (.mld a d) := by
  intro _
  refine ⟨?_, rs_bit0 ..⟩
  rw [major_msg (rs_m ..)]
  simp [decodeMsg, rs_f7, rs_b, rs_a, rs_f3, rs_d]

theorem mlen (d : Reg) : Statement (.mlen d) := by
  intro _
  refine ⟨?_, rs_bit0 ..⟩
  rw [major_msg (rs_m ..)]
  simp [decodeMsg, rs_f7, rs_b, rs_a, rs_f3, rs_d]

theorem mhdr (a : Reg) (d : Reg) : Statement (.mhdr a d) := by
  intro _
  refine ⟨?_, rs_bit0 ..⟩
  rw [major_msg (rs_m ..)]
  simp [decodeMsg, rs_f7, rs_b, rs_a, rs_f3, rs_d]

theorem endAct : Statement .endAct := by
  intro _
  refine ⟨?_, rs_bit0 ..⟩
  rw [major_act (rs_m ..)]
  simp [decodeAct, rs_f7, rs_b, rs_a, rs_f3, rs_d]

theorem endx : Statement .endx := by
  intro _
  refine ⟨?_, rs_bit0 ..⟩
  rw [major_act (rs_m ..)]
  simp [decodeAct, rs_f7, rs_b, rs_a, rs_f3, rs_d]

theorem grank (a : Reg) (d : Reg) : Statement (.grank a d) := by
  intro _
  refine ⟨?_, rs_bit0 ..⟩
  rw [major_grp (rs_m ..)]
  simp [decodeGrp, rs_f7, rs_b, rs_a, rs_f3, rs_d]

theorem gsize (a : Reg) (d : Reg) : Statement (.gsize a d) := by
  intro _
  refine ⟨?_, rs_bit0 ..⟩
  rw [major_grp (rs_m ..)]
  simp [decodeGrp, rs_f7, rs_b, rs_a, rs_f3, rs_d]

theorem gmemb (b : Reg) (a : Reg) (d : Reg) : Statement (.gmemb b a d) := by
  intro _
  refine ⟨?_, rs_bit0 ..⟩
  rw [major_grp (rs_m ..)]
  simp [decodeGrp, rs_f7, rs_b, rs_a, rs_f3, rs_d]

theorem barm (s : BitVec 3) (o : BitVec 3) (b : Reg) (a : Reg) : Statement (.barm s o b a) := by
  intro _
  refine ⟨?_, rs_bit0 ..⟩
  rw [major_bar (rs_m ..)]
  simp [decodeBar, rs_f7, rs_b, rs_a, rs_f3, rs_d, cat133_hi, cat133_mid, cat133_lo]

theorem barv (b : Reg) (a : Reg) : Statement (.barv b a) := by
  intro _
  refine ⟨?_, rs_bit0 ..⟩
  rw [major_bar (rs_m ..)]
  simp [decodeBar, rs_f7, rs_b, rs_a, rs_f3, rs_d]

theorem barw (a : Reg) (d : Reg) : Statement (.barw a d) := by
  intro _
  refine ⟨?_, rs_bit0 ..⟩
  rw [major_bar (rs_m ..)]
  simp [decodeBar, rs_f7, rs_b, rs_a, rs_f3, rs_d]

theorem barx (a : Reg) : Statement (.barx a) := by
  intro _
  refine ⟨?_, rs_bit0 ..⟩
  rw [major_bar (rs_m ..)]
  simp [decodeBar, rs_f7, rs_b, rs_a, rs_f3, rs_d]

theorem barq (a : Reg) (d : Reg) : Statement (.barq a d) := by
  intro _
  refine ⟨?_, rs_bit0 ..⟩
  rw [major_bar (rs_m ..)]
  simp [decodeBar, rs_f7, rs_b, rs_a, rs_f3, rs_d]

theorem bcast (n : BitVec 4) (a : Reg) : Statement (.bcast n a) := by
  intro _
  refine ⟨?_, rs_bit0 ..⟩
  rw [major_mta (rs_m ..)]
  simp [decodeMta, rs_f7, rs_b, rs_a, rs_f3, rs_d, cat14_hi, cat14_lo]

theorem bfetch (i : BitVec 12) (a : Reg) : Statement (.bfetch i a) := by
  intro _
  refine ⟨?_, rs_bit0 ..⟩
  rw [major_mta (rs_m ..)]
  simp [decodeMta, rs_f7, rs_b, rs_a, rs_f3, rs_d, rs_i12, imm12]

theorem stop : Statement .stop := by
  intro _
  refine ⟨?_, rs_bit0 ..⟩
  rw [major_mta (rs_m ..)]
  simp [decodeMta, rs_f7, rs_b, rs_a, rs_f3, rs_d]

theorem mtwait (a : Reg) : Statement (.mtwait a) := by
  intro _
  refine ⟨?_, rs_bit0 ..⟩
  rw [major_mta (rs_m ..)]
  simp [decodeMta, rs_f7, rs_b, rs_a, rs_f3, rs_d]

theorem mtstat (d : Reg) : Statement (.mtstat d) := by
  intro _
  refine ⟨?_, rs_bit0 ..⟩
  rw [major_mta (rs_m ..)]
  simp [decodeMta, rs_f7, rs_b, rs_a, rs_f3, rs_d]

theorem mtrst (a : Reg) : Statement (.mtrst a) := by
  intro _
  refine ⟨?_, rs_bit0 ..⟩
  rw [major_mta (rs_m ..)]
  simp [decodeMta, rs_f7, rs_b, rs_a, rs_f3, rs_d]

theorem vaddVv (b : VNum) (a : VNum) (d : VNum) : Statement (.vaddVv b a d) := by
  intro _
  refine ⟨?_, rs_bit0 ..⟩
  rw [major_valu (rs_m ..)]
  simp [decodeValu, rs_f7, rs_b, rs_a, rs_f3, rs_d, cat23_hi, cat23_lo]

theorem vaddVx (b : Reg) (a : VNum) (d : VNum) : Statement (.vaddVx b a d) := by
  intro _
  refine ⟨?_, rs_bit0 ..⟩
  rw [major_valu (rs_m ..)]
  simp [decodeValu, rs_f7, rs_b, rs_a, rs_f3, rs_d, cat23_hi, cat23_lo]

theorem vaddVi (i : BitVec 5) (a : VNum) (d : VNum) : Statement (.vaddVi i a d) := by
  intro _
  refine ⟨?_, rs_bit0 ..⟩
  rw [major_valu (rs_m ..)]
  simp [decodeValu, rs_f7, rs_b, rs_a, rs_f3, rs_d, cat23_hi, cat23_lo]

theorem vsubVv (b : VNum) (a : VNum) (d : VNum) : Statement (.vsubVv b a d) := by
  intro _
  refine ⟨?_, rs_bit0 ..⟩
  rw [major_valu (rs_m ..)]
  simp [decodeValu, rs_f7, rs_b, rs_a, rs_f3, rs_d, cat23_hi, cat23_lo]

theorem vsubVx (b : Reg) (a : VNum) (d : VNum) : Statement (.vsubVx b a d) := by
  intro _
  refine ⟨?_, rs_bit0 ..⟩
  rw [major_valu (rs_m ..)]
  simp [decodeValu, rs_f7, rs_b, rs_a, rs_f3, rs_d, cat23_hi, cat23_lo]

theorem vsubVi (i : BitVec 5) (a : VNum) (d : VNum) : Statement (.vsubVi i a d) := by
  intro _
  refine ⟨?_, rs_bit0 ..⟩
  rw [major_valu (rs_m ..)]
  simp [decodeValu, rs_f7, rs_b, rs_a, rs_f3, rs_d, cat23_hi, cat23_lo]

theorem vmulVv (b : VNum) (a : VNum) (d : VNum) : Statement (.vmulVv b a d) := by
  intro _
  refine ⟨?_, rs_bit0 ..⟩
  rw [major_valu (rs_m ..)]
  simp [decodeValu, rs_f7, rs_b, rs_a, rs_f3, rs_d, cat23_hi, cat23_lo]

theorem vmulVx (b : Reg) (a : VNum) (d : VNum) : Statement (.vmulVx b a d) := by
  intro _
  refine ⟨?_, rs_bit0 ..⟩
  rw [major_valu (rs_m ..)]
  simp [decodeValu, rs_f7, rs_b, rs_a, rs_f3, rs_d, cat23_hi, cat23_lo]

theorem vmulVi (i : BitVec 5) (a : VNum) (d : VNum) : Statement (.vmulVi i a d) := by
  intro _
  refine ⟨?_, rs_bit0 ..⟩
  rw [major_valu (rs_m ..)]
  simp [decodeValu, rs_f7, rs_b, rs_a, rs_f3, rs_d, cat23_hi, cat23_lo]

theorem vminVv (b : VNum) (a : VNum) (d : VNum) : Statement (.vminVv b a d) := by
  intro _
  refine ⟨?_, rs_bit0 ..⟩
  rw [major_valu (rs_m ..)]
  simp [decodeValu, rs_f7, rs_b, rs_a, rs_f3, rs_d, cat23_hi, cat23_lo]

theorem vminVx (b : Reg) (a : VNum) (d : VNum) : Statement (.vminVx b a d) := by
  intro _
  refine ⟨?_, rs_bit0 ..⟩
  rw [major_valu (rs_m ..)]
  simp [decodeValu, rs_f7, rs_b, rs_a, rs_f3, rs_d, cat23_hi, cat23_lo]

theorem vminVi (i : BitVec 5) (a : VNum) (d : VNum) : Statement (.vminVi i a d) := by
  intro _
  refine ⟨?_, rs_bit0 ..⟩
  rw [major_valu (rs_m ..)]
  simp [decodeValu, rs_f7, rs_b, rs_a, rs_f3, rs_d, cat23_hi, cat23_lo]

theorem vmaxVv (b : VNum) (a : VNum) (d : VNum) : Statement (.vmaxVv b a d) := by
  intro _
  refine ⟨?_, rs_bit0 ..⟩
  rw [major_valu (rs_m ..)]
  simp [decodeValu, rs_f7, rs_b, rs_a, rs_f3, rs_d, cat23_hi, cat23_lo]

theorem vmaxVx (b : Reg) (a : VNum) (d : VNum) : Statement (.vmaxVx b a d) := by
  intro _
  refine ⟨?_, rs_bit0 ..⟩
  rw [major_valu (rs_m ..)]
  simp [decodeValu, rs_f7, rs_b, rs_a, rs_f3, rs_d, cat23_hi, cat23_lo]

theorem vmaxVi (i : BitVec 5) (a : VNum) (d : VNum) : Statement (.vmaxVi i a d) := by
  intro _
  refine ⟨?_, rs_bit0 ..⟩
  rw [major_valu (rs_m ..)]
  simp [decodeValu, rs_f7, rs_b, rs_a, rs_f3, rs_d, cat23_hi, cat23_lo]

theorem vandVv (b : VNum) (a : VNum) (d : VNum) : Statement (.vandVv b a d) := by
  intro _
  refine ⟨?_, rs_bit0 ..⟩
  rw [major_valu (rs_m ..)]
  simp [decodeValu, rs_f7, rs_b, rs_a, rs_f3, rs_d, cat23_hi, cat23_lo]

theorem vandVx (b : Reg) (a : VNum) (d : VNum) : Statement (.vandVx b a d) := by
  intro _
  refine ⟨?_, rs_bit0 ..⟩
  rw [major_valu (rs_m ..)]
  simp [decodeValu, rs_f7, rs_b, rs_a, rs_f3, rs_d, cat23_hi, cat23_lo]

theorem vandVi (i : BitVec 5) (a : VNum) (d : VNum) : Statement (.vandVi i a d) := by
  intro _
  refine ⟨?_, rs_bit0 ..⟩
  rw [major_valu (rs_m ..)]
  simp [decodeValu, rs_f7, rs_b, rs_a, rs_f3, rs_d, cat23_hi, cat23_lo]

theorem vorVv (b : VNum) (a : VNum) (d : VNum) : Statement (.vorVv b a d) := by
  intro _
  refine ⟨?_, rs_bit0 ..⟩
  rw [major_valu (rs_m ..)]
  simp [decodeValu, rs_f7, rs_b, rs_a, rs_f3, rs_d, cat23_hi, cat23_lo]

theorem vorVx (b : Reg) (a : VNum) (d : VNum) : Statement (.vorVx b a d) := by
  intro _
  refine ⟨?_, rs_bit0 ..⟩
  rw [major_valu (rs_m ..)]
  simp [decodeValu, rs_f7, rs_b, rs_a, rs_f3, rs_d, cat23_hi, cat23_lo]

theorem vorVi (i : BitVec 5) (a : VNum) (d : VNum) : Statement (.vorVi i a d) := by
  intro _
  refine ⟨?_, rs_bit0 ..⟩
  rw [major_valu (rs_m ..)]
  simp [decodeValu, rs_f7, rs_b, rs_a, rs_f3, rs_d, cat23_hi, cat23_lo]

theorem vxorVv (b : VNum) (a : VNum) (d : VNum) : Statement (.vxorVv b a d) := by
  intro _
  refine ⟨?_, rs_bit0 ..⟩
  rw [major_valu (rs_m ..)]
  simp [decodeValu, rs_f7, rs_b, rs_a, rs_f3, rs_d, cat23_hi, cat23_lo]

theorem vxorVx (b : Reg) (a : VNum) (d : VNum) : Statement (.vxorVx b a d) := by
  intro _
  refine ⟨?_, rs_bit0 ..⟩
  rw [major_valu (rs_m ..)]
  simp [decodeValu, rs_f7, rs_b, rs_a, rs_f3, rs_d, cat23_hi, cat23_lo]

theorem vxorVi (i : BitVec 5) (a : VNum) (d : VNum) : Statement (.vxorVi i a d) := by
  intro _
  refine ⟨?_, rs_bit0 ..⟩
  rw [major_valu (rs_m ..)]
  simp [decodeValu, rs_f7, rs_b, rs_a, rs_f3, rs_d, cat23_hi, cat23_lo]

theorem vshlVv (b : VNum) (a : VNum) (d : VNum) : Statement (.vshlVv b a d) := by
  intro _
  refine ⟨?_, rs_bit0 ..⟩
  rw [major_valu (rs_m ..)]
  simp [decodeValu, rs_f7, rs_b, rs_a, rs_f3, rs_d, cat23_hi, cat23_lo]

theorem vshlVx (b : Reg) (a : VNum) (d : VNum) : Statement (.vshlVx b a d) := by
  intro _
  refine ⟨?_, rs_bit0 ..⟩
  rw [major_valu (rs_m ..)]
  simp [decodeValu, rs_f7, rs_b, rs_a, rs_f3, rs_d, cat23_hi, cat23_lo]

theorem vshlVi (i : BitVec 5) (a : VNum) (d : VNum) : Statement (.vshlVi i a d) := by
  intro _
  refine ⟨?_, rs_bit0 ..⟩
  rw [major_valu (rs_m ..)]
  simp [decodeValu, rs_f7, rs_b, rs_a, rs_f3, rs_d, cat23_hi, cat23_lo]

theorem vshrVv (b : VNum) (a : VNum) (d : VNum) : Statement (.vshrVv b a d) := by
  intro _
  refine ⟨?_, rs_bit0 ..⟩
  rw [major_valu (rs_m ..)]
  simp [decodeValu, rs_f7, rs_b, rs_a, rs_f3, rs_d, cat23_hi, cat23_lo]

theorem vshrVx (b : Reg) (a : VNum) (d : VNum) : Statement (.vshrVx b a d) := by
  intro _
  refine ⟨?_, rs_bit0 ..⟩
  rw [major_valu (rs_m ..)]
  simp [decodeValu, rs_f7, rs_b, rs_a, rs_f3, rs_d, cat23_hi, cat23_lo]

theorem vshrVi (i : BitVec 5) (a : VNum) (d : VNum) : Statement (.vshrVi i a d) := by
  intro _
  refine ⟨?_, rs_bit0 ..⟩
  rw [major_valu (rs_m ..)]
  simp [decodeValu, rs_f7, rs_b, rs_a, rs_f3, rs_d, cat23_hi, cat23_lo]

theorem vsraVv (b : VNum) (a : VNum) (d : VNum) : Statement (.vsraVv b a d) := by
  intro _
  refine ⟨?_, rs_bit0 ..⟩
  rw [major_valu (rs_m ..)]
  simp [decodeValu, rs_f7, rs_b, rs_a, rs_f3, rs_d, cat23_hi, cat23_lo]

theorem vsraVx (b : Reg) (a : VNum) (d : VNum) : Statement (.vsraVx b a d) := by
  intro _
  refine ⟨?_, rs_bit0 ..⟩
  rw [major_valu (rs_m ..)]
  simp [decodeValu, rs_f7, rs_b, rs_a, rs_f3, rs_d, cat23_hi, cat23_lo]

theorem vsraVi (i : BitVec 5) (a : VNum) (d : VNum) : Statement (.vsraVi i a d) := by
  intro _
  refine ⟨?_, rs_bit0 ..⟩
  rw [major_valu (rs_m ..)]
  simp [decodeValu, rs_f7, rs_b, rs_a, rs_f3, rs_d, cat23_hi, cat23_lo]

theorem vabs (a : VNum) (d : VNum) : Statement (.vabs a d) := by
  intro _
  refine ⟨?_, rs_bit0 ..⟩
  rw [major_valu (rs_m ..)]
  simp [decodeValu, rs_f7, rs_b, rs_a, rs_f3, rs_d, cat23_hi, cat23_lo]

theorem vneg (a : VNum) (d : VNum) : Statement (.vneg a d) := by
  intro _
  refine ⟨?_, rs_bit0 ..⟩
  rw [major_valu (rs_m ..)]
  simp [decodeValu, rs_f7, rs_b, rs_a, rs_f3, rs_d, cat23_hi, cat23_lo]

theorem vcmpeqVv (b : VNum) (a : VNum) (d : VNum) : Statement (.vcmpeqVv b a d) := by
  intro _
  refine ⟨?_, rs_bit0 ..⟩
  rw [major_valu (rs_m ..)]
  simp [decodeValu, rs_f7, rs_b, rs_a, rs_f3, rs_d, cat23_hi, cat23_lo]

theorem vcmpeqVx (b : Reg) (a : VNum) (d : VNum) : Statement (.vcmpeqVx b a d) := by
  intro _
  refine ⟨?_, rs_bit0 ..⟩
  rw [major_valu (rs_m ..)]
  simp [decodeValu, rs_f7, rs_b, rs_a, rs_f3, rs_d, cat23_hi, cat23_lo]

theorem vcmpeqVi (i : BitVec 5) (a : VNum) (d : VNum) : Statement (.vcmpeqVi i a d) := by
  intro _
  refine ⟨?_, rs_bit0 ..⟩
  rw [major_valu (rs_m ..)]
  simp [decodeValu, rs_f7, rs_b, rs_a, rs_f3, rs_d, cat23_hi, cat23_lo]

theorem vcmpltVv (b : VNum) (a : VNum) (d : VNum) : Statement (.vcmpltVv b a d) := by
  intro _
  refine ⟨?_, rs_bit0 ..⟩
  rw [major_valu (rs_m ..)]
  simp [decodeValu, rs_f7, rs_b, rs_a, rs_f3, rs_d, cat23_hi, cat23_lo]

theorem vcmpltVx (b : Reg) (a : VNum) (d : VNum) : Statement (.vcmpltVx b a d) := by
  intro _
  refine ⟨?_, rs_bit0 ..⟩
  rw [major_valu (rs_m ..)]
  simp [decodeValu, rs_f7, rs_b, rs_a, rs_f3, rs_d, cat23_hi, cat23_lo]

theorem vcmpltVi (i : BitVec 5) (a : VNum) (d : VNum) : Statement (.vcmpltVi i a d) := by
  intro _
  refine ⟨?_, rs_bit0 ..⟩
  rw [major_valu (rs_m ..)]
  simp [decodeValu, rs_f7, rs_b, rs_a, rs_f3, rs_d, cat23_hi, cat23_lo]

theorem vselVv (b : VNum) (a : VNum) (d : VNum) : Statement (.vselVv b a d) := by
  intro _
  refine ⟨?_, rs_bit0 ..⟩
  rw [major_valu (rs_m ..)]
  simp [decodeValu, rs_f7, rs_b, rs_a, rs_f3, rs_d, cat23_hi, cat23_lo]

theorem vselVx (b : Reg) (a : VNum) (d : VNum) : Statement (.vselVx b a d) := by
  intro _
  refine ⟨?_, rs_bit0 ..⟩
  rw [major_valu (rs_m ..)]
  simp [decodeValu, rs_f7, rs_b, rs_a, rs_f3, rs_d, cat23_hi, cat23_lo]

theorem vselVi (i : BitVec 5) (a : VNum) (d : VNum) : Statement (.vselVi i a d) := by
  intro _
  refine ⟨?_, rs_bit0 ..⟩
  rw [major_valu (rs_m ..)]
  simp [decodeValu, rs_f7, rs_b, rs_a, rs_f3, rs_d, cat23_hi, cat23_lo]

theorem vfaddVv (b : VNum) (a : VNum) (d : VNum) : Statement (.vfaddVv b a d) := by
  intro _
  refine ⟨?_, rs_bit0 ..⟩
  rw [major_vfp (rs_m ..)]
  simp [decodeVfp, rs_f7, rs_b, rs_a, rs_f3, rs_d, cat23_hi, cat23_lo]

theorem vfaddVx (b : Reg) (a : VNum) (d : VNum) : Statement (.vfaddVx b a d) := by
  intro _
  refine ⟨?_, rs_bit0 ..⟩
  rw [major_vfp (rs_m ..)]
  simp [decodeVfp, rs_f7, rs_b, rs_a, rs_f3, rs_d, cat23_hi, cat23_lo]

theorem vfsubVv (b : VNum) (a : VNum) (d : VNum) : Statement (.vfsubVv b a d) := by
  intro _
  refine ⟨?_, rs_bit0 ..⟩
  rw [major_vfp (rs_m ..)]
  simp [decodeVfp, rs_f7, rs_b, rs_a, rs_f3, rs_d, cat23_hi, cat23_lo]

theorem vfsubVx (b : Reg) (a : VNum) (d : VNum) : Statement (.vfsubVx b a d) := by
  intro _
  refine ⟨?_, rs_bit0 ..⟩
  rw [major_vfp (rs_m ..)]
  simp [decodeVfp, rs_f7, rs_b, rs_a, rs_f3, rs_d, cat23_hi, cat23_lo]

theorem vfmulVv (b : VNum) (a : VNum) (d : VNum) : Statement (.vfmulVv b a d) := by
  intro _
  refine ⟨?_, rs_bit0 ..⟩
  rw [major_vfp (rs_m ..)]
  simp [decodeVfp, rs_f7, rs_b, rs_a, rs_f3, rs_d, cat23_hi, cat23_lo]

theorem vfmulVx (b : Reg) (a : VNum) (d : VNum) : Statement (.vfmulVx b a d) := by
  intro _
  refine ⟨?_, rs_bit0 ..⟩
  rw [major_vfp (rs_m ..)]
  simp [decodeVfp, rs_f7, rs_b, rs_a, rs_f3, rs_d, cat23_hi, cat23_lo]

theorem vfmaVv (b : VNum) (a : VNum) (d : VNum) : Statement (.vfmaVv b a d) := by
  intro _
  refine ⟨?_, rs_bit0 ..⟩
  rw [major_vfp (rs_m ..)]
  simp [decodeVfp, rs_f7, rs_b, rs_a, rs_f3, rs_d, cat23_hi, cat23_lo]

theorem vfmaVx (b : Reg) (a : VNum) (d : VNum) : Statement (.vfmaVx b a d) := by
  intro _
  refine ⟨?_, rs_bit0 ..⟩
  rw [major_vfp (rs_m ..)]
  simp [decodeVfp, rs_f7, rs_b, rs_a, rs_f3, rs_d, cat23_hi, cat23_lo]

theorem vfminVv (b : VNum) (a : VNum) (d : VNum) : Statement (.vfminVv b a d) := by
  intro _
  refine ⟨?_, rs_bit0 ..⟩
  rw [major_vfp (rs_m ..)]
  simp [decodeVfp, rs_f7, rs_b, rs_a, rs_f3, rs_d, cat23_hi, cat23_lo]

theorem vfminVx (b : Reg) (a : VNum) (d : VNum) : Statement (.vfminVx b a d) := by
  intro _
  refine ⟨?_, rs_bit0 ..⟩
  rw [major_vfp (rs_m ..)]
  simp [decodeVfp, rs_f7, rs_b, rs_a, rs_f3, rs_d, cat23_hi, cat23_lo]

theorem vfmaxVv (b : VNum) (a : VNum) (d : VNum) : Statement (.vfmaxVv b a d) := by
  intro _
  refine ⟨?_, rs_bit0 ..⟩
  rw [major_vfp (rs_m ..)]
  simp [decodeVfp, rs_f7, rs_b, rs_a, rs_f3, rs_d, cat23_hi, cat23_lo]

theorem vfmaxVx (b : Reg) (a : VNum) (d : VNum) : Statement (.vfmaxVx b a d) := by
  intro _
  refine ⟨?_, rs_bit0 ..⟩
  rw [major_vfp (rs_m ..)]
  simp [decodeVfp, rs_f7, rs_b, rs_a, rs_f3, rs_d, cat23_hi, cat23_lo]

theorem vfexp2 (a : VNum) (d : VNum) : Statement (.vfexp2 a d) := by
  intro _
  refine ⟨?_, rs_bit0 ..⟩
  rw [major_vfp (rs_m ..)]
  simp [decodeVfp, rs_f7, rs_b, rs_a, rs_f3, rs_d, cat23_hi, cat23_lo]

theorem vflog2 (a : VNum) (d : VNum) : Statement (.vflog2 a d) := by
  intro _
  refine ⟨?_, rs_bit0 ..⟩
  rw [major_vfp (rs_m ..)]
  simp [decodeVfp, rs_f7, rs_b, rs_a, rs_f3, rs_d, cat23_hi, cat23_lo]

theorem vfrcp (a : VNum) (d : VNum) : Statement (.vfrcp a d) := by
  intro _
  refine ⟨?_, rs_bit0 ..⟩
  rw [major_vfp (rs_m ..)]
  simp [decodeVfp, rs_f7, rs_b, rs_a, rs_f3, rs_d, cat23_hi, cat23_lo]

theorem vfrsq (a : VNum) (d : VNum) : Statement (.vfrsq a d) := by
  intro _
  refine ⟨?_, rs_bit0 ..⟩
  rw [major_vfp (rs_m ..)]
  simp [decodeVfp, rs_f7, rs_b, rs_a, rs_f3, rs_d, cat23_hi, cat23_lo]

theorem vfcmpltVv (b : VNum) (a : VNum) (d : VNum) : Statement (.vfcmpltVv b a d) := by
  intro _
  refine ⟨?_, rs_bit0 ..⟩
  rw [major_vfp (rs_m ..)]
  simp [decodeVfp, rs_f7, rs_b, rs_a, rs_f3, rs_d, cat23_hi, cat23_lo]

theorem vfcmpltVx (b : Reg) (a : VNum) (d : VNum) : Statement (.vfcmpltVx b a d) := by
  intro _
  refine ⟨?_, rs_bit0 ..⟩
  rw [major_vfp (rs_m ..)]
  simp [decodeVfp, rs_f7, rs_b, rs_a, rs_f3, rs_d, cat23_hi, cat23_lo]

theorem vfcmpeqVv (b : VNum) (a : VNum) (d : VNum) : Statement (.vfcmpeqVv b a d) := by
  intro _
  refine ⟨?_, rs_bit0 ..⟩
  rw [major_vfp (rs_m ..)]
  simp [decodeVfp, rs_f7, rs_b, rs_a, rs_f3, rs_d, cat23_hi, cat23_lo]

theorem vfcmpeqVx (b : Reg) (a : VNum) (d : VNum) : Statement (.vfcmpeqVx b a d) := by
  intro _
  refine ⟨?_, rs_bit0 ..⟩
  rw [major_vfp (rs_m ..)]
  simp [decodeVfp, rs_f7, rs_b, rs_a, rs_f3, rs_d, cat23_hi, cat23_lo]

theorem vld (f : BitVec 5) (a : Reg) (d : VNum) : Statement (.vld f a d) := by
  intro _
  refine ⟨?_, rs_bit0 ..⟩
  rw [major_vmem (rs_m ..)]
  simp [decodeVmem, rs_f7, rs_b, rs_a, rs_f3, rs_d, cat23_hi, cat23_lo]

theorem vst (a : Reg) (d : VNum) : Statement (.vst a d) := by
  intro _
  refine ⟨?_, rs_bit0 ..⟩
  rw [major_vmem (rs_m ..)]
  simp [decodeVmem, rs_f7, rs_b, rs_a, rs_f3, rs_d, cat23_hi, cat23_lo]

theorem vldp (k : BitVec 5) (a : Reg) (d : VNum) : Statement (.vldp k a d) := by
  intro _
  refine ⟨?_, rs_bit0 ..⟩
  rw [major_vmem (rs_m ..)]
  simp [decodeVmem, rs_f7, rs_b, rs_a, rs_f3, rs_d, cat23_hi, cat23_lo]

theorem vstp (k : BitVec 5) (a : Reg) (d : VNum) : Statement (.vstp k a d) := by
  intro _
  refine ⟨?_, rs_bit0 ..⟩
  rw [major_vmem (rs_m ..)]
  simp [decodeVmem, rs_f7, rs_b, rs_a, rs_f3, rs_d, cat23_hi, cat23_lo]

theorem vcvt (p : BitVec 3) (f : BitVec 4) (a : VNum) (d : VNum) : Statement (.vcvt p f a d) := by
  intro _
  refine ⟨?_, rs_bit0 ..⟩
  rw [major_vcvt (rs_m ..)]
  simp [decodeVcvt, rs_f7, rs_b, rs_a, rs_f3, rs_d, cat34_hi, cat34_lo, cat23_hi, cat23_lo]

theorem vsplit (p : BitVec 3) (f : BitVec 4) (a : VNum) (d : VNum) : Statement (.vsplit p f a d) := by
  intro _
  refine ⟨?_, rs_bit0 ..⟩
  rw [major_vcvt (rs_m ..)]
  simp [decodeVcvt, rs_f7, rs_b, rs_a, rs_f3, rs_d, cat34_hi, cat34_lo, cat23_hi, cat23_lo]

theorem vscale (b : Reg) (a : VNum) (d : VNum) : Statement (.vscale b a d) := by
  intro _
  refine ⟨?_, rs_bit0 ..⟩
  rw [major_vcvt (rs_m ..)]
  simp [decodeVcvt, rs_f7, rs_b, rs_a, rs_f3, rs_d, cat23_hi, cat23_lo]

theorem vtag (a : Reg) (d : VNum) : Statement (.vtag a d) := by
  intro _
  refine ⟨?_, rs_bit0 ..⟩
  rw [major_vcvt (rs_m ..)]
  simp [decodeVcvt, rs_f7, rs_b, rs_a, rs_f3, rs_d, cat23_hi, cat23_lo]

theorem vrsumRow (a : VNum) (d : VNum) : Statement (.vrsumRow a d) := by
  intro _
  refine ⟨?_, rs_bit0 ..⟩
  rw [major_vred (rs_m ..)]
  simp [decodeVred, rs_f7, rs_b, rs_a, rs_f3, rs_d, cat23_hi, cat23_lo]

theorem vrsumCol (a : VNum) (d : VNum) : Statement (.vrsumCol a d) := by
  intro _
  refine ⟨?_, rs_bit0 ..⟩
  rw [major_vred (rs_m ..)]
  simp [decodeVred, rs_f7, rs_b, rs_a, rs_f3, rs_d, cat23_hi, cat23_lo]

theorem vrmaxRow (a : VNum) (d : VNum) : Statement (.vrmaxRow a d) := by
  intro _
  refine ⟨?_, rs_bit0 ..⟩
  rw [major_vred (rs_m ..)]
  simp [decodeVred, rs_f7, rs_b, rs_a, rs_f3, rs_d, cat23_hi, cat23_lo]

theorem vrmaxCol (a : VNum) (d : VNum) : Statement (.vrmaxCol a d) := by
  intro _
  refine ⟨?_, rs_bit0 ..⟩
  rw [major_vred (rs_m ..)]
  simp [decodeVred, rs_f7, rs_b, rs_a, rs_f3, rs_d, cat23_hi, cat23_lo]

theorem vrminRow (a : VNum) (d : VNum) : Statement (.vrminRow a d) := by
  intro _
  refine ⟨?_, rs_bit0 ..⟩
  rw [major_vred (rs_m ..)]
  simp [decodeVred, rs_f7, rs_b, rs_a, rs_f3, rs_d, cat23_hi, cat23_lo]

theorem vrminCol (a : VNum) (d : VNum) : Statement (.vrminCol a d) := by
  intro _
  refine ⟨?_, rs_bit0 ..⟩
  rw [major_vred (rs_m ..)]
  simp [decodeVred, rs_f7, rs_b, rs_a, rs_f3, rs_d, cat23_hi, cat23_lo]

theorem vscanRow (a : VNum) (d : VNum) : Statement (.vscanRow a d) := by
  intro _
  refine ⟨?_, rs_bit0 ..⟩
  rw [major_vred (rs_m ..)]
  simp [decodeVred, rs_f7, rs_b, rs_a, rs_f3, rs_d, cat23_hi, cat23_lo]

theorem vscanCol (a : VNum) (d : VNum) : Statement (.vscanCol a d) := by
  intro _
  refine ⟨?_, rs_bit0 ..⟩
  rw [major_vred (rs_m ..)]
  simp [decodeVred, rs_f7, rs_b, rs_a, rs_f3, rs_d, cat23_hi, cat23_lo]

theorem vshape (a : Reg) : Statement (.vshape a) := by
  intro _
  refine ⟨?_, rs_bit0 ..⟩
  rw [major_vmisc (rs_m ..)]
  simp [decodeVmisc, rs_f7, rs_b, rs_a, rs_f3, rs_d]

theorem vmov (a : VNum) (d : VNum) : Statement (.vmov a d) := by
  intro _
  refine ⟨?_, rs_bit0 ..⟩
  rw [major_vmisc (rs_m ..)]
  simp [decodeVmisc, rs_f7, rs_b, rs_a, rs_f3, rs_d, cat23_hi, cat23_lo]

theorem vbcr (b : Reg) (a : VNum) (d : VNum) : Statement (.vbcr b a d) := by
  intro _
  refine ⟨?_, rs_bit0 ..⟩
  rw [major_vmisc (rs_m ..)]
  simp [decodeVmisc, rs_f7, rs_b, rs_a, rs_f3, rs_d, cat23_hi, cat23_lo]

theorem vbcc (b : Reg) (a : VNum) (d : VNum) : Statement (.vbcc b a d) := by
  intro _
  refine ⟨?_, rs_bit0 ..⟩
  rw [major_vmisc (rs_m ..)]
  simp [decodeVmisc, rs_f7, rs_b, rs_a, rs_f3, rs_d, cat23_hi, cat23_lo]

theorem vtrn (a : VNum) (d : VNum) : Statement (.vtrn a d) := by
  intro _
  refine ⟨?_, rs_bit0 ..⟩
  rw [major_vmisc (rs_m ..)]
  simp [decodeVmisc, rs_f7, rs_b, rs_a, rs_f3, rs_d, cat23_hi, cat23_lo]

theorem vins (b : Reg) (a : Reg) (d : VNum) : Statement (.vins b a d) := by
  intro _
  refine ⟨?_, rs_bit0 ..⟩
  rw [major_vmisc (rs_m ..)]
  simp [decodeVmisc, rs_f7, rs_b, rs_a, rs_f3, rs_d, cat23_hi, cat23_lo]

theorem vext (b : Reg) (a : VNum) (d : Reg) : Statement (.vext b a d) := by
  intro _
  refine ⟨?_, rs_bit0 ..⟩
  rw [major_vmisc (rs_m ..)]
  simp [decodeVmisc, rs_f7, rs_b, rs_a, rs_f3, rs_d, cat23_hi, cat23_lo]

theorem mldb (m : BitVec 2) (s : BitVec 3) (o : BitVec 2) (g : BitVec 5) : Statement (.mldb m s o g) := by
  intro _
  refine ⟨?_, rs_bit0 ..⟩
  rw [major_mtx (rs_m ..)]
  simp [decodeMtx, rs_f7, rs_b, rs_a, rs_f3, rs_d, cat52_hi, cat52_lo, cat32_hi, cat32_lo]

theorem mmul (t : BitVec 2) (m : BitVec 2) (s : BitVec 3) (o : BitVec 2) (g : BitVec 5) : Statement (.mmul t m s o g) := by
  intro _
  refine ⟨?_, rs_bit0 ..⟩
  rw [major_mtx (rs_m ..)]
  simp [decodeMtx, rs_f7, rs_b, rs_a, rs_f3, rs_d, cat322_hi, cat322_mid, cat322_lo, cat32_hi, cat32_lo]

theorem mmrot (t : BitVec 2) (m : BitVec 2) (s : BitVec 3) (o : BitVec 2) (g : BitVec 5) : Statement (.mmrot t m s o g) := by
  intro _
  refine ⟨?_, rs_bit0 ..⟩
  rw [major_mtx (rs_m ..)]
  simp [decodeMtx, rs_f7, rs_b, rs_a, rs_f3, rs_d, cat322_hi, cat322_mid, cat322_lo, cat32_hi, cat32_lo]

theorem mdrain (t : BitVec 2) (s : BitVec 3) (o : BitVec 2) (g : BitVec 5) : Statement (.mdrain t s o g) := by
  intro _
  refine ⟨?_, rs_bit0 ..⟩
  rw [major_mtx (rs_m ..)]
  simp [decodeMtx, rs_f7, rs_b, rs_a, rs_f3, rs_d, cat322_hi, cat322_mid, cat322_lo, cat32_hi, cat32_lo]

theorem mzero (t : BitVec 2) (s : BitVec 3) (o : BitVec 2) (g : BitVec 5) : Statement (.mzero t s o g) := by
  intro _
  refine ⟨?_, rs_bit0 ..⟩
  rw [major_mtx (rs_m ..)]
  simp [decodeMtx, rs_f7, rs_b, rs_a, rs_f3, rs_d, cat322_hi, cat322_mid, cat322_lo, cat32_hi, cat32_lo]

theorem mwait : Statement .mwait := by
  intro _
  refine ⟨?_, rs_bit0 ..⟩
  rw [major_mtx (rs_m ..)]
  simp [decodeMtx, rs_f7, rs_b, rs_a, rs_f3, rs_d]

theorem mstat (d : Reg) : Statement (.mstat d) := by
  intro _
  refine ⟨?_, rs_bit0 ..⟩
  rw [major_mtx (rs_m ..)]
  simp [decodeMtx, rs_f7, rs_b, rs_a, rs_f3, rs_d]

theorem cpy (s : BitVec 3) (o : BitVec 2) (g : BitVec 5) : Statement (.cpy s o g) := by
  intro _
  refine ⟨?_, rs_bit0 ..⟩
  rw [major_cpy (rs_m ..)]
  simp [decodeCpy, rs_f7, rs_b, rs_a, rs_f3, rs_d, cat32_hi, cat32_lo]

theorem cpyx (s : BitVec 3) (o : BitVec 2) (g : BitVec 5) : Statement (.cpyx s o g) := by
  intro _
  refine ⟨?_, rs_bit0 ..⟩
  rw [major_cpy (rs_m ..)]
  simp [decodeCpy, rs_f7, rs_b, rs_a, rs_f3, rs_d, cat32_hi, cat32_lo]

theorem cpyw (a : Reg) : Statement (.cpyw a) := by
  intro _
  refine ⟨?_, rs_bit0 ..⟩
  rw [major_cpy (rs_m ..)]
  simp [decodeCpy, rs_f7, rs_b, rs_a, rs_f3, rs_d]

theorem cpyq (d : Reg) : Statement (.cpyq d) := by
  intro _
  refine ⟨?_, rs_bit0 ..⟩
  rw [major_cpy (rs_m ..)]
  simp [decodeCpy, rs_f7, rs_b, rs_a, rs_f3, rs_d]

theorem map (r : BitVec 6) (b : Reg) (a : Reg) (d : Reg) : Statement (.map r b a d) := by
  intro _
  refine ⟨?_, rs_bit0 ..⟩
  rw [major_map (rs_m ..)]
  simp [decodeMap, rs_f7, rs_b, rs_a, rs_f3, rs_d, cat16_hi, cat16_lo]

theorem grant (r : BitVec 6) (b : Reg) (a : Reg) (d : Reg) : Statement (.grant r b a d) := by
  intro _
  refine ⟨?_, rs_bit0 ..⟩
  rw [major_map (rs_m ..)]
  simp [decodeMap, rs_f7, rs_b, rs_a, rs_f3, rs_d, cat16_hi, cat16_lo]

theorem unmap (a : Reg) (d : Reg) : Statement (.unmap a d) := by
  intro _
  refine ⟨?_, rs_bit0 ..⟩
  rw [major_map (rs_m ..)]
  simp [decodeMap, rs_f7, rs_b, rs_a, rs_f3, rs_d]

theorem mquery (a : Reg) (d : Reg) : Statement (.mquery a d) := by
  intro _
  refine ⟨?_, rs_bit0 ..⟩
  rw [major_map (rs_m ..)]
  simp [decodeMap, rs_f7, rs_b, rs_a, rs_f3, rs_d]

theorem release (a : Reg) : Statement (.release a) := by
  intro _
  refine ⟨?_, rs_bit0 ..⟩
  rw [major_map (rs_m ..)]
  simp [decodeMap, rs_f7, rs_b, rs_a, rs_f3, rs_d]

theorem accept (a : Reg) (d : Reg) : Statement (.accept a d) := by
  intro _
  refine ⟨?_, rs_bit0 ..⟩
  rw [major_map (rs_m ..)]
  simp [decodeMap, rs_f7, rs_b, rs_a, rs_f3, rs_d]

theorem csrr (s : BitVec 12) (d : Reg) : Statement (.csrr s d) := by
  intro _
  refine ⟨?_, rs_bit0 ..⟩
  rw [major_sys (rs_m ..)]
  simp [decodeSys, rs_f7, rs_b, rs_a, rs_f3, rs_d, rs_i12, imm12]

theorem csrw (s : BitVec 12) (a : Reg) (d : Reg) : Statement (.csrw s a d) := by
  intro _
  refine ⟨?_, rs_bit0 ..⟩
  rw [major_sys (rs_m ..)]
  simp [decodeSys, rs_f7, rs_b, rs_a, rs_f3, rs_d, rs_i12, imm12]

theorem csrs (s : BitVec 12) (a : Reg) (d : Reg) : Statement (.csrs s a d) := by
  intro _
  refine ⟨?_, rs_bit0 ..⟩
  rw [major_sys (rs_m ..)]
  simp [decodeSys, rs_f7, rs_b, rs_a, rs_f3, rs_d, rs_i12, imm12]

theorem csrc (s : BitVec 12) (a : Reg) (d : Reg) : Statement (.csrc s a d) := by
  intro _
  refine ⟨?_, rs_bit0 ..⟩
  rw [major_sys (rs_m ..)]
  simp [decodeSys, rs_f7, rs_b, rs_a, rs_f3, rs_d, rs_i12, imm12]

theorem trap (a : Reg) : Statement (.trap a) := by
  intro _
  refine ⟨?_, rs_bit0 ..⟩
  rw [major_sys (rs_m ..)]
  simp [decodeSys, rs_f7, rs_b, rs_a, rs_f3, rs_d]

theorem eret : Statement .eret := by
  intro _
  refine ⟨?_, rs_bit0 ..⟩
  rw [major_sys (rs_m ..)]
  simp [decodeSys, rs_f7, rs_b, rs_a, rs_f3, rs_d]

theorem checkerr (d : Reg) : Statement (.checkerr d) := by
  intro _
  refine ⟨?_, rs_bit0 ..⟩
  rw [major_sys (rs_m ..)]
  simp [decodeSys, rs_f7, rs_b, rs_a, rs_f3, rs_d]

theorem brkpt : Statement .brkpt := by
  intro _
  refine ⟨?_, rs_bit0 ..⟩
  rw [major_sys (rs_m ..)]
  simp [decodeSys, rs_f7, rs_b, rs_a, rs_f3, rs_d]

theorem trace (a : Reg) : Statement (.trace a) := by
  intro _
  refine ⟨?_, rs_bit0 ..⟩
  rw [major_sys (rs_m ..)]
  simp [decodeSys, rs_f7, rs_b, rs_a, rs_f3, rs_d]

theorem pair : Statement .pair := by
  intro _
  refine ⟨?_, rs_bit0 ..⟩
  rw [major_sys (rs_m ..)]
  simp [decodeSys, rs_f7, rs_b, rs_a, rs_f3, rs_d]

theorem unpair : Statement .unpair := by
  intro _
  refine ⟨?_, rs_bit0 ..⟩
  rw [major_sys (rs_m ..)]
  simp [decodeSys, rs_f7, rs_b, rs_a, rs_f3, rs_d]

theorem wfe : Statement .wfe := by
  intro _
  refine ⟨?_, rs_bit0 ..⟩
  rw [major_sys (rs_m ..)]
  simp [decodeSys, rs_f7, rs_b, rs_a, rs_f3, rs_d]

theorem gate (a : Reg) (d : Reg) : Statement (.gate a d) := by
  intro _
  refine ⟨?_, rs_bit0 ..⟩
  rw [major_sec (rs_m ..)]
  simp [decodeSec, rs_f7, rs_b, rs_a, rs_f3, rs_d]

theorem gstat (a : Reg) (d : Reg) : Statement (.gstat a d) := by
  intro _
  refine ⟨?_, rs_bit0 ..⟩
  rw [major_sec (rs_m ..)]
  simp [decodeSec, rs_f7, rs_b, rs_a, rs_f3, rs_d]

theorem cAddi (r : Reg) (i : BitVec 6) : Statement (.cAddi r i) := by
  intro h
  refine ⟨?_, ?_⟩
  · have h0 : ¬ (0#1 ++ r ++ i ++ 0#4 : BitVec 16) = 0#16 := fun e => by
      have h1 : r = 0#5 := by simpa [cat1564_b] using congrArg (fun x => x.extractLsb' 10 5) e
      exact absurd h1 (by simpa [Instr.wf, cRegOk] using h)
    simp [decode16?, h0, cat1564_a, cat1564_b, cat1564_c, cat1564_d]
  · simpa using congrArg (fun x => x.getLsbD 0) (cat1564_d (0#1) (r) (i) (0#4))

theorem cLi (r : Reg) (i : BitVec 6) : Statement (.cLi r i) := by
  intro h
  refine ⟨?_, ?_⟩
  · have h0 : ¬ (1#1 ++ r ++ i ++ 0#4 : BitVec 16) = 0#16 := fun e => by
      exact absurd (congrArg (fun x => x.extractLsb' 15 1) e) (by simp [cat1564_a])
    simp [decode16?, h0, cat1564_a, cat1564_b, cat1564_c, cat1564_d]
  · simpa using congrArg (fun x => x.getLsbD 0) (cat1564_d (1#1) (r) (i) (0#4))

theorem cMv (r : Reg) (s : Reg) : Statement (.cMv r s) := by
  intro h
  refine ⟨?_, ?_⟩
  · have h0 : ¬ (0#2 ++ r ++ s ++ 2#4 : BitVec 16) = 0#16 := fun e => by
      exact absurd (congrArg (fun x => x.extractLsb' 0 4) e) (by simp [cat2554_d])
    simp [decode16?, h0, cat2554_a, cat2554_b, cat2554_c, cat2554_d]
  · simpa using congrArg (fun x => x.getLsbD 0) (cat2554_d (0#2) (r) (s) (2#4))

theorem cAdd (r : Reg) (s : Reg) : Statement (.cAdd r s) := by
  intro h
  refine ⟨?_, ?_⟩
  · have h0 : ¬ (1#2 ++ r ++ s ++ 2#4 : BitVec 16) = 0#16 := fun e => by
      exact absurd (congrArg (fun x => x.extractLsb' 0 4) e) (by simp [cat2554_d])
    simp [decode16?, h0, cat2554_a, cat2554_b, cat2554_c, cat2554_d]
  · simpa using congrArg (fun x => x.getLsbD 0) (cat2554_d (1#2) (r) (s) (2#4))

theorem cSub (r : Reg) (s : Reg) : Statement (.cSub r s) := by
  intro h
  refine ⟨?_, ?_⟩
  · have h0 : ¬ (2#2 ++ r ++ s ++ 2#4 : BitVec 16) = 0#16 := fun e => by
      exact absurd (congrArg (fun x => x.extractLsb' 0 4) e) (by simp [cat2554_d])
    simp [decode16?, h0, cat2554_a, cat2554_b, cat2554_c, cat2554_d]
  · simpa using congrArg (fun x => x.getLsbD 0) (cat2554_d (2#2) (r) (s) (2#4))

theorem cAnd (r : Reg) (s : Reg) : Statement (.cAnd r s) := by
  intro h
  refine ⟨?_, ?_⟩
  · have h0 : ¬ (3#2 ++ r ++ s ++ 2#4 : BitVec 16) = 0#16 := fun e => by
      exact absurd (congrArg (fun x => x.extractLsb' 0 4) e) (by simp [cat2554_d])
    simp [decode16?, h0, cat2554_a, cat2554_b, cat2554_c, cat2554_d]
  · simpa using congrArg (fun x => x.getLsbD 0) (cat2554_d (3#2) (r) (s) (2#4))

theorem cLd (o : BitVec 6) (a : BitVec 3) (d : BitVec 3) : Statement (.cLd o a d) := by
  intro h
  refine ⟨?_, ?_⟩
  · have h0 : ¬ (o ++ a ++ d ++ 4#4 : BitVec 16) = 0#16 := fun e => by
      exact absurd (congrArg (fun x => x.extractLsb' 0 4) e) (by simp [cat6334_d])
    simp [decode16?, h0, cat6334_a, cat6334_b, cat6334_c, cat6334_d]
  · simpa using congrArg (fun x => x.getLsbD 0) (cat6334_d (o) (a) (d) (4#4))

theorem cSd (o : BitVec 6) (a : BitVec 3) (s : BitVec 3) : Statement (.cSd o a s) := by
  intro h
  refine ⟨?_, ?_⟩
  · have h0 : ¬ (o ++ a ++ s ++ 6#4 : BitVec 16) = 0#16 := fun e => by
      exact absurd (congrArg (fun x => x.extractLsb' 0 4) e) (by simp [cat6334_d])
    simp [decode16?, h0, cat6334_a, cat6334_b, cat6334_c, cat6334_d]
  · simpa using congrArg (fun x => x.getLsbD 0) (cat6334_d (o) (a) (s) (6#4))

theorem cBeqz (a : BitVec 3) (o : BitVec 8) : Statement (.cBeqz a o) := by
  intro h
  refine ⟨?_, ?_⟩
  · have h0 : ¬ (0#1 ++ a ++ o ++ 8#4 : BitVec 16) = 0#16 := fun e => by
      exact absurd (congrArg (fun x => x.extractLsb' 0 4) e) (by simp [cat1384_d])
    simp [decode16?, h0, cat1384_a, cat1384_b, cat1384_c, cat1384_d]
  · simpa using congrArg (fun x => x.getLsbD 0) (cat1384_d (0#1) (a) (o) (8#4))

theorem cBnez (a : BitVec 3) (o : BitVec 8) : Statement (.cBnez a o) := by
  intro h
  refine ⟨?_, ?_⟩
  · have h0 : ¬ (1#1 ++ a ++ o ++ 8#4 : BitVec 16) = 0#16 := fun e => by
      exact absurd (congrArg (fun x => x.extractLsb' 0 4) e) (by simp [cat1384_d])
    simp [decode16?, h0, cat1384_a, cat1384_b, cat1384_c, cat1384_d]
  · simpa using congrArg (fun x => x.getLsbD 0) (cat1384_d (1#1) (a) (o) (8#4))

theorem cJ (o : BitVec 12) : Statement (.cJ o) := by
  intro h
  refine ⟨?_, ?_⟩
  · have h0 : ¬ (o ++ 10#4 : BitVec 16) = 0#16 := fun e => by
      exact absurd (congrArg (fun x => x.extractLsb' 0 4) e) (by simp [cat124_lo])
    simp [decode16?, h0, cat124_hi, cat124_lo]
  · simpa using congrArg (fun x => x.getLsbD 0) (cat124_lo (o) (10#4))

theorem cQput (q : BitVec 3) (r : Reg) : Statement (.cQput q r) := by
  intro h
  refine ⟨?_, ?_⟩
  · have h0 : ¬ (0#1 ++ q ++ r ++ 12#7 : BitVec 16) = 0#16 := fun e => by
      exact absurd (congrArg (fun x => x.extractLsb' 0 7) e) (by simp [cat1357_d])
    have h4 : (0#1 ++ q ++ r ++ 12#7 : BitVec 16).extractLsb' 0 4 = 12#4 := (ext_low (0#1 ++ q ++ r) 12#7 0 4 (by decide)).trans (by decide)
    simp [decode16?, h0, cat1357_a, cat1357_b, cat1357_c, cat1357_d, h4]
  · simpa using congrArg (fun x => x.getLsbD 0) (cat1357_d (0#1) (q) (r) (12#7))

theorem cQget (q : BitVec 3) (r : Reg) : Statement (.cQget q r) := by
  intro h
  refine ⟨?_, ?_⟩
  · have h0 : ¬ (1#1 ++ q ++ r ++ 12#7 : BitVec 16) = 0#16 := fun e => by
      exact absurd (congrArg (fun x => x.extractLsb' 0 7) e) (by simp [cat1357_d])
    have h4 : (1#1 ++ q ++ r ++ 12#7 : BitVec 16).extractLsb' 0 4 = 12#4 := (ext_low (1#1 ++ q ++ r) 12#7 0 4 (by decide)).trans (by decide)
    simp [decode16?, h0, cat1357_a, cat1357_b, cat1357_c, cat1357_d, h4]
  · simpa using congrArg (fun x => x.getLsbD 0) (cat1357_d (1#1) (q) (r) (12#7))

theorem cNop : Statement .cNop := by
  intro _; exact ⟨by decide, by decide⟩

theorem cEnd : Statement .cEnd := by
  intro _; exact ⟨by decide, by decide⟩

theorem cStop : Statement .cStop := by
  intro _; exact ⟨by decide, by decide⟩

theorem cBrk : Statement .cBrk := by
  intro _; exact ⟨by decide, by decide⟩

theorem asyncTrapTake (core : Nat) : Statement (.asyncTrapTake core) := by
  intro _; trivial

theorem tstatSave (core : Nat) : Statement (.tstatSave core) := by
  intro _; trivial

theorem tstatRestore (core : Nat) : Statement (.tstatRestore core) := by
  intro _; trivial

theorem saveComplete (core : Nat) (ok : Bool) : Statement (.saveComplete core ok) := by
  intro _; trivial

theorem restoreComplete (core : Nat) (ok : Bool) : Statement (.restoreComplete core ok) := by
  intro _; trivial

theorem parktoExpiry (core : Nat) : Statement (.parktoExpiry core) := by
  intro _; trivial

theorem contextDestroyComplete (ctx : Nat) : Statement (.contextDestroyComplete ctx) := by
  intro _; trivial

theorem slotTableWrite (core : Nat) (rec : BitVec 128) : Statement (.slotTableWrite core rec) := by
  intro _; trivial

theorem apexSchedule (core : Nat) : Statement (.apexSchedule core) := by
  intro _; trivial

theorem lqEnable (fn : Nat) (n : Nat) : Statement (.lqEnable fn n) := by
  intro _; trivial

theorem lqDisable (fn : Nat) (n : Nat) : Statement (.lqDisable fn n) := by
  intro _; trivial

theorem lqtailWrite (fn : Nat) (n : Nat) (v : BitVec 32) : Statement (.lqtailWrite fn n v) := by
  intro _; trivial

theorem queueSwitchIn (fn : Nat) (n : Nat) : Statement (.queueSwitchIn fn n) := by
  intro _; trivial

theorem queueSwitchOut (fn : Nat) (n : Nat) : Statement (.queueSwitchOut fn n) := by
  intro _; trivial

theorem entryAccept (fn : Nat) (n : Nat) : Statement (.entryAccept fn n) := by
  intro _; trivial

theorem launch (seq : Nat) : Statement (.launch seq) := by
  intro _; trivial

theorem maproot (seq : Nat) : Statement (.maproot seq) := by
  intro _; trivial

theorem reclaim (seq : Nat) : Statement (.reclaim seq) := by
  intro _; trivial

theorem query (seq : Nat) : Statement (.query seq) := by
  intro _; trivial

theorem commandComplete (seq : Nat) : Statement (.commandComplete seq) := by
  intro _; trivial

theorem periodBoundary : Statement .periodBoundary := by
  intro _; trivial

theorem budgetExhausted (acct : Nat) : Statement (.budgetExhausted acct) := by
  intro _; trivial

theorem messageArrival (k : Nat) : Statement (.messageArrival k) := by
  intro _; trivial

theorem messageDelivery (core : Nat) (slot : Nat) : Statement (.messageDelivery core slot) := by
  intro _; trivial

theorem actorFire (core : Nat) : Statement (.actorFire core) := by
  intro _; trivial

theorem floorPublish : Statement .floorPublish := by
  intro _; trivial

theorem outboxDepart (core : Nat) : Statement (.outboxDepart core) := by
  intro _; trivial

theorem endOutboxDrained (core : Nat) : Statement (.endOutboxDrained core) := by
  intro _; trivial

theorem nestJoinArrival (k : Nat) : Statement (.nestJoinArrival k) := by
  intro _; trivial

theorem nestClaimServe (ctx : Nat) (g : Nat) : Statement (.nestClaimServe ctx g) := by
  intro _; trivial

theorem loopGrantArrival (k : Nat) : Statement (.loopGrantArrival k) := by
  intro _; trivial

theorem loopLeave (k : Nat) : Statement (.loopLeave k) := by
  intro _; trivial

theorem barrierArrival (k : Nat) : Statement (.barrierArrival k) := by
  intro _; trivial

theorem barrierAbort (k : Nat) : Statement (.barrierAbort k) := by
  intro _; trivial

theorem barrierNotice (k : Nat) : Statement (.barrierNotice k) := by
  intro _; trivial

theorem matrixCommandStart (core : Nat) (n : Nat) : Statement (.matrixCommandStart core n) := by
  intro _; trivial

theorem mldbLoadDone (core : Nat) (n : Nat) : Statement (.mldbLoadDone core n) := by
  intro _; trivial

theorem tileForwardArrival (k : Nat) : Statement (.tileForwardArrival k) := by
  intro _; trivial

theorem matrixCommandComplete (core : Nat) (n : Nat) (rows : Nat) : Statement (.matrixCommandComplete core n rows) := by
  intro _; trivial

theorem matrixTokenPlace (core : Nat) (n : Nat) : Statement (.matrixTokenPlace core n) := by
  intro _; trivial

theorem copyComplete (core : Nat) (n : Nat) (granules : Nat) : Statement (.copyComplete core n granules) := by
  intro _; trivial

theorem journalSend (core : Nat) (n : Nat) : Statement (.journalSend core n) := by
  intro _; trivial

theorem journalAck (core : Nat) (n : Nat) : Statement (.journalAck core n) := by
  intro _; trivial

theorem journalRefusal (core : Nat) (n : Nat) : Statement (.journalRefusal core n) := by
  intro _; trivial

theorem psjeSelect (core : Nat) (v : Word) : Statement (.psjeSelect core v) := by
  intro _; trivial

theorem psjeDismiss (core : Nat) (v : Word) : Statement (.psjeDismiss core v) := by
  intro _; trivial

theorem leaseGrant (acc : Nat) : Statement (.leaseGrant acc) := by
  intro _; trivial

theorem homeWritePerform (acc : Nat) : Statement (.homeWritePerform acc) := by
  intro _; trivial

theorem l1LeaseExpiry (core : Nat) (line : Nat) : Statement (.l1LeaseExpiry core line) := by
  intro _; trivial

theorem locusMap (n : Nat) : Statement (.locusMap n) := by
  intro _; trivial

theorem locusGrant (n : Nat) : Statement (.locusGrant n) := by
  intro _; trivial

theorem locusUnmap (n : Nat) : Statement (.locusUnmap n) := by
  intro _; trivial

theorem locusRelease (n : Nat) : Statement (.locusRelease n) := by
  intro _; trivial

theorem locusAccept (n : Nat) : Statement (.locusAccept n) := by
  intro _; trivial

theorem revokeCut (n : Nat) (target : Nat) : Statement (.revokeCut n target) := by
  intro _; trivial

theorem shootdown (n : Nat) (core : Nat) : Statement (.shootdown n core) := by
  intro _; trivial

theorem shootdownAck (n : Nat) (core : Nat) : Statement (.shootdownAck n core) := by
  intro _; trivial

theorem locusPhaseEnd (n : Nat) : Statement (.locusPhaseEnd n) := by
  intro _; trivial

theorem mxuPark (acc : Nat) : Statement (.mxuPark acc) := by
  intro _; trivial

theorem faultRecordWrite (mxu : Nat) : Statement (.faultRecordWrite mxu) := by
  intro _; trivial

theorem replay (mxu : Nat) (v : Word) : Statement (.replay mxu v) := by
  intro _; trivial

theorem rqtailWrite (mxu : Nat) (v : BitVec 32) : Statement (.rqtailWrite mxu v) := by
  intro _; trivial

theorem fill (mxu : Nat) (ok : Bool) (data : List Byte) : Statement (.fill mxu ok data) := by
  intro _; trivial

theorem evict (mxu : Nat) : Statement (.evict mxu) := by
  intro _; trivial

theorem pin (mxu : Nat) : Statement (.pin mxu) := by
  intro _; trivial

theorem unpin (mxu : Nat) : Statement (.unpin mxu) := by
  intro _; trivial

theorem evictCopyoutDone (mxu : Nat) (ok : Bool) : Statement (.evictCopyoutDone mxu ok) := by
  intro _; trivial

theorem mxstatRead (mxu : Nat) : Statement (.mxstatRead mxu) := by
  intro _; trivial

theorem fgbWrite (acct : Nat) (v : Word) : Statement (.fgbWrite acct v) := by
  intro _; trivial

theorem translationCompletion (page : Nat × Nat × Nat) (pa : Nat) (len : Nat) (rd : Bool) (wr : Bool) : Statement (.translationCompletion page pa len rd wr) := by
  intro _; trivial

theorem prgResponse (page : Nat × Nat × Nat) (code : Nat) : Statement (.prgResponse page code) := by
  intro _; trivial

theorem atsInvalidationRequest (rid : Nat) (pasid : Nat) (base : Nat) (len : Nat) : Statement (.atsInvalidationRequest rid pasid base len) := by
  intro _; trivial

theorem invalidationCompletion : Statement .invalidationCompletion := by
  intro _; trivial

theorem errorCorrected (site : ErrSite) : Statement (.errorCorrected site) := by
  intro _; trivial

theorem errorUncorrectable (site : ErrSite) : Statement (.errorUncorrectable site) := by
  intro _; trivial

theorem memoryScrub (frame : Nat) : Statement (.memoryScrub frame) := by
  intro _; trivial

theorem relayoutGo (n : Nat) (v : Word) : Statement (.relayoutGo n v) := by
  intro _; trivial

theorem relayoutRun (n : Nat) : Statement (.relayoutRun n) := by
  intro _; trivial

theorem intervalClose (core : Nat) : Statement (.intervalClose core) := by
  intro _; trivial

theorem fingerprintAgree (core : Nat) : Statement (.fingerprintAgree core) := by
  intro _; trivial

theorem fingerprintDisagree (core : Nat) : Statement (.fingerprintDisagree core) := by
  intro _; trivial

theorem tiebreakResult (core : Nat) (agrees : Nat) : Statement (.tiebreakResult core agrees) := by
  intro _; trivial

theorem pairCloseTimeout (core : Nat) : Statement (.pairCloseTimeout core) := by
  intro _; trivial

theorem wcfgConf (vf : Nat) (tdi : Nat) : Statement (.wcfgConf vf tdi) := by
  intro _; trivial

theorem wcfgRetire (vf : Nat) : Statement (.wcfgRetire vf) := by
  intro _; trivial

theorem keySet (vf : Nat) (comp : Nat) (key : List Byte) : Statement (.keySet vf comp key) := by
  intro _; trivial

theorem keyRevoke (vf : Nat) (comp : Nat) : Statement (.keyRevoke vf comp) := by
  intro _; trivial

theorem tdiError (vf : Nat) : Statement (.tdiError vf) := by
  intro _; trivial

theorem functionLevelReset (vf : Nat) : Statement (.functionLevelReset vf) := by
  intro _; trivial

theorem worldRetireComplete (vf : Nat) : Statement (.worldRetireComplete vf) := by
  intro _; trivial

theorem cxlMemRequest (write : Bool) (tbit : Bool) (stream : Nat) (hpa : Nat) (data : List Byte) : Statement (.cxlMemRequest write tbit stream hpa data) := by
  intro _; trivial

theorem cxlH2dSnoop (line : Nat) : Statement (.cxlH2dSnoop line) := by
  intro _; trivial

theorem ideKeySwitch (stream : Nat) : Statement (.ideKeySwitch stream) := by
  intro _; trivial

theorem hostLinkUp (width : Nat) : Statement (.hostLinkUp width) := by
  intro _; trivial

theorem hostLinkRecovery : Statement .hostLinkRecovery := by
  intro _; trivial

theorem hostLinkDown : Statement .hostLinkDown := by
  intro _; trivial

theorem skonovPortEnable (p : Nat) : Statement (.skonovPortEnable p) := by
  intro _; trivial

theorem skonovPortDisable (p : Nat) : Statement (.skonovPortDisable p) := by
  intro _; trivial

theorem skonovRetrain (p : Nat) : Statement (.skonovRetrain p) := by
  intro _; trivial

theorem portTrained (p : Nat) (lanes : Nat) : Statement (.portTrained p lanes) := by
  intro _; trivial

theorem portTrainingTimeout (p : Nat) : Statement (.portTrainingTimeout p) := by
  intro _; trivial

theorem laneFailure (p : Nat) (lane : Nat) : Statement (.laneFailure p lane) := by
  intro _; trivial

theorem retrainComplete (p : Nat) : Statement (.retrainComplete p) := by
  intro _; trivial

theorem flitReceive (p : Nat) (flit : List Byte) : Statement (.flitReceive p flit) := by
  intro _; trivial

theorem flitNak (p : Nat) (expected : Nat) : Statement (.flitNak p expected) := by
  intro _; trivial

theorem proxyGrant (line : Nat) (st : Nat) (num : Nat) (data : List Byte) : Statement (.proxyGrant line st num data) := by
  intro _; trivial

theorem proxyInvalidation (line : Nat) (num : Nat) : Statement (.proxyInvalidation line num) := by
  intro _; trivial

theorem directoryRecall (line : Nat) (inv : Bool) : Statement (.directoryRecall line inv) := by
  intro _; trivial

theorem moduleFailed (module : Nat) : Statement (.moduleFailed module) := by
  intro _; trivial

theorem orphrel : Statement .orphrel := by
  intro _; trivial

theorem quiesce : Statement .quiesce := by
  intro _; trivial

theorem quiesceComplete : Statement .quiesceComplete := by
  intro _; trivial

theorem fabricArrival (p : Nat) (rctx : Nat) (x : Nat) (y : Nat) (header : List Byte) (payload : List Byte) : Statement (.fabricArrival p rctx x y header payload) := by
  intro _; trivial

theorem sessionOpen (v : Word) : Statement (.sessionOpen v) := by
  intro _; trivial

theorem sessionClose : Statement .sessionClose := by
  intro _; trivial

theorem dbgStop : Statement .dbgStop := by
  intro _; trivial

theorem dbgResume (v : Word) : Statement (.dbgResume v) := by
  intro _; trivial

theorem dbgStep (v : Word) : Statement (.dbgStep v) := by
  intro _; trivial

theorem freezeComplete : Statement .freezeComplete := by
  intro _; trivial

theorem stopTimeout : Statement .stopTimeout := by
  intro _; trivial

theorem stepComplete : Statement .stepComplete := by
  intro _; trivial

theorem stepTimeout : Statement .stepTimeout := by
  intro _; trivial

theorem comparatorConfig (n : Nat) (v : Word) : Statement (.comparatorConfig n v) := by
  intro _; trivial

theorem traceSample (core : Nat) : Statement (.traceSample core) := by
  intro _; trivial

theorem counterSelect (fn : Nat) (v : Word) : Statement (.counterSelect fn v) := by
  intro _; trivial

theorem replayInject (fn : Nat) : Statement (.replayInject fn) := by
  intro _; trivial

theorem freezeAssert : Statement .freezeAssert := by
  intro _; trivial

theorem freezeRelease (fabricTime : Nat) : Statement (.freezeRelease fabricTime) := by
  intro _; trivial

theorem scanRead (orphan : Bool) (la : Nat) : Statement (.scanRead orphan la) := by
  intro _; trivial

theorem deviceReset (passed : List Nat) (trained : Bool) (images : List BootImage) : Statement (.deviceReset passed trained images) := by
  intro _; trivial

theorem pcapwWrite (v : Word) : Statement (.pcapwWrite v) := by
  intro _; trivial

theorem pcapwinWrite (v : Word) : Statement (.pcapwinWrite v) := by
  intro _; trivial

theorem powerSample (watts : Nat) : Statement (.powerSample watts) := by
  intro _; trivial

theorem powerAdjust (gate : Nat) : Statement (.powerAdjust gate) := by
  intro _; trivial

theorem powerWindowEnd (avg : Nat) : Statement (.powerWindowEnd avg) := by
  intro _; trivial

theorem thermRead : Statement .thermRead := by
  intro _; trivial

theorem thermalThrottle (t0 : Nat) (t1 : Nat) (gate : Nat) : Statement (.thermalThrottle t0 t1 gate) := by
  intro _; trivial

theorem thermalFreeze (t0 : Nat) (t1 : Nat) : Statement (.thermalFreeze t0 t1) := by
  intro _; trivial

theorem thermalTrip (t0 : Nat) (t1 : Nat) : Statement (.thermalTrip t0 t1) := by
  intro _; trivial

theorem thermalRecover (t0 : Nat) (t1 : Nat) : Statement (.thermalRecover t0 t1) := by
  intro _; trivial

theorem errorRecordWrite : Statement .errorRecordWrite := by
  intro _; trivial

theorem registerWrite (fn : Nat) (bar : Nat) (off : Nat) (v : Word) : Statement (.registerWrite fn bar off v) := by
  intro _; trivial

theorem unassignedEncoding (w : BitVec 32) : Statement (.unassignedEncoding w) := by
  intro _; trivial

theorem accessReachesTarget (acc : Nat) (ok : Bool) : Statement (.accessReachesTarget acc ok) := by
  intro _; trivial

theorem nonPostedCompletion (acc : Nat) (ok : Bool) (data : List Byte) : Statement (.nonPostedCompletion acc ok data) := by
  intro _; trivial

theorem birspArrival (line : Nat) : Statement (.birspArrival line) := by
  intro _; trivial

theorem pcieCompletionTimeout (acc : Nat) : Statement (.pcieCompletionTimeout acc) := by
  intro _; trivial

theorem priEnableWrite (fn : Nat) : Statement (.priEnableWrite fn) := by
  intro _; trivial

end Sys2Proof.Laws.RoundTrip
end

