-- ==== Sys2Proof/Laws/Retire.lean ====
section
/-! SUPPORT. What writing a register and retiring an instruction do, once for every instruction. -/
namespace Sys2Proof.Machine

/-! ## Issue -/

/-- An instruction that issues has its own effect. -/
theorem run_go {i : Instr} {s : State} (eff : Focus → State) (h : Issues i s) : run i s eff = .next (eff s.focus) := by
  simp only [run, h]

theorem run_wait {i : Instr} {s : State} (eff : Focus → State) (h : issue i s = .wait) : run i s eff = .next s := by
  simp only [run, h]

theorem run_illegal {i : Instr} {s : State} (eff : Focus → State) (h : issue i s = .illegal) :
    run i s eff = .next (s.exact s.focus (instrLen i) cIllegal (encodeWord i)) := by
  simp only [run, h]

/-- A device step of a module that is alive. -/
theorem device_alive {s : State} (t : State) (h : Alive s) : device s t = .next t := by
  simp [device, h.1, h.2]

/-- A module without power, or with its clocks stopped, takes no device step. -/
theorem device_dead {s : State} (t : State) (h : s.powered = false ∨ s.freeze = true) : device s t = .next s := by
  rcases h with h | h <;> simp [device, h]

/-! ## Blanks: steps that a blank does not see -/

theorem blank_modCur_ct (s : State) (f : Focus) (g : Bind → Bind) (hf : f.thr = 0)
    (h : (g (s.cur f.core)).blank = (s.cur f.core).blank) : (s.modCur f.core g).blank f = s.blank f := by
  simp only [State.blank, hf, if_true]
  congr 1
  simp only [State.modCur, State.modBind, State.setBind, State.bind, State.ctxOf, State.core]
  simp
  exact congrArg _ h

theorem blank_modCore (s : State) (f : Focus) (g : Core → Core) (hf : f.thr = 0) (hc : (g (s.core f.core)).ctx = (s.core f.core).ctx)
    (h : (g (s.core f.core)).blank = (s.core f.core).blank) : (s.modCore f.core g).blank f = s.blank f := by
  simp only [State.blank, hf, if_true]
  simp only [State.modCore, State.setCore, State.modCur, State.modBind, State.setBind, State.bind, State.ctxOf, State.core] at *
  simp [hc, h]

theorem blank_handler (s : State) (f : Focus) (p : Core → Word) (x : Core → SMap Word) (hf : f.thr = 0) :
    (s.modCore f.core (fun k => { k with hpc := p k, hx := x k })).blank f = s.blank f :=
  blank_modCore s f _ hf rfl rfl

theorem Bind.modMt_congr (b : Bind) (n : Nat) {g h : Mt → Mt} (e : g (b.mt n) = h (b.mt n)) : b.modMt n g = b.modMt n h := by
  simp [Bind.modMt, e]

theorem blank_modMt (s : State) (f : Focus) (g : Mt → Mt) (hf : f.thr ≠ 0)
    (h : (g ((s.cur f.core).mt (f.thr - 1))).blank = ((s.cur f.core).mt (f.thr - 1)).blank) :
    (s.modMt f.core (f.thr - 1) g).blank f = s.blank f := by
  have e := Bind.modMt_congr (s.cur f.core) (f.thr - 1) (g := fun m => (g m).blank) (h := Mt.blank) h
  simp only [State.cur, State.bind, State.ctxOf, State.core] at e
  simp only [State.blank, hf, if_false]
  simp only [State.modMt, State.modCur, State.modBind, State.setBind, State.bind, State.ctxOf, State.core]
  simp
  rw [e]

theorem blank_events (s : State) (f : Focus) (w : Bind → Bool) (k : Bind → Counters) (hf : f.thr ≠ 0) :
    (s.modCur f.core (fun b => { b with wfe := w b, cnt := k b })).blank f = s.blank f := by
  simp only [State.blank, hf, if_false]
  simp only [State.modCur, State.modBind, State.setBind, State.bind, State.ctxOf, State.core]
  simp
  rfl

theorem blank_net (s : State) (f : Focus) (l : List Packet) : ({ s with net := l } : State).blank f = s.blank f := rfl

theorem blank_stepped (s : State) (f : Focus) (l : List Nat) :
    ({ s with dbg := { s.dbg with stepped := l } } : State).blank f = s.blank f := rfl

/-! ## Writing a register (R91, R383) -/

theorem rd_zero (s : State) (f : Focus) : s.rd f 0 = 0 := rfl

theorem inHandler_fold (s : State) (f : Focus) (bs : List Byte) : (s.fold f bs).inHandler f = s.inHandler f := by
  unfold State.fold; split
  · split <;> rfl
  · rfl

theorem inHandler_wr (s : State) (f : Focus) (d : Nat) (v : Word) : (s.wr f d v).inHandler f = s.inHandler f := by
  unfold State.wr
  split
  · rfl
  · rw [inHandler_fold]
    unfold State.wrRaw State.inHandler
    split
    · rfl
    · split
      · split
        · simp
        · rfl
      · rfl

theorem xs_fold (s : State) (f : Focus) (bs : List Byte) : (s.fold f bs).xs f = s.xs f := by
  unfold State.fold; split
  · split <;> simp_all [State.xs]
  · rfl

/-- The register written reads as its new value; register 0 still reads as zero; the others are as before. -/
theorem rd_wr (s : State) (f : Focus) (d : Nat) (v : Word) (r : Nat) :
    (s.wr f d v).rd f r = if r = 0 then 0 else if r = d then v else s.rd f r := by
  unfold State.wr
  by_cases hd : d = 0
  · subst hd
    simp only [if_true, State.rd]
    by_cases hr : r = 0 <;> simp [hr]
  · simp only [hd, if_false, State.rd, xs_fold]
    by_cases hr : r = 0
    · simp [hr]
    · simp only [hr, if_false]
      unfold State.wrRaw
      simp only [hd, if_false]
      by_cases hf : f.thr = 0
      · by_cases hm : (s.core f.core).hmode
        · simp [hf, hm, State.xs, SMap.get_set]
        · simp [hf, hm, State.xs, SMap.get_set]
      · simp [hf, State.xs, SMap.get_set]

theorem blank_fold (s : State) (f : Focus) (bs : List Byte) : (s.fold f bs).blank f = s.blank f := by
  unfold State.fold
  split
  · split
    · exact blank_modCur_ct _ _ _ ‹_› rfl
    · exact blank_modMt _ _ _ ‹_› rfl
  · rfl

theorem blank_wr (s : State) (f : Focus) (d : Nat) (v : Word) : (s.wr f d v).blank f = s.blank f := by
  unfold State.wr
  split
  · rfl
  · rw [blank_fold]
    unfold State.wrRaw
    split
    · rfl
    · split
      · split
        · exact blank_handler s f (fun k => k.hpc) (fun k => SMap.set 0 k.hx d v) ‹_›
        · exact blank_modCur_ct _ _ _ ‹_› rfl
      · exact blank_modMt _ _ _ ‹_› rfl

/-- What of the control thread a register write leaves alone. -/
structure SameThread (f : Focus) (s t : State) : Prop where
  loop : (t.cur f.core).loop = (s.cur f.core).loop
  i : (t.cur f.core).i = (s.cur f.core).i
  views : (t.cur f.core).views = (s.cur f.core).views
  retired : (t.cur f.core).retired = (s.cur f.core).retired
  pc : (t.cur f.core).pc = (s.cur f.core).pc
  hmode : (t.core f.core).hmode = (s.core f.core).hmode
  hpc : (t.core f.core).hpc = (s.core f.core).hpc
  mtPc : ((t.cur f.core).mt (f.thr - 1)).pc = ((s.cur f.core).mt (f.thr - 1)).pc
  mtRet : ((t.cur f.core).mt (f.thr - 1)).retired = ((s.cur f.core).mt (f.thr - 1)).retired
  net : t.net = s.net
  pair : (t.core f.core).pair = (s.core f.core).pair

theorem SameThread.refl (f : Focus) (s : State) : SameThread f s s := ⟨rfl, rfl, rfl, rfl, rfl, rfl, rfl, rfl, rfl, rfl, rfl⟩

theorem SameThread.trans {f : Focus} {s t u : State} (h : SameThread f s t) (k : SameThread f t u) : SameThread f s u :=
  ⟨k.1.trans h.1, k.2.trans h.2, k.3.trans h.3, k.4.trans h.4, k.5.trans h.5, k.6.trans h.6, k.7.trans h.7, k.8.trans h.8,
    k.9.trans h.9, k.10.trans h.10, k.11.trans h.11⟩

theorem sameThread_fold (s : State) (f : Focus) (bs : List Byte) : SameThread f s (s.fold f bs) := by
  unfold State.fold
  split
  · split
    · constructor <;> simp [Bind.mt]
    · constructor <;> first | rfl | simp [Bind.modMt, Bind.mt]
  · exact .refl _ _

theorem sameThread_wr (s : State) (f : Focus) (d : Nat) (v : Word) : SameThread f s (s.wr f d v) := by
  unfold State.wr
  split
  · exact .refl _ _
  · refine .trans ?_ (sameThread_fold _ _ _)
    unfold State.wrRaw
    split
    · exact .refl _ _
    · split
      · split
        · constructor <;> simp [State.cur_modCore]
        · constructor <;> simp [Bind.mt]
      · constructor <;> first | rfl | simp [Bind.modMt, Bind.mt]

theorem pcOf_wr (s : State) (f : Focus) (d : Nat) (v : Word) : (s.wr f d v).pcOf f = s.pcOf f := by
  have h := sameThread_wr s f d v
  unfold State.pcOf
  split
  · rw [h.hmode, h.hpc, h.pc]
  · rw [h.mtPc]

/-! ## Retiring (R92, R200, R245) -/

theorem blank_stepMark (s : State) (f g : Focus) : (s.stepMark g).blank f = s.blank f := by
  unfold State.stepMark; split
  · exact blank_stepped _ _ _
  · rfl

theorem cur_stepMark (s : State) (g : Focus) (c : Nat) : (s.stepMark g).cur c = s.cur c := by
  unfold State.stepMark; split <;> rfl

theorem core_stepMark (s : State) (g : Focus) (c : Nat) : (s.stepMark g).core c = s.core c := by
  unfold State.stepMark; split <;> rfl

theorem net_stepMark (s : State) (g : Focus) : (s.stepMark g).net = s.net := by
  unfold State.stepMark; split <;> rfl

theorem blank_post (s : State) (f : Focus) (p : Packet) : (s.post p).blank f = s.blank f := blank_net _ _ _

theorem blank_postLoop (s : State) (f : Focus) (b : Body) (g : Nat) (hf : f.thr = 0) : (s.postLoop f.core b g).blank f = s.blank f := by
  unfold State.postLoop
  dsimp only
  split
  · exact blank_post _ _ _
  · exact blank_modCore s f _ hf rfl rfl

theorem cur_postLoop (s : State) (c : Nat) (b : Body) (g j : Nat) : (s.postLoop c b g).cur j = s.cur j := by
  unfold State.postLoop
  dsimp only
  split
  · rfl
  · exact State.cur_modCore _ _ _ _ rfl

theorem hmode_postLoop (s : State) (c : Nat) (b : Body) (g j : Nat) :
    ((s.postLoop c b g).core j).hmode = (s.core j).hmode ∧ ((s.postLoop c b g).core j).hx = (s.core j).hx := by
  unfold State.postLoop
  dsimp only
  split
  · exact ⟨rfl, rfl⟩
  · rw [State.core_modCore]; split
    · subst j; exact ⟨rfl, rfl⟩
    · exact ⟨rfl, rfl⟩

theorem blank_countCt (s : State) (f : Focus) (hf : f.thr = 0) : (s.countCt f.core).blank f = s.blank f := by
  unfold State.countCt
  rw [blank_modCur_ct _ _ _ hf rfl, blank_stepMark]

theorem blank_abandonLoop (s : State) (f : Focus) (hf : f.thr = 0) : (s.abandonLoop f.core).blank f = s.blank f := by
  unfold State.abandonLoop
  split
  · rfl
  · rw [blank_postLoop _ _ _ _ hf, blank_modCur_ct _ _ _ hf rfl]

theorem blank_enterBody (s : State) (f : Focus) (l : Loop) (hf : f.thr = 0) : (s.enterBody f.core l).blank f = s.blank f := by
  obtain ⟨c, n⟩ := f
  cases hf
  exact (blank_fold _ _ _).trans (blank_modCur_ct s ⟨c, 0⟩ _ rfl rfl)

theorem blank_goto (s : State) (f : Focus) (target : Word) (j : Bool) (hf : f.thr = 0) :
    (s.goto f.core target j).blank f = s.blank f := by
  unfold State.goto
  split
  · exact blank_modCur_ct _ _ _ hf rfl
  · split
    · split
      · unfold State.claimChunk
        rw [blank_postLoop _ _ _ _ hf, blank_modCur_ct _ _ _ hf rfl]
      · exact blank_enterBody _ _ _ hf
    · split
      · rw [blank_modCur_ct _ _ _ hf rfl, blank_abandonLoop _ _ hf]
      · exact blank_modCur_ct _ _ _ hf rfl

theorem blank_latch (s : State) (f : Focus) (hf : f.thr ≠ 0) : (s.latch f.core).blank f = s.blank f :=
  blank_events s f (fun _ => true) (fun b => b.cnt) hf

theorem blank_mtRet (s : State) (f : Focus) (hf : f.thr ≠ 0) :
    (s.modCur f.core (fun b => { b with cnt := { b.cnt with mtRet := b.cnt.mtRet + 1 } })).blank f = s.blank f :=
  blank_events s f (fun b => b.wfe) (fun b => { b.cnt with mtRet := b.cnt.mtRet + 1 }) hf

theorem blank_stopMt (s : State) (f : Focus) (hf : f.thr ≠ 0) : (s.stopMt f.core (f.thr - 1)).blank f = s.blank f :=
  (blank_latch _ f hf).trans (blank_modMt _ _ _ hf rfl)

theorem blank_retireMt (s : State) (f : Focus) (target : Word) (hf : f.thr ≠ 0) :
    (s.retireMt f.core (f.thr - 1) target).blank f = s.blank f := by
  have h : ∀ s1 : State, s1.blank f = s.blank f → (s1.modMt f.core (f.thr - 1) (fun m =>
      { m with pc := target, block := m.block.drop 1, retired := m.retired + 1, skip := false })).blank f = s.blank f :=
    fun s1 h1 => (blank_modMt _ _ _ hf rfl).trans h1
  unfold State.retireMt
  dsimp only
  split
  · exact (blank_stopMt _ f hf).trans ((blank_mtRet _ f hf).trans (h _ (blank_stepMark s f _)))
  · exact (blank_mtRet _ f hf).trans (h _ (blank_stepMark s f _))

/-- Retiring leaves everything alone that a blank sees. -/
theorem blank_retireTo (s : State) (f : Focus) (target : Word) (j : Bool) : (s.retireTo f target j).blank f = s.blank f := by
  unfold State.retireTo
  split
  · split
    · exact blank_handler s f (fun _ => target) (fun k => k.hx) ‹_›
    · rw [blank_goto _ _ _ _ ‹_›, blank_countCt _ _ ‹_›]
  · exact blank_retireMt _ _ _ ‹_›

theorem xs_ct {s t : State} {f : Focus} (hf : f.thr = 0)
    (hc : (t.core f.core).hmode = (s.core f.core).hmode ∧ (t.core f.core).hx = (s.core f.core).hx)
    (hx : (t.cur f.core).x = (s.cur f.core).x) : t.xs f = s.xs f := by
  simp [State.xs, hf, hc, hx]

theorem hmode_abandonLoop (s : State) (c j : Nat) :
    ((s.abandonLoop c).core j).hmode = (s.core j).hmode ∧ ((s.abandonLoop c).core j).hx = (s.core j).hx := by
  unfold State.abandonLoop; split
  · exact ⟨rfl, rfl⟩
  · exact hmode_postLoop _ _ _ _ _

theorem x_abandonLoop (s : State) (c : Nat) : ((s.abandonLoop c).cur c).x = (s.cur c).x := by
  unfold State.abandonLoop
  split
  · rfl
  · simp [cur_postLoop]

theorem xs_enterBody (s : State) (f : Focus) (l : Loop) (hf : f.thr = 0) : (s.enterBody f.core l).xs f = s.xs f := by
  obtain ⟨c, n⟩ := f
  cases hf
  refine (xs_fold _ _ _).trans ?_
  apply xs_ct rfl <;> simp [Bind.enterBody, Bind.setIndex]

theorem retired_enterBody (s : State) (c : Nat) (l : Loop) : ((s.enterBody c l).cur c).retired = (s.cur c).retired := by
  refine ((sameThread_fold _ ⟨c, 0⟩ _).retired).trans ?_
  simp [Bind.enterBody, Bind.setIndex]

theorem xs_goto (s : State) (f : Focus) (target : Word) (j : Bool) (hf : f.thr = 0) :
    (s.goto f.core target j).xs f = s.xs f := by
  unfold State.goto
  split
  · apply xs_ct hf <;> simp
  · split
    · split
      · unfold State.claimChunk; apply xs_ct hf
        · exact hmode_postLoop _ _ _ _ _
        · simp [cur_postLoop]
      · exact xs_enterBody _ _ _ hf
    · split
      · apply xs_ct hf
        · exact hmode_abandonLoop _ _ _
        · simp [x_abandonLoop]
      · apply xs_ct hf <;> simp

/-- Retiring writes no general register. -/
theorem rd_retireTo (s : State) (f : Focus) (target : Word) (j : Bool) (r : Nat) : (s.retireTo f target j).rd f r = s.rd f r := by
  unfold State.rd
  congr 2
  unfold State.retireTo
  split
  · split
    · simp [State.xs, *]
    · rw [xs_goto _ _ _ _ ‹_›]
      apply xs_ct ‹_›
      · simp [State.countCt, core_stepMark]
      · simp [State.countCt, cur_stepMark]
  · have hf := ‹¬f.thr = 0›
    unfold State.retireMt
    dsimp only
    split
    · simp [State.xs, hf, State.stopMt, State.latch, cur_stepMark, Bind.mt, Bind.modMt]
    · simp [State.xs, hf, cur_stepMark, Bind.mt, Bind.modMt]

/-- Where control goes. -/
theorem goesTo_retireTo (s : State) (f : Focus) (target : Word) (j : Bool) : GoesTo f target s (s.retireTo f target j) := by
  intro h
  unfold State.retireTo State.pcOf
  by_cases hf : f.thr = 0
  · by_cases hm : (s.core f.core).hmode
    · simp [hf, hm]
    · have hl : (s.cur f.core).loop = none := by simpa [hf, State.inHandler, hm] using h
      have hl' : ((s.countCt f.core).cur f.core).loop = none := by simpa [State.countCt, cur_stepMark] using hl
      simp only [hf, if_true, hm, Bool.false_eq_true, if_false, State.goto, hl']
      simp [State.countCt, core_stepMark, hm]
  · simp only [hf, if_false, State.retireMt]
    split <;> simp [State.stopMt, State.latch, cur_stepMark, Bind.mt, Bind.modMt]

theorem retired_goto (s : State) (c : Nat) (target : Word) (j : Bool) :
    ((s.goto c target j).cur c).retired = (s.cur c).retired := by
  unfold State.goto
  split
  · simp
  · split
    · split
      · simp [State.claimChunk, cur_postLoop]
      · exact retired_enterBody _ _ _
    · split
      · simp only [State.cur_modCur_same]
        unfold State.abandonLoop
        split
        · rfl
        · simp [cur_postLoop]
      · simp

/-- The instruction counts. -/
theorem counts_retireTo (s : State) (f : Focus) (target : Word) (j : Bool) : Counts f s (s.retireTo f target j) := by
  unfold Counts State.retireTo
  by_cases hf : f.thr = 0
  · by_cases hm : (s.core f.core).hmode
    · simp [hf, hm, State.inHandler, State.cur_modCore]
    · simp only [hf, if_true, hm, Bool.false_eq_true, if_false, State.inHandler, Bool.and_false, retired_goto]
      simp [State.countCt, cur_stepMark]
  · simp only [hf, if_false, State.retireMt]
    split <;> simp [State.stopMt, State.latch, cur_stepMark, Bind.mt, Bind.modMt]

/-- Outside a loop retiring sends nothing and leaves the fetcher alone. -/
theorem kept_retireTo (s : State) (f : Focus) (target : Word) (j : Bool) : Kept f s (s.retireTo f target j) := by
  refine ⟨blank_retireTo s f target j, fun hl => ?_⟩
  unfold State.retireTo
  by_cases hf : f.thr = 0
  · by_cases hm : (s.core f.core).hmode
    · simp [hf, hm, State.cur_modCore, hl]
    · have hl' : ((s.countCt f.core).cur f.core).loop = none := by simpa [State.countCt, cur_stepMark] using hl
      simp only [hf, if_true, hm, Bool.false_eq_true, if_false, State.goto, hl']
      simp [State.countCt, cur_stepMark, core_stepMark, net_stepMark, hl]
  · simp only [hf, if_false, State.retireMt]
    split <;> simp [State.stopMt, State.latch, cur_stepMark, core_stepMark, net_stepMark, Bind.modMt, hl]

/-! ## Together -/

theorem writes_retireTo (s : State) (f : Focus) (target : Word) (j : Bool) : Passes f target s (s.retireTo f target j) :=
  ⟨fun r => by rw [rd_retireTo]; by_cases h : r = 0 <;> simp [h, rd_zero], goesTo_retireTo s f target j,
    counts_retireTo s f target j, kept_retireTo s f target j⟩

/-- A register is written and the instruction retires: nothing else happens. -/
theorem writes_wr_retireTo (s : State) (f : Focus) (d : Nat) (v target : Word) (j : Bool) :
    Writes f target d v s ((s.wr f d v).retireTo f target j) := by
  have hs := sameThread_wr s f d v
  have hp := writes_retireTo (s.wr f d v) f target j
  refine ⟨fun r => ?_, fun h => hp.2.1 ?_, ?_, ?_, fun hl => ?_⟩
  · rw [rd_retireTo, rd_wr]
  · rwa [inHandler_wr, hs.loop]
  · have := hp.2.2.1
    simp only [Counts, inHandler_wr, hs.retired, hs.mtRet] at this ⊢
    exact this
  · exact hp.2.2.2.1.trans (blank_wr s f d v)
  · have := hp.2.2.2.2 (by rw [hs.loop, hl])
    rwa [hs.net, hs.i, hs.views, hs.pair] at this

theorem finishes_finish (s : State) (f : Focus) (len d : Nat) (v : Word) : Finishes f len d v s (s.finish f len d v) := by
  unfold State.finish State.retire
  rw [pcOf_wr]
  exact writes_wr_retireTo s f d v _ _

theorem passes_retire (s : State) (f : Focus) (len : Nat) : Passes f (s.pcOf f + w64 len) s (s.retire f len) :=
  writes_retireTo s f _ _

end Sys2Proof.Machine
end

