-- ==== Sys2Proof/Laws/Trap.lean ====
section
/-! SUPPORT. What a trace record leaves alone, and what taking an exact trap writes, once for every cause (R133, R256, R434). -/
namespace Sys2Proof.Machine

/-! ## A store to memory leaves the threads alone -/

@[simp] theorem cleanPoison_cores (s : State) (la n : Nat) : (s.cleanPoison la n).cores = s.cores := by
  unfold State.cleanPoison; split <;> rfl

@[simp] theorem cleanPoison_binds (s : State) (la n : Nat) : (s.cleanPoison la n).binds = s.binds := by
  unfold State.cleanPoison; split <;> rfl

@[simp] theorem poisonBack_cores (s : State) (l : Nat) : (s.poisonBack l).cores = s.cores := by
  unfold State.poisonBack; dsimp only; repeat' split
  all_goals rfl

@[simp] theorem poisonBack_binds (s : State) (l : Nat) : (s.poisonBack l).binds = s.binds := by
  unfold State.poisonBack; dsimp only; repeat' split
  all_goals rfl

@[simp] theorem writeBack_cores (s : State) (l : Nat) : (s.writeBack l).cores = s.cores := by
  unfold State.writeBack; split <;> simp

@[simp] theorem writeBack_binds (s : State) (l : Nat) : (s.writeBack l).binds = s.binds := by
  unfold State.writeBack; split <;> simp

@[simp] theorem writeAt_cores (s : State) (la : Nat) (bs : List Byte) : (s.writeAt la bs).cores = s.cores := by
  unfold State.writeAt; dsimp only; repeat' split
  all_goals simp

@[simp] theorem writeAt_binds (s : State) (la : Nat) (bs : List Byte) : (s.writeAt la bs).binds = s.binds := by
  unfold State.writeAt; dsimp only; repeat' split
  all_goals simp

/-- What a fold of updates leaves, each update leaves. -/
theorem foldl_keeps {α β : Type} (g : State → β) (f : State → α → State) (hf : ∀ s a, g (f s a) = g s) (l : List α) (s : State) :
    g (l.foldl f s) = g s := by
  induction l generalizing s with
  | nil => rfl
  | cons a t ih => exact (ih (f s a)).trans (hf s a)

theorem writeVa_cores (s : State) (ctx va : Nat) (bs : List Byte) : (s.writeVa ctx va bs).cores = s.cores := by
  refine foldl_keeps State.cores _ (fun u p => ?_) _ s
  dsimp only; split
  · split <;> simp [State.setFull]
  · rfl

theorem writeVa_binds (s : State) (ctx va : Nat) (bs : List Byte) : (s.writeVa ctx va bs).binds = s.binds := by
  refine foldl_keeps State.binds _ (fun u p => ?_) _ s
  dsimp only; split
  · split <;> simp [State.setFull]
  · rfl

/-! ## Trace records (R432 to R435) -/

/-- A core without its count of trace records. -/
def Core.untraced (k : Core) : Core := { k with trCnt := [] }

theorem ite_keeps {β : Type} {p : Prop} [Decidable p] (g : State → β) {a b : State} {x : β} (ha : g a = x) (hb : g b = x) :
    g (if p then a else b) = x := by
  by_cases h : p
  · rw [if_pos h]; exact ha
  · rw [if_neg h]; exact hb

theorem ringAdvance_binds (s : State) (k : Nat) : (s.ringAdvance k).binds = s.binds := rfl

theorem ringAdvance_core (s : State) (k j : Nat) : (s.ringAdvance k).core j = s.core j := id rfl

theorem core_writeVa (s : State) (ctx va : Nat) (bs : List Byte) (j : Nat) : (s.writeVa ctx va bs).core j = s.core j := by
  unfold State.core; rw [writeVa_cores]

theorem modCore_untraced (s : State) (c j : Nat) (l : Core → SMap Nat) :
    ((s.modCore c (fun q => { q with trCnt := l q })).core j).untraced = (s.core j).untraced := by
  simp only [State.modCore, State.setCore, State.core, SMap.get_set]
  by_cases hj : j = c
  · subst hj; rw [if_pos rfl]; rfl
  · rw [if_neg hj]

theorem setLost_binds (s : State) (l : SMap Nat) : ({ s with traceLost := l } : State).binds = s.binds := rfl

theorem setLost_core (s : State) (l : SMap Nat) (j : Nat) : ({ s with traceLost := l } : State).core j = s.core j := rfl

theorem tracePut_binds (s : State) (ctx c ty thr : Nat) (v w : Word) : (s.tracePut ctx c ty thr v w).binds = s.binds := by
  rw [State.tracePut]
  exact (State.modCore_binds _ _ _).trans ((ringAdvance_binds _ _).trans (writeVa_binds _ _ _ _))

theorem tracePut_core (s : State) (ctx c ty thr : Nat) (v w : Word) (j : Nat) :
    ((s.tracePut ctx c ty thr v w).core j).untraced = (s.core j).untraced := by
  simp only [State.tracePut, modCore_untraced, ringAdvance_core, core_writeVa]

theorem traceDrop_binds (s : State) (fn : Nat) : (s.traceDrop fn).binds = s.binds := by
  rw [State.traceDrop]
  exact (setLost_binds (s.setReg _ _) _).trans (State.setReg_binds s _ _)

theorem traceDrop_core (s : State) (fn j : Nat) : ((s.traceDrop fn).core j).untraced = (s.core j).untraced := by
  rw [State.traceDrop]
  exact congrArg Core.untraced ((setLost_core (s.setReg _ _) _ j).trans (State.core_setReg s _ j _))

theorem trace_binds (s : State) (ctx c ty thr : Nat) (v w : Word) : (s.trace ctx c ty thr v w).binds = s.binds := by
  simp only [State.trace]
  refine ite_keeps State.binds rfl (ite_keeps _ (traceDrop_binds ..) (ite_keeps _ (tracePut_binds ..) (ite_keeps _ ?_ ?_)))
  · simp only [tracePut_binds]
  · simp only [traceDrop_binds, tracePut_binds]

theorem trace_core (s : State) (ctx c ty thr : Nat) (v w : Word) (j : Nat) :
    ((s.trace ctx c ty thr v w).core j).untraced = (s.core j).untraced := by
  have ht : ∀ (u : State) (l : SMap Nat), ({ u with traceLost := l } : State).core j = u.core j := fun _ _ => rfl
  simp only [State.trace]
  refine ite_keeps (fun u => (u.core j).untraced) rfl (ite_keeps (fun u => (u.core j).untraced) (traceDrop_core ..)
    (ite_keeps (fun u => (u.core j).untraced) (tracePut_core ..) (ite_keeps (fun u => (u.core j).untraced) ?_ ?_)))
  · simp only [tracePut_core, ht]
  · simp only [traceDrop_core, tracePut_core, ht]

/-! ## Taking an exact trap -/

/-- The handler is entered (R133): the cause registers, HMODE, the default EACT and the program counter of the handler; the control
thread of the context and every other core stay as they are. -/
theorem enterTrap_spec (s : State) (c code : Nat) (tval tepc : Word) (len : Nat) (idle : Bool) :
    let t := s.enterTrap c code tval tepc len idle
    let k := t.core c
    k.hmode = true ∧ k.tcause = w64 code ∧ k.tval = tval ∧ k.tepc = tepc &&& ~~~1 ∧ k.trapLen = len ∧ k.trapIdle = idle ∧
      k.eact = BitVec.ofNat 2 (defaultEact code) ∧ k.hpc = (s.core c).tvec ∧ k.ctx = (s.core c).ctx ∧ t.binds = s.binds ∧
      ∀ j, j ≠ c → (t.core j).untraced = (s.core j).untraced := by
  have hs : ∀ u : State, (u.stepMark ⟨c, 0⟩).cores = u.cores ∧ (u.stepMark ⟨c, 0⟩).binds = u.binds := fun u => by
    unfold State.stepMark; split <;> exact ⟨rfl, rfl⟩
  have hc : ∀ j, (((s.stepMark ⟨c, 0⟩).trace (s.ctxOf c) c 6 0 (w64 (code + 256 * defaultEact code)) tval).core j).untraced =
      (s.core j).untraced := fun j => by rw [trace_core]; simp only [State.core, (hs s).1]
  have hv := congrArg Core.tvec (hc c)
  have hx := congrArg Core.ctx (hc c)
  simp only [Core.untraced] at hv hx
  simp only [State.enterTrap, State.modCore, State.setCore, State.core, SMap.get_set_same] at *
  refine ⟨trivial, trivial, trivial, trivial, trivial, trivial, trivial, hv, hx, ?_, fun j hj => ?_⟩
  · rw [trace_binds, (hs s).2]
  · rw [SMap.get_set_ne _ _ _ hj]; exact hc j

/-- A micro-thread that faults (R256): its state, cause, TVAL; its registers and program counter stay. -/
theorem mtFault_mt (s : State) (c n code : Nat) (tval : Word) :
    let m := ((s.mtFault c n code tval).cur c).mt n
    let o := (s.cur c).mt n
    m.run = .fault ∧ m.block = [] ∧ m.cause = code ∧ m.tval = tval ∧ m.mtf = true ∧ m.waits = false ∧ m.w = o.w ∧ m.pc = o.pc ∧ m.v = o.v := by
  unfold State.mtFault State.stepMark State.latch State.pendCause
  dsimp only
  repeat' split
  all_goals simp [State.cur, State.modCur, State.modBind, State.setBind, State.bind, State.modMt, Bind.modMt, Bind.mt, State.ctxOf, State.core]

end Sys2Proof.Machine
end

