-- ==== Sys2Proof/Tests/Slice0.lean ====
section
/-! SUPPORT. This author's own tests: ill-formed terms refused, words written out from the encoding tables, results worked by hand
from the spec, and for each statement's hypotheses a state and operands that meet them. -/
namespace Sys2Proof.Tests
open Sys2Proof Sys2Proof.Machine

/-! ## Small states -/

/-- Core 0 runs an activation of the physical function's root context, its control thread in focus. -/
def ct : State := State.reset.placeProgram 32 0x00208183

/-- The same with micro-thread m0 in focus, running fetched code. -/
def mt : State := State.reset.placeProgram 32 0x0000003B

/-- Registers of the control thread. -/
def regs (s : State) (l : List (Nat × Word)) : State := s.modCur 0 (fun b => { b with x := l })

/-- Registers of m0. -/
def wregs (s : State) (l : List (Nat × Word)) : State := s.modMt 0 0 (fun m => { m with w := l })

/-- Bank 0 of core 0 in scratch mode; its first byte lies at 0xC000_0000_0000. -/
def own (s : State) : State := s.modCore 0 (fun k => { k with bankcfg := 0x2200_0000_0000_0001 })

/-- Core 0 in its handler. -/
def hand (s : State) : State := s.modCore 0 (fun k => { k with hmode := true, eact := 2, hpc := 0x100, tepc := 0x1000, trapLen := 4 })

/-- What an address of the root's identity map translates to. -/
def ident (la : Nat) : Xlat := ⟨la, 0x3F, 1, none, false⟩

/-! ## States that meet the hypotheses of the statements: scalar instructions -/

theorem witness_AluRegisterResults :
    ∀ i ∈ [Instr.add 2 1 3, .sub 2 1 3, .sll 2 1 3, .slt 2 1 3, .sltu 2 1 3, .xor 2 1 3, .srl 2 1 3, .sra 2 1 3, .and 2 1 3, .or 2 1 3,
      .andn 2 1 3, .orn 2 1 3, .xnor 2 1 3], Issues i ct := by decide

theorem witness_AluImmediateResults :
    ∀ i ∈ [Instr.addi 0xFFF 1 3, .slti 1 1 3, .sltiu 1 1 3, .xori 1 1 3, .ori 1 1 3, .andi 1 1 3, .slli 63 1 3, .srli 63 1 3, .srai 63 1 3,
      .lui 0x80000 3, .auipc 1 3], Issues i ct := by decide

theorem witness_MulDivAndBitResults :
    ∀ i ∈ [Instr.mul 2 1 3, .mulh 2 1 3, .mulhsu 2 1 3, .mulhu 2 1 3, .div 2 1 3, .divu 2 1 3, .rem 2 1 3, .remu 2 1 3, .min 2 1 3,
      .max 2 1 3, .minu 2 1 3, .maxu 2 1 3, .clz 1 3, .ctz 1 3, .popc 1 3, .brev 1 3], Issues i ct := by decide

theorem witness_BranchesAndJumps :
    (∀ i ∈ [Instr.beq 4 2 1, .bne 4 2 1, .blt 4 2 1, .bge 4 2 1, .bltu 4 2 1, .bgeu 4 2 1, .jal 4 1], Issues i ct) ∧
      (Issues (.jalr 2 1 3) ct ∧ (ct.rd ct.focus 1 + wInt (BitVec.toInt 2#12)).getLsbD 0 = false) ∧
      (Issues (.jalr 1 1 3) ct ∧ (ct.rd ct.focus 1 + wInt (BitVec.toInt 1#12)).getLsbD 0 = true ∧ ct.pendOf ct.focus = []) := by decide

theorem witness_ExtensionAndShortForms :
    ∀ i ∈ [Instr.sete 1 7, .setei 0xFFF 7, .gete 7 1, .geteI 3 1, .cAddi 1 0x3F, .cLi 1 1, .cMv 1 2, .cAdd 1 2, .cSub 1 2, .cAnd 1 2,
      .cBeqz 0 4, .cBnez 0 4, .cJ 4, .cNop], Issues i ct := by decide

/-! ## The same: memory -/

/-- x1 and x8 hold the first address of core 0's scratch bank, x2 an address of main memory. -/
def near : State := regs (own ct) [(1, 0xC000_0000_0000), (2, 0x2000), (8, 0xC000_0000_0000), (9, 0x2000)]

/-- The same with a store posted to the main-memory address. -/
def posted : State := near.modCur 0 (fun b => { b with
  journal := SMap.ofFn JEntry.free (fun k => if k = 0 then { JEntry.free with st := .held, va := 0x2000, la := 0x2000, data := [1, 2, 3, 4, 5, 6, 7, 8], size := 8, seq := 1 } else JEntry.free) 0 64 })

theorem witness_LoadsFromOwnBank :
    ∀ p ∈ [(Instr.lb 0 1 3, 1), (.lh 0 1 3, 2), (.lw 0 1 3, 4), (.ld 0 1 3, 8), (.lbu 0 1 3, 1), (.lhu 0 1 3, 2), (.lwu 0 1 3, 4), (.cLd 0 0 1, 8)],
      Issues p.1 near ∧ Reaches near.focus p.2 rRead kRead 0 false 0xC000_0000_0000 (ident 0xC000_0000_0000) near ∧
        isOwnBank 0 0xC000_0000_0000 = true ∧ (∀ k < p.2, (near.openJournal 0).newestFor (0xC000_0000_0000 + k) = none) ∧
        near.readBehind near.focus 0xC000_0000_0000 p.2 = false ∧ near.poisoned 0xC000_0000_0000 p.2 = false := by decide

theorem witness_LoadsSeeTheirOwnStores :
    (∀ p ∈ [(Instr.lb 0 2 3, 1), (.lh 0 2 3, 2), (.lw 0 2 3, 4), (.ld 0 2 3, 8), (.lbu 0 2 3, 1), (.lhu 0 2 3, 2), (.lwu 0 2 3, 4), (.cLd 0 1 1, 8)],
      Issues p.1 posted ∧ Reaches posted.focus p.2 rRead kRead 0 false 0x2000 (ident 0x2000) posted ∧
        posted.readBehind posted.focus 0x2000 p.2 = false ∧
        (∀ k < p.2, (posted.openJournal 0).newestFor (0x2000 + k) = (List.replicate p.2 ((posted.cur 0).entry 0))[k]?)) ∧
      ((posted.cur 0).entry 0).thr = 0 ∧ ((posted.cur 0).entry 0).poison = false ∧
      (∀ i ∈ [Instr.lb 0 1 3, .lh 0 1 3, .lw 0 1 3, .ld 0 1 3, .lbu 0 1 3, .lhu 0 1 3, .lwu 0 1 3, .cLd 0 0 1], Issues i (hand ct)) := by decide

theorem witness_LoadsLeave :
    ∀ p ∈ [(Instr.lb 0 2 3, 1), (.lh 0 2 3, 2), (.lw 0 2 3, 4), (.ld 0 2 3, 8), (.lbu 0 2 3, 1), (.lhu 0 2 3, 2), (.lwu 0 2 3, 4), (.cLd 0 1 1, 8)],
      Issues p.1 near ∧ Reaches near.focus p.2 rRead kRead 0 false 0x2000 (ident 0x2000) near ∧ isOwnBank 0 0x2000 = false ∧
        (∀ k < p.2, (near.openJournal 0).newestFor (0x2000 + k) = none) ∧ near.l1Copy 0 (0x2000 / 128) = none ∧
        near.readBehind near.focus 0x2000 p.2 = false := by decide

theorem witness_StoresToOwnBank :
    (∀ p ∈ [(Instr.sb 0 2 1, 1, false), (.sh 0 2 1, 2, false), (.sw 0 2 1, 4, false), (.sd 0 2 1, 8, false), (.swf 0 2 1, 4, true),
        (.sdf 0 2 1, 8, true), (.cSd 0 0 1, 8, false)],
      Issues p.1 near ∧ Reaches near.focus p.2.1 rWrite kWrite 1 true 0xC000_0000_0000 (ident 0xC000_0000_0000) near ∧
        near.storesAtOnce 0 0xC000_0000_0000 = true ∧ near.frameShut placeCtx 0xC000_0000_0000 = false ∧
        near.claimed 0 0xC000_0000_0000 p.2.1 = false ∧ near.pendOf near.focus = []) ∧
      (∀ i ∈ [Instr.sb 0 2 1, .sh 0 2 1, .sw 0 2 1, .sd 0 2 1, .cSd 0 0 1], Issues i (hand ct)) := by decide

/-- x1 holds an address of another core's scratch bank. -/
def far : State := regs ((own ct).modCore 1 (fun k => { k with bankcfg := 0x2200_0000_0000_0001 })) [(1, 0xC000_0020_0000), (9, 0xC000_0020_0000)]

/-- Core 0 runs paired: its own bank's stores wait for the interval. -/
def twin : State := near.modCore 0 (fun k => { k with pair := { PairSt.none with mode := .run } })

theorem witness_StoresArePosted :
    (∀ p ∈ [(Instr.sb 0 1 2, 1), (.sh 0 1 2, 2), (.sw 0 1 2, 4), (.sd 0 1 2, 8), (.cSd 0 1 0, 8)],
      Issues p.1 near ∧ Reaches near.focus p.2 rWrite kWrite 1 true 0x2000 (ident 0x2000) near ∧ near.storesAtOnce 0 0x2000 = false ∧
        near.claimed 0 0x2000 p.2 = false ∧ (near.cur 0).freeEntry = some 0 ∧ (near.cur 0).recFor.isSome = true) ∧
      (∀ p ∈ [(Instr.swf 0 2 1, 4), (.sdf 0 2 1, 8)],
        Issues p.1 far ∧ Reaches far.focus p.2 rWrite kWrite 1 true 0xC000_0020_0000 (ident 0xC000_0020_0000) far ∧
          far.storesAtOnce 0 0xC000_0020_0000 = false ∧ isScratch 0xC000_0020_0000 = true ∧ far.claimed 0 0xC000_0020_0000 p.2 = false ∧
          (far.cur 0).freeEntry = some 0 ∧ (far.cur 0).recFor.isSome = true) ∧
      (Issues (.sd 0 2 1) twin ∧ Reaches twin.focus 8 rWrite kWrite 1 true 0xC000_0000_0000 (ident 0xC000_0000_0000) twin ∧
        twin.storesAtOnce 0 0xC000_0000_0000 = false ∧ (twin.cur 0).freeEntry = some 0) := by decide

/-- The first granule of the bank is full. -/
def filled : State := { near with full := [(0xC000_0000_0000 / 16, true)] }

theorem witness_FullBitLoads :
    ∀ p ∈ [(Instr.lwf 0 1 3, 4, false), (.ldf 0 1 3, 8, false), (.lwfc 0 1 3, 4, true), (.ldfc 0 1 3, 8, true)],
      Issues p.1 filled ∧ filled.inHandler filled.focus = false ∧ filled.rwCause 0 placeCtx 0xC000_0000_0000 p.2.1 p.2.2 false = none ∧
        filled.watchHit filled.focus 0xC000_0000_0000 p.2.1 (if p.2.2 then 2 else 0) = none ∧
        filled.look 0 placeCtx 0xC000_0000_0000 = .hit (ident 0xC000_0000_0000) ∧
        SMap.get false filled.full (0xC000_0000_0000 / 16) = true ∧ filled.fullQueue (0xC000_0000_0000 / 16) = false ∧
        (∀ k < p.2.1, (filled.openJournal 0).newestFor (0xC000_0000_0000 + k) = none) ∧
        filled.readBehind filled.focus 0xC000_0000_0000 p.2.1 = false ∧
        filled.agreedHere filled.focus = false ∧ Closed filled.focus filled ∧ filled.poisoned 0xC000_0000_0000 p.2.1 = false := by decide

theorem witness_AtomicsInOwnBank :
    ∀ i ∈ [Instr.amoadd 1 3 2 1 1 3, .amoswap 1 3 2 1 1 3, .amoand 1 3 2 1 1 3, .amoor 1 3 2 1 1 3, .amoxor 1 3 2 1 1 3, .amomin 1 3 2 1 1 3,
        .amomax 1 3 2 1 1 3, .amominu 1 3 2 1 1 3, .amomaxu 1 3 2 1 1 3, .amocas 1 3 2 1 1 3],
      Issues i near ∧ Reaches near.focus 8 rRead kRead 2 false 0xC000_0000_0000 (ident 0xC000_0000_0000) near ∧
        Reaches near.focus 8 rWrite kWrite 2 false 0xC000_0000_0000 (ident 0xC000_0000_0000) near ∧ near.scopeAllowed 0 1 = true ∧
        near.claimed 0 0xC000_0000_0000 8 = false ∧ (near.cur 0).lineBusy 0xC000_0000_0000 = false ∧ Closed near.focus near ∧
        near.poisoned 0xC000_0000_0000 8 = false ∧ near.releaseWaits near.focus 1 false = false := by decide

theorem witness_FencesAndLineOps :
    (Issues (.fence 1 0xF) near ∧ near.scopeAllowed 0 1 = true ∧ near.releaseWaits near.focus 1 true = false ∧
        near.releaseWaits near.focus 1 false = false ∧ (near.cur 0).enginesDone = true ∧ Closed near.focus near) ∧
      (Issues (.prefetch 0 2) near ∧ near.watchHit near.focus ((0x2000 : Word) &&& ~~~127).toNat 128 0 = none) ∧
      (∀ p ∈ [(Instr.discard 0 2, rWrite), (.lastuse 0 2, rRead), (.flushl 0 2, rRead)],
        Issues p.1 near ∧ near.lineCause 0 0x2000 p.2 = none ∧ near.look 0 placeCtx 0x2000 = .hit (ident 0x2000) ∧
          near.watchHit near.focus ((0x2000 : Word) &&& ~~~127).toNat 128 1 = none ∧ isMemory 0x2000 = true ∧
          (near.cur 0).freeEntry = some 0 ∧ (near.cur 0).recFor.isSome = true) ∧
      (∀ p ∈ [(Instr.discard 0 1, rWrite), (.lastuse 0 1, rRead), (.flushl 0 1, rRead)],
        Issues p.1 near ∧ near.lineCause 0 0xC000_0000_0000 p.2 = none ∧ near.look 0 placeCtx 0xC000_0000_0000 = .hit (ident 0xC000_0000_0000) ∧
          near.watchHit near.focus ((0xC000_0000_0000 : Word) &&& ~~~127).toNat 128 1 = none ∧ isMemory 0xC000_0000_0000 = false) ∧
      (∀ i ∈ [Instr.discard 0 1, .lastuse 0 1, .flushl 0 1], Issues i (hand near)) := by decide

/-! ## The same: queues, messages, groups, barriers and the array -/

/-- Entries wait at every read end: the control thread's q1, q2, q3, and m0's q0, q2 and q4. -/
def queued (s : State) : State :=
  (s.modCur 0 (fun b => { b with q1 := [(7, 3)], q2 := [8], q3 := [9], mtmask := 0xFFFF })).modMt 0 0 (fun m => { m with q0 := [5] })
    |>.modMt 0 15 (fun m => { m with east := [6] }) |>.modMt 0 1 (fun m => { m with west := [4] })

theorem witness_QueueInstructions :
    (∀ i ∈ [Instr.qput 0 1 0, .cQput 0 1], Issues i (queued ct) ∧ ∀ m < 16, (((queued ct).cur 0).mt m).q0.length < 4) ∧
      (∀ i ∈ [Instr.qput 0 1 1, .cQput 1 1, .qput 0 1 3, .cQput 3 1, .qput 0 1 5, .cQput 5 1], Issues i mt) ∧
      (mt.cur 0).q1.length < 16 ∧ ((mt.cur 0).mt 0).east.length < 2 ∧ ((mt.cur 0).mt 0).west.length < 2 ∧
      (∀ p ∈ [(Instr.qget 4 1 3, 1), (.qget 0 2 3, 2), (.qget 0 3 3, 3), (.cQget 1 3, 1)], Issues p.1 (queued ct) ∧ getEnd 0 p.2 = true ∧
        (queued ct).entries ⟨0, 0⟩ p.2 ≠ []) ∧
      (∀ p ∈ [(Instr.qget 0 0 3, 0), (.qget 0 2 3, 2), (.qget 0 4 3, 4), (.cQget 4 3, 4)], Issues p.1 (queued mt) ∧ getEnd 1 p.2 = true ∧
        (queued mt).entries ⟨0, 1⟩ p.2 ≠ []) ∧
      (Issues (.qget 0 1 3) ct ∧ Issues (.cQget 1 3) ct ∧ ct.entries ⟨0, 0⟩ 1 = []) ∧
      (Issues (.qpeek 1 3) (queued ct) ∧ (queued ct).entries ⟨0, 0⟩ 1 = [(7, 3)]) ∧ (Issues (.qcnt 3 3) ct ∧ cntEnd 0 3 = true) ∧
      (Issues (.qcnt 5 3) mt ∧ cntEnd 1 5 = true) := by decide

/-- The same with the oldest entry of q1 poisoned. -/
def poisonedQ : State := (queued ct).modCur 0 (fun b => { b with badQ := [(0, 1, 0)] })

theorem witness_QueueInstructions_poisoned : Issues (.qpeek 1 3) poisonedQ ∧ getEnd 0 1 = true ∧ poisonedQ.entries ⟨0, 0⟩ 1 = [(7, 3)] ∧
    poisonedQ.headBad ⟨0, 0⟩ 1 = true := by decide

/-- The running context holds a save area on core 0; e1 names rows of one I8 column. -/
def sender : State :=
  ((regs (own ct) [(1, 0xC000_0000_0000), (2, 4)]).modCtx placeCtx (fun k => { k with cores := [0] })).modCur 0 (fun b =>
    { b with e := [(1, 0x0000_0000_0200_0000)] })

theorem witness_SendsWaitInTheOutbox :
    ∀ p ∈ [(Instr.send 2 1, 0), (.sendg 2 1, 1), (.sendf 2 1, 2)],
      Issues p.1 sender ∧ sender.inHandler sender.focus = false ∧ sender.member 0 0 = true ∧
        sender.accessCause 0 placeCtx 0xC000_0000_0000 4 1 rRead kRead false = none ∧ sender.badDest sender.focus p.2 = none ∧
        (rowFmt (sender.rdE sender.focus 1)).bad 4 0 0 = false ∧ (sender.cur 0).outbox.length + 2 ≤ 64 ∧
        sender.gather sender.focus 0xC000_0000_0000 4 = .done [0, 0, 0, 0] false none := by decide

theorem witness_InputSetReads : ∀ i ∈ [Instr.mld 1 3, .mhdr 1 3, .mlen 3], Issues i ct ∧ ct.pendOf ct.focus = [] := by decide

/-- The same with m0 running. -/
def busyArray : State := ct.modMt 0 0 (fun m => { m with run := .fetched })

theorem witness_ActivationEnds :
    ((busyArray.cur 0).arrayStill = false ∧ ∀ i ∈ [Instr.endAct, .cEnd, .endx], Issues i busyArray) ∧ Closed ct.focus ct ∧
    (ct.cur 0).act.isSome = true ∧ (ct.cur 0).arrayStill = true ∧ (ct.core 0).pair = PairSt.none ∧ ct.inHandler ct.focus = false ∧
      Issues .endAct ct ∧ Issues .cEnd ct ∧ (ct.cur 0).rateError = none ∧ (ct.cur 0).chki = 0 ∧ Issues .endx ct := by decide

/-- The running actor may be redelivered, and has been `redlv` times. -/
def redelivered (redlv : Nat) : State :=
  ct.modCur 0 (fun b => { b with slots := [(0, ⟨.running, ⟨0x1000, 1, 0, 1, 0⟩, redlv, none⟩)] })

theorem witness_ActivationEnds_endx : ∀ p ∈ [(redelivered 2, true), (redelivered 3, false), (ct, false)],
    Issues .endx p.1 ∧ (p.1.cur 0).act.isSome = true ∧ (p.1.cur 0).arrayStill = true ∧ Closed ⟨0, 0⟩ p.1 ∧
      decide ((((p.1.cur 0).slot 0).desc.repl = true) ∧ ((p.1.cur 0).slot 0).redlv < 3) = p.2 := by decide

theorem witness_GroupQueries :
    (ct.member 0 0 = true ∧ ∀ i ∈ [Instr.grank 1 3, .gsize 1 3, .gmemb 2 1 3], Issues i ct) ∧
      ((regs ct [(1, 9)]).member 0 9 = false ∧ ∀ i ∈ [Instr.grank 1 3, .gsize 1 3, .gmemb 2 1 3], Issues i (regs ct [(1, 9)])) := by decide

/-- Core 0 has joined generation 1 of group 0's nest. -/
def joined : State := ct.modCur 0 (fun b => { b with views := [(0, ⟨1, 1, 0, false, [4]⟩)], gens := [(0, 1)] })

theorem witness_NestsAndLoops :
    (Issues (.nest 2 1) ct ∧ ct.member 0 0 = true ∧ ct.inHandler ct.focus = false ∧ Closed ct.focus ct ∧ (ct.cur 0).loop = none) ∧
      (Issues (.loop 3 1) ct ∧ (SMap.get NestView.none (ct.cur 0).views 0).gen = 0) ∧
      (Issues (.loop 3 1) joined ∧ (joined.cur 0).loop = none ∧ (SMap.get NestView.none (joined.cur 0).views 0).gen ≠ 0 ∧
        (SMap.get NestView.none (joined.cur 0).views 0).out = false ∧ Closed joined.focus joined) ∧
      Issues (.nestq 1 3) ct ∧
      (let s := joined.modCore 0 (fun k => { k with pair := { PairSt.none with mode := .run } })
       Issues (.loop 3 1) s ∧ (s.cur 0).loop = none ∧ (s.core 0).pair.mode = .run) := by decide

/-- Barrier 0 of core 0 in a state. -/
def barred (st : Nat) : State := ct.modCur 0 (fun b => { b with bars := [(0, { BarEntry.zero with st := st, gen := 1 })] })

theorem witness_BarrierInstructions :
    (Issues (.barm 0 0 2 1) ct ∧ ((ct.cur 0).bar 0).st = 0 ∧ SMap.find? ((ct.cur 0).bar 0).early 1 = none ∧ ct.member 0 0 = true ∧ ct.scopeAllowed 0 0 = true) ∧
      (Issues (.barv 2 1) (barred 1) ∧ (barred 1).stoppedWaits 0 0 = false ∧ (barred 1).stoppedOwe 0 0 = false ∧ Closed ⟨0, 0⟩ (barred 1) ∧
        (barred 1).releaseWaits ⟨0, 0⟩ 0 true = false) ∧
      Issues (.barw 1 3) (barred 2) ∧ Issues (.barw 1 3) (barred 3) ∧ (Issues (.barx 1) (barred 1) ∧ Issues (.barx 1) (barred 2)) ∧
      Issues (.barq 1 3) ct := by decide

/-- The code holds BCAST of one VMOV. -/
def block : State := ct.modCur 0 (fun b => { b with code := putBytes b.code 0x1004 [0xBB, 0x90, 0x00, 0x00], mtmask := 1 })

theorem witness_MicroThreadArray :
    (Issues (.bcast 1 1) block ∧ block.readBlock block.focus 1 0x1004 [] = .ok [(4, 0x000090BB)] ∧
        ∀ m < 16, ((block.cur 0).mt m).run = .stopped) ∧
      (Issues (.bfetch 0xFFC 1) mt ∧ (mt.rd mt.focus 1 + wInt (BitVec.toInt 0xFFC#12)).getLsbD 0 = false) ∧ Issues .stop mt ∧ Issues .cStop mt ∧
      (Issues (.mtwait 1) ct ∧ ∀ m < 16, ((ct.cur 0).mt m).run = .stopped) ∧ Issues (.mtstat 3) ct ∧
      (Issues (.mtrst 1) ct ∧ ∀ m < 16, ((ct.cur 0).mt m).run = .stopped) ∧
      (Issues (.mtrst 1) busyArray ∧ ((busyArray.cur 0).mt 0).run = .fetched ∧ busyArray.midway 0 0 = false) := by decide

/-! ## The same: vectors -/

/-- v1 and v2 hold unscaled elements of a format, v0 a mask. -/
def vecs (fmt : Nat) : State := mt.modMt 0 0 (fun m => { m with
  v := [(0, { VReg.zero with tag := mkTag 10 0 false false }), (1, { VReg.zero with tag := mkTag fmt 0 false false }),
    (2, { VReg.zero with tag := mkTag fmt 0 false false })] })

theorem witness_VectorIntegerResults :
    (∀ i ∈ [Instr.vaddVv 2 1 3, .vaddVx 5 1 3, .vaddVi 31 1 3, .vsubVv 2 1 3, .vsubVx 5 1 3, .vsubVi 31 1 3, .vmulVv 2 1 3, .vmulVx 5 1 3, .vmulVi 31 1 3,
        .vminVv 2 1 3, .vminVx 5 1 3, .vminVi 31 1 3, .vmaxVv 2 1 3, .vmaxVx 5 1 3, .vmaxVi 31 1 3, .vandVv 2 1 3, .vandVx 5 1 3, .vandVi 31 1 3,
        .vorVv 2 1 3, .vorVx 5 1 3, .vorVi 31 1 3, .vxorVv 2 1 3, .vxorVx 5 1 3, .vxorVi 31 1 3, .vshlVv 2 1 3, .vshlVx 5 1 3, .vshlVi 31 1 3,
        .vshrVv 2 1 3, .vshrVx 5 1 3, .vshrVi 31 1 3, .vsraVv 2 1 3, .vsraVx 5 1 3, .vsraVi 31 1 3, .vcmpeqVv 2 1 3, .vcmpeqVx 5 1 3, .vcmpeqVi 31 1 3,
        .vcmpltVv 2 1 3, .vcmpltVx 5 1 3, .vcmpltVi 31 1 3, .vabs 1 3, .vneg 1 3, .vselVv 2 1 3, .vselVx 5 1 3, .vselVi 31 1 3], Issues i (vecs 2)) ∧
      (∀ fmt ∈ [2, 3, 4, 10], ((((vecs fmt).mtOf ⟨0, 1⟩).vreg 1).fmt = fmt ∧ (((vecs fmt).mtOf ⟨0, 1⟩).vreg 1).scaled = false ∧
        (((vecs fmt).mtOf ⟨0, 1⟩).vreg 2).fmt = fmt)) ∧ isIntFmt 2 = true ∧ viForm 2 = true := by decide

theorem witness_VectorFloatResults :
    (∀ fmt ∈ [7, 8, 9], isFpFmt fmt = true ∧ (fpFmt fmt).isSome = true ∧ (((vecs fmt).mtOf ⟨0, 1⟩).vreg 1).scaled = false ∧
        (((vecs fmt).mtOf ⟨0, 1⟩).vreg 2).fmt = fmt) ∧
      ∀ i ∈ [Instr.vfaddVv 2 1 2, .vfaddVx 5 1 2, .vfsubVv 2 1 2, .vfsubVx 5 1 2, .vfmulVv 2 1 2, .vfmulVx 5 1 2, .vfmaVv 2 1 2, .vfmaVx 5 1 2,
        .vfminVv 2 1 2, .vfminVx 5 1 2, .vfmaxVv 2 1 2, .vfmaxVx 5 1 2, .vfcmpltVv 2 1 2, .vfcmpltVx 5 1 2, .vfcmpeqVv 2 1 2, .vfcmpeqVx 5 1 2,
        .vfexp2 1 2, .vflog2 1 2, .vfrcp 1 2, .vfrsq 1 2], Issues i (vecs 9) := by decide

/-- m0 works on one row and one column; w1 holds the first address of the scratch bank. -/
def vmem (fmt : Nat) : State := wregs (own ((vecs fmt).modMt 0 0 (fun m => { m with
  shape := 0, v := (SMap.ofFn VReg.zero (fun _ => { VReg.zero with tag := mkTag fmt (if fmt = 1 then 7 else 0) false false }) 1 2) }))) [(1, 0xC000_0000_0000)]

theorem witness_VectorMemory :
    (Issues (.vld 2 1 1) (vmem 2) ∧ (vmem 2).rangesCause 0 placeCtx 0xC000_0000_0000 1 [(0xC000_0000_0000, 1)] rRead kRead false = none ∧
        (vmem 2).watchHit ⟨0, 1⟩ 0xC000_0000_0000 1 0 = none ∧
        (vmem 2).gatherAll ⟨0, 1⟩ 0xC000_0000_0000 0 [(0xC000_0000_0000, 1)] = .done [0] false none) ∧
      (Issues (.vldp 2 1 1) (vmem 1) ∧ (vmem 1).rangesCause 0 placeCtx 0xC000_0000_0000 128 [(0xC000_0000_0000, 32)] rRead kRead false = none ∧
        (vmem 1).watchHit ⟨0, 1⟩ 0xC000_0000_0000 32 0 = none ∧
        (vmem 1).gatherAll ⟨0, 1⟩ 0xC000_0000_0000 32 [(0xC000_0000_0000, 32)] = .done (List.replicate 32 0) false none) ∧
      (Issues (.vst 1 1) (vmem 2) ∧ (((vmem 2).mtOf ⟨0, 1⟩).vreg 1).fmt ≠ 0 ∧ ((vmem 2).mtOf ⟨0, 1⟩).prog = 0 ∧ ((vmem 2).mtOf ⟨0, 1⟩).grp = 0 ∧
        (vmem 2).accessCause 0 placeCtx 0xC000_0000_0000 1 1 rWrite kWrite true = none ∧ (vmem 2).watchHit ⟨0, 1⟩ 0xC000_0000_0000 1 1 = none ∧
        (vmem 2).look 0 placeCtx 0xC000_0000_0000 = .hit (ident 0xC000_0000_0000) ∧ (vmem 2).storesAtOnce 0 0xC000_0000_0000 = true ∧
        (vmem 2).frameShut placeCtx 0xC000_0000_0000 = false ∧ (vmem 2).pendOf ⟨0, 1⟩ = [] ∧ (vmem 2).soBusy ⟨0, 1⟩ = false ∧ ((vmem 2).cur 0).cmds = []) ∧
      (Issues (.vstp 2 1 1) (vmem 1) ∧ (((vmem 1).mtOf ⟨0, 1⟩).vreg 1).fmt = 1 ∧ (((vmem 1).mtOf ⟨0, 1⟩).vreg 1).planes = 7 ∧
        (vmem 1).accessCause 0 placeCtx 0xC000_0000_0000 32 128 rWrite kWrite true = none ∧ (vmem 1).watchHit ⟨0, 1⟩ 0xC000_0000_0000 32 1 = none ∧
        ∀ k < 32, (vmem 1).look 0 placeCtx (0xC000_0000_0000 + k) = .hit (ident (0xC000_0000_0000 + k)) ∧
          (vmem 1).storesAtOnce 0 (0xC000_0000_0000 + k) = true) := by decide

/-- v1 is scaled; w4 holds a word for VSCALE or VTAG. -/
def scaled (w : Word) : State := wregs (mt.modMt 0 0 (fun m => { m with v := [(1, { VReg.zero with tag := mkTag 2 0 true false })] })) [(4, w)]

theorem witness_VectorConversionsAndMoves :
    (Issues (.vcvt 7 1 1 2) (vecs 9) ∧ Issues (.vcvt 0 9 1 2) (vecs 2)) ∧
      (Issues (.vsplit 7 1 1 2) (vecs 9) ∧ Issues (.vsplit 0 5 1 2) (vecs 9) ∧ Issues (.vsplit 0 8 1 2) (vecs 9) ∧ (fpFmt 9).isSome = true) ∧
      (Issues (.vscale 4 1 2) (vecs 2) ∧ fld ((vecs 2).rd ⟨0, 1⟩ 4) 8 3 = 0) ∧
      (Issues (.vscale 4 1 2) (scaled 0x101) ∧ fld ((scaled 0x101).rd ⟨0, 1⟩ 4) 8 3 = 1 ∧ (((scaled 0x101).mtOf ⟨0, 1⟩).vreg 1).scaled = true ∧
        ∀ r < 32, (((scaled 0x101).mtOf ⟨0, 1⟩).vreg 1).scaleOf r + 1 ≤ 127) ∧
      (Issues (.vscale 4 1 2) (wregs (vecs 2) [(4, 0x23F)]) ∧ fld ((wregs (vecs 2) [(4, 0x23F)]).rd ⟨0, 1⟩ 4) 8 3 = 2) ∧
      (Issues (.vscale 4 1 2) (scaled 0x300) ∧ fld ((scaled 0x300).rd ⟨0, 1⟩ 4) 8 3 = 3) ∧
      (Issues (.vscale 4 1 2) (scaled 0x400) ∧ fld ((scaled 0x400).rd ⟨0, 1⟩ 4) 8 3 = 4) ∧
      (Issues (.vtag 4 2) (scaled 0x102) ∧ badTag (fld ((scaled 0x102).rd ⟨0, 1⟩ 4) 0 16) = false) ∧
      ∀ i ∈ [Instr.vshape 5, .vmov 1 3, .vbcr 5 1 3, .vbcc 5 1 3, .vtrn 1 3, .vins 5 6 2, .vext 5 1 6], Issues i (vecs 2) ∧ Issues i (vecs 10) := by decide

theorem witness_VectorReductions :
    (∀ fmt ∈ [2, 3, 4], isIntFmt fmt = true) ∧ (∀ fmt ∈ [7, 8, 9], isFpFmt fmt = true) ∧
      (∀ i ∈ [Instr.vrsumRow 1 3, .vrmaxRow 1 3, .vrminRow 1 3, .vrsumCol 1 3, .vrmaxCol 1 3, .vrminCol 1 3, .vscanRow 1 3, .vscanCol 1 3],
        Issues i (vecs 2) ∧ Issues i (vecs 9)) ∧ (((vecs 2).mtOf ⟨0, 1⟩).vreg 1).scaled = false := by decide


/-! ## The same: the engines -/

/-- Operand-extension registers of the control thread. -/
def es (s : State) (l : List (Nat × Word)) : State := s.modCur 0 (fun b => { b with e := l })

/-- One row of A and of B, two planes each, at the scratch bank; macro 0 holds a tile and tile 0 is I32; group 0 is a torus. -/
def mtx (e1 e2 : Word) : State :=
  (es (own ct) [(0, 0xC000_0000_0000), (1, e1), (2, e2)]).modCur 0 (fun b => { b with
    cims := [(0, ⟨0, { Half.zero with loaded := true, kk := 1 }, Half.zero⟩)], tiles := [(0, ⟨[], 4⟩)] })
    |>.modCtx placeCtx (fun k => { k with groups := [(0, ⟨[0], 0, true, 1, 1, 0, 0⟩)] })

/-- A command of the list. -/
def cmd (op : Nat) (st : CmdSt) (e2 : Word) : MtxCmd :=
  { op := op, tile := 0, mac := 0, ord := 0, scope := 0, tag := 1, e0 := 0xC000_0000_0000, e1 := 0, e2 := e2, e3 := 0, rows := 0, st := st
    fwd := false, accepted := 0, stop := false, status := 0, addr := 0, eff := 0, seq := 0 }

def listed (s : State) (k : List MtxCmd) : State := s.modCur 0 (fun b => { b with cmds := k, jseq := 4 })

theorem witness_MatrixCommandsIssue :
    (∀ p ∈ [(Instr.mldb 0 0 0 0, cmd 0 .queued 2, mtx 0 2), (.mmul 0 0 0 0 0, cmd 1 .queued 0x20000, mtx 0 0x20000),
        (.mmrot 0 0 0 0 0, cmd 2 .queued 0x20000, mtx 0 0x20000), (.mdrain 0 0 0 0, cmd 3 .queued 0, mtx 0x0400_0004 0),
        (.mzero 0 0 0 0, cmd 4 .queued 0, mtx 0 0)],
      Issues p.1 p.2.2 ∧ p.2.2.mtxCause 0 p.1 { p.2.1 with tag := 0, e1 := p.2.2.rdE ⟨0, 0⟩ 1 } = none ∧ Closed ⟨0, 0⟩ p.2.2 ∧
        (p.2.2.cur 0).cmds.length < 4) ∧
      Issues (.mzero 0 0 0 0) (listed ct (List.replicate 4 (cmd 4 .queued 0))) ∧
      (listed ct (List.replicate 4 (cmd 4 .queued 0))).mtxCause 0 (.mzero 0 0 0 0)
        { cmd 4 .queued 0 with tag := 0, e0 := 0, seq := 4 } = none := by decide

theorem witness_MatrixCommandsIssue_faults :
    (Issues (.mzero 0 5 1 0) ct ∧ ct.scopeAllowed 0 5 = false) ∧
      (let s := es ct [(2, 0x20000)]
       Issues (.mmul 0 0 0 0 0) s ∧ fld (s.rdE ⟨0, 0⟩ 2) 16 4 = 2 ∧ s.scopeAllowed 0 0 = true ∧ (s.ctx (s.ctxOf 0)).comp = 0 ∧ (s.cur 0).cmds = [] ∧
         ((s.cur 0).cim 0).active.loaded = false ∧ ((s.cur 0).cim 0).shadow.ready = false) ∧
      (let s := (es ct [(2, 0x20000)]).modCur 0 (fun b => { b with cims := [(0, ⟨0, Half.zero, { Half.zero with ready := true }⟩)] })
       Issues (.mmul 0 0 0 0 0) s ∧ ((s.cur 0).cim 0).shadow.ready = true ∧ ((s.cur 0).tile 0).fmt ≠ 4) := by decide

/-- 16-byte granules that an engine's command has read or written. -/
def brought (s : State) (thr : Nat) (k : AccKind) (l : List (Nat × AccSt)) : State :=
  { s with accs := l.map (fun p => ⟨p.1, 0, placeCtx, thr, k, p.2, w64 p.1, p.1, 16, 0, 1, none, 0, 0, 0, 0, 0, 0, 0⟩) }

def granules (l : List Nat) : List (Nat × AccSt) := l.map (fun a => (a, .valued (List.replicate 16 1) false false))

/-- Rows of two planes at the scratch bank have been read. -/
def readRow (s : State) : State := brought s thrMatrix (.engine none false) (granules [0xC000_0000_0000, 0xC000_0000_0010])

/-- A tile travels to core 0. -/
def tileOnWay (taken : Bool) : State := { ct with net := [⟨0, 0, placeCtx, .tile 0 Half.zero 0 0 taken⟩] }

theorem witness_MatrixWaitsAndEvents :
    (Issues .mwait ct ∧ (∀ k ∈ (ct.cur 0).cmds, k.st = .complete)) ∧
      (Issues .mwait (listed ct [cmd 4 .queued 0]) ∧ ∃ k ∈ ((listed ct [cmd 4 .queued 0]).cur 0).cmds, k.st ≠ .complete) ∧
      Issues (.mstat 3) ct ∧ Alive ct ∧ ct.engineOn 0 = true ∧
      (∀ op ∈ [0, 3, 4], let s := listed ct [cmd op .queued 2]
        Alive s ∧ s.engineOn 0 = true ∧ (s.cur 0).cmds[0]? = some (cmd op .queued 2) ∧ (s.cur 0).mayStart (s.portBusy (s.ctxOf 0) 0) 0 (cmd op .queued 2) = true) ∧
      (let s := listed (ct.modCur 0 (fun b => { b with
          cims := [(0, ⟨0, Half.zero, { Half.zero with ready := true, loaded := true }⟩)] })) [cmd 1 .queued 0x20000]
       (s.cur 0).mayStart (s.portBusy (s.ctxOf 0) 0) 0 (cmd 1 .queued 0x20000) = true ∧ (cmd 1 .queued 0x20000).wide = false ∧ ((s.cur 0).cim 0).shadow.ready = true ∧
         ((s.cur 0).cim 0).shadow.loaded = true ∧ ((s.cur 0).cim 0).shadow.invalid = false) ∧
      (let s := readRow (listed ((own ct).modCur 0 (fun b => { b with
          cims := [(0, ⟨0, Half.zero, { Half.zero with pb := 2, kk := 1, loading := true }⟩)] })) [cmd 0 .running 2])
       let k := cmd 0 .running 2
       (s.cur 0).cmds[0]? = some k ∧ k.fwd = false ∧ k.stop = false ∧ (∀ y ∈ s.rowKeys 0 ((s.cur 0).cim 0).shadow, y.1 = 0xFF) ∧
         s.engineRead 0 thrMatrix k.seq k.eff rRead ((List.range k.count).map k.row) = .ok (List.replicate 32 1) false [] ∧
         ((s.cur 0).cim 0).shadow.pb = 2 ∧ ((s.cur 0).cim 0).shadow.kk = 1) ∧
      (∀ z ∈ [false, true], let s := tileOnWay z
        s.net[0]? = some ⟨0, 0, placeCtx, .tile 0 Half.zero 0 0 z⟩ ∧ s.ctxOf 0 = placeCtx ∧ s.exists? placeCtx = true) ∧
      (((tileOnWay false).cur 0).cim 0).shadow.ready = false ∧ (((tileOnWay false).cur 0).cim 0).shadow.loading = false ∧
      (tileOnWay false).portBusy placeCtx 0 = false ∧ Half.zero.slot = 0xFF ∧ (∀ y ∈ Half.zero.rowsAt, y.1 = 0xFF) ∧
      (let s := listed ct [cmd 4 .complete 0]
       (s.cur 0).cmds[0]? = some (cmd 4 .complete 0) ∧ (s.cur 0).q2.length < tokenDepth) := by decide

theorem witness_MatrixArithmetic :
    (let s := readRow (listed (own ct) [cmd 1 .running 0x20000])
     let k := cmd 1 .running 0x20000
     Alive s ∧ s.engineOn 0 = true ∧ (s.cur 0).cmds[0]? = some k ∧
       (s.cur 0).cmds.find? (fun q => decide (q.seq = k.seq) && decide (q.st = .running)) = some k ∧ k.wide = false ∧ k.stop = false ∧ k.rows < k.count ∧
       s.engineRead 0 thrMatrix k.seq k.eff rRead [k.row k.rows] = .ok (List.replicate 32 1) false []) ∧
      (let s := listed ct [cmd 4 .running 0]
       let k := cmd 4 .running 0
       Alive s ∧ (s.cur 0).cmds.find? (fun q => decide (q.seq = k.seq) && decide (q.st = .running)) = some k ∧
         s.engineOwes 0 k.ord k.scope = false) := by decide

/-- A copy of one granule from the first address of the scratch bank to its second granule. -/
def copyRec (moved : Nat) (st : CmdSt) : CopyRec :=
  { op := 0, ord := 0, scope := 0, tag := 1, e0 := 0xC000_0000_0000, e1 := 0xC000_0000_0010, e2 := 16, e3 := 0, moved := moved, st := st
    stop := false, status := 0, addr := 0, lost := 0, eff := 0, seq := 0 }

def copying (s : State) (l : List CopyRec) : State := s.modCur 0 (fun b => { b with copies := l, jseq := 300 })

/-- The copy has read its granule and written it. -/
def moving : State :=
  let s := copying (own ct) [copyRec 0 .running]
  let r := brought s thrCopy (.engine none false) (granules [0xC000_0000_0000])
  let w := brought s thrCopy (.engine (some (List.replicate 16 1)) false) [(0xC000_0000_0010, .done)]
  { s with accs := r.accs ++ w.accs }

theorem witness_Copies :
    (∀ i ∈ [Instr.cpy 0 0 1, .cpyx 0 0 1], let s := es (own ct) [(0, 0xC000_0000_0000), (1, 0xC000_0000_0010), (2, 16)]
      Issues i s ∧ (copyRec 0 .queued).badFields = false ∧ s.scopeAllowed 0 0 = true ∧ s.copyGated 0 (copyRec 0 .queued) = false ∧
        Closed ⟨0, 0⟩ s ∧ (copyRec 0 .queued).rowLen ≠ 0 ∧ (s.cur 0).copies.length < 256) ∧
      Issues (.cpy 0 0 1) (copying (es (own ct) [(2, 16)]) (List.replicate 256 (copyRec 0 .queued))) ∧
      (Issues (.cpyw 1) ct ∧ (ct.cur 0).copies = []) ∧
      (Issues (.cpyw 1) (copying ct [copyRec 0 .queued]) ∧ fld ((copying ct [copyRec 0 .queued]).rd ⟨0, 0⟩ 1) 0 5 = 0) ∧ Issues (.cpyq 3) ct ∧
      (let s := copying ct [copyRec 16 .running]
       let k := copyRec 16 .running
       Alive s ∧ s.engineOn 0 = true ∧ (s.cur 0).copies[0]? = some k ∧
         (s.cur 0).copies.find? (fun q => decide (q.seq = k.seq) && decide (q.st = .running)) = some k ∧ k.total ≤ k.moved ∧
         s.engineOwes 0 k.ord k.scope = false ∧ (s.cur 0).q3.length < tokenDepth) ∧
      (let k := copyRec 0 .running
       (moving.cur 0).copies.find? (fun q => decide (q.seq = k.seq) && decide (q.st = .running)) = some k ∧ k.moved < k.total ∧
         moving.cpyOk (ctxFn placeCtx) = true ∧
         moving.engineAll 0 thrCopy k.seq k.eff rRead none false (moving.rowPiece 0 k k.src) = .ok (List.replicate 16 1) false [] ∧
         moving.engineAll 0 thrCopy k.seq k.eff rWrite (some (fun _ => List.replicate 16 1)) false (moving.rowPiece 0 k k.dst) =
           .ok [] false []) := by decide

/-! ## The same: mapping, state registers, traps, pairs and gates -/

def outboxFull (s : State) : State := s.modCur 0 (fun b => { b with outbox := List.replicate 64 (.msg [] placeTrigger 0) })

/-- Context 1, a tenant's, runs on core 0: node 1 maps its first page, and it lost its second. -/
def tenant : State :=
  let s : State := { ct with nodes := [(1, { Node.free with st := .valid, holder := 1, lbase := 0x1000, len := 0x1000, rights := 0x3F })] }
  ((s.modCore 0 (fun k => { k with ctx := some 1 })).setBind 1 0 (ct.cur 0)).modCtx 1 (fun k => { k with
    st := .live, tombs := [⟨0x1000, 0x1000⟩] })

theorem witness_MappingRequestsAndQueries :
    (∀ i ∈ [Instr.map 1 2 1 3, .grant 1 2 1 3, .unmap 1 3, .release 1, .accept 1 3], Issues i ct ∧ Issues i (outboxFull ct) ∧
        (ct.cur 0).outbox.length < 64 ∧ 64 ≤ ((outboxFull ct).cur 0).outbox.length) ∧
      Issues (.mquery 1 3) ct ∧
      (let x := ident 0xC000_0000_0000
       (regs (own ct) [(1, 0xC000_0000_0000)]).walk placeCtx 0xC000_0000_0000 = .hit x ∧ x.attr < 4 ∧
         (regs (own ct) [(1, 0xC000_0000_0000)]).classAt x.la < 4 ∧ x.node = none) ∧
      (∃ x, tenant.walk 1 8 = .hit x ∧ x.attr < 4 ∧ tenant.classAt x.la < 4 ∧ x.node = some 1 ∧ (tenant.node 1).depth < 256) ∧
      (Issues (.mquery 1 3) (regs tenant [(1, 0x1008)]) ∧ (regs tenant [(1, 0x1008)]).walk 1 0x1008 = .tomb) ∧
      (Issues (.mquery 1 3) (regs tenant [(1, 0x2008)]) ∧ (regs tenant [(1, 0x2008)]).walk 1 0x2008 = .unmapped ∧
        ∀ p ∈ tenant.nodes, ∀ w ∈ p.2.vaParts, w.1 / 4096 ≠ 0x2008 / 4096) := by
  refine ⟨by decide, by decide, by decide, ⟨⟨0x1008, 0x3F, 0, some 1, false⟩, by decide⟩, by decide, by decide⟩

/-- CSRs by who may read them, at a thread that may and at one that may not. -/
theorem witness_StateRegisterReads :
    (∀ n ∈ [0x001, 0x002, 0x003, 0x008], Issues (.csrr (BitVec.ofNat 12 n) 3) ct ∧ Issues (.csrr (BitVec.ofNat 12 n) 3) mt) ∧
      Issues (.csrr 0x005 3) ct ∧ Issues (.csrr 0x005 3) mt ∧
      (∀ n ∈ [0x004, 0x006, 0x009, 0x00A, 0x011, 0x012, 0x018, 0x020, 0x021, 0x022, 0x030, 0x040], Issues (.csrr (BitVec.ofNat 12 n) 3) ct ∧
        Issues (.csrr (BitVec.ofNat 12 n) 3) mt) ∧
      (Issues (.csrr 0x010 3) mt ∧ Issues (.csrr 0x010 3) ct) ∧
      (∀ n ∈ [0x100, 0x101, 0x102, 0x103, 0x104, 0x105, 0x106, 0x107, 0x108, 0x109, 0x10A, 0x10B, 0x10C, 0x10D], Issues (.csrr (BitVec.ofNat 12 n) 3) (hand ct) ∧
        (hand ct).inHandler (hand ct).focus = true ∧ Issues (.csrr (BitVec.ofNat 12 n) 3) ct ∧ ct.inHandler ct.focus = false) := by decide

theorem witness_StateRegisterWrites :
    (∀ n ∈ [0x011, 0x040, 0x008, 0x012], ∀ i ∈ [Instr.csrw (BitVec.ofNat 12 n) 1 3, .csrs (BitVec.ofNat 12 n) 1 3, .csrc (BitVec.ofNat 12 n) 1 3],
        Issues i ct) ∧
      (∀ i ∈ [Instr.csrw 0x010 1 3, .csrs 0x010 1 3, .csrc 0x010 1 3], Issues i mt) ∧
      (∀ n ∈ [0x100, 0x101, 0x102, 0x103, 0x105, 0x107, 0x10C, 0x10D],
        ∀ i ∈ [Instr.csrw (BitVec.ofNat 12 n) 1 3, .csrs (BitVec.ofNat 12 n) 1 3, .csrc (BitVec.ofNat 12 n) 1 3], Issues i (hand ct)) ∧
      (∀ i ∈ [Instr.csrw 0x109 1 3, .csrs 0x109 1 3, .csrc 0x109 1 3], Issues i (hand ct)) ∧
      (∀ n ∈ [0x001, 0x002, 0x003, 0x004, 0x005, 0x006, 0x009, 0x00A, 0x021, 0x030],
        ∀ i ∈ [Instr.csrw (BitVec.ofNat 12 n) 1 3, .csrs (BitVec.ofNat 12 n) 1 3, .csrc (BitVec.ofNat 12 n) 1 3], Issues i ct) := by decide

/-- Bank 0 alone is a FIFO bank, and bank 1 belongs to another context. -/
def banked : State := ct.modCore 0 (fun k => { k with bankcfg := 0x12, bankOwner := [(1, 9)] })

theorem witness_StateRegisterWrites_fields :
    (∀ n ∈ [0x104, 0x106, 0x108, 0x10A, 0x10B],
      ∀ i ∈ [Instr.csrw (BitVec.ofNat 12 n) 1 3, .csrs (BitVec.ofNat 12 n) 1 3, .csrc (BitVec.ofNat 12 n) 1 3], Issues i (hand ct)) ∧
      (∀ n ∈ [0x018, 0x020], ∀ i ∈ [Instr.csrw (BitVec.ofNat 12 n) 1 3, .csrs (BitVec.ofNat 12 n) 1 3, .csrc (BitVec.ofNat 12 n) 1 3],
        Issues i ct ∧ Issues i banked) ∧
      (let mode := fun n => fld (banked.core 0).bankcfg (4 * n) 2
       mode 0 = 2 ∧ mode 1 = 1 ∧ (∀ m < 16, mode m = 2 → m ≤ 0) ∧ SMap.find? (banked.core 0).bankOwner 1 ≠ (banked.core 0).ctx) ∧
      ((hand ct).core 0).sbusy = false := by decide

/-- Core 0 may run paired, and core 1 holds the same context. -/
def pairable : State :=
  ((ct.modCore 0 (fun k => { k with kclass := 0x80 })).modCore 1 (fun k => { k with ctx := some placeCtx })).setBind placeCtx 1
    { Bind.zero with st := .bound }

theorem witness_PrivilegedOutsideHandler :
    ct.inHandler ct.focus = false ∧ (∀ n ∈ [0x100, 0xFFF], issue (.csrr (BitVec.ofNat 12 n) 3) ct = .go ∨
        issue (.csrr (BitVec.ofNat 12 n) 3) ct = .illegal) ∧
      (issue .eret ct = .go ∨ issue .eret ct = .illegal) ∧ Issues (.trap 1) ct ∧ (Issues .brkpt ct ∧ ct.sessionOn ct.focus = false) ∧
      (Issues .unpair ct ∧ ct.effClass 0 = 0 ∧ (ct.core 0).pair = PairSt.none) ∧
      Issues .pair pairable ∧ (pairable.core 0).kclass.getLsbD 7 = true ∧ (pairable.core 0).pair = PairSt.none ∧
      (∀ k < 16, ((pairable.bind (pairable.ctxOf 0) 1).slot k).st = .empty) ∧ pairable.partnerFree 0 = true := by decide

theorem witness_ExactTraps :
    (∀ s ∈ [ct, hand ct, mt], issue (.trap 1) s = .go ∧ issue (.unassignedEncoding 0xFFFF_FFFF) s = .illegal) ∧
      ct.focus = ⟨0, 0⟩ ∧ ct.inHandler ct.focus = false ∧ (hand ct).inHandler (hand ct).focus = true ∧
      ((hand ct).core 0).ctx = some placeCtx ∧ mt.focus = ⟨0, 1⟩ := by decide

theorem witness_HandlerReturn :
    (Issues .eret ((hand ct).modCore 0 (fun k => { k with sbusy := true })) ∧ Issues .eret (hand ct)) ∧ (hand ct).inHandler ⟨0, 0⟩ = true ∧
      ((hand ct).core 0).sbusy = false ∧ ((hand ct).core 0).ctx = some placeCtx ∧ ((hand ct).core 0).pair.mode = .off ∧
      ((hand ct).core 0).saving = false ∧ ((hand ct).cur 0).act.isSome = true ∧ ((hand ct).cur 0).loop = none ∧
      (hand ct).trapLogFull 0 = false ∧ ((hand ct).cur 0).st ≠ .saving ∧ recValid ((hand ct).slotRec 0) = false ∧
      (let s := (hand ct).modCur 0 (fun b => { b with act := none })
       Issues .eret s ∧ (s.cur 0).act = none) ∧
      (let s := ((hand ct).modCur 0 (fun b => { b with st := .saving })).modCore 0 (fun k => { k with saving := true })
       Issues .eret s ∧ (s.cur 0).st = .saving ∧ (s.core 0).saving = true) ∧
      (let s := (hand ct).modCur 0 (fun b => { b with st := .saving })
       Issues .eret s ∧ (s.cur 0).pendBits.getLsbD pPreempt = false ∧ (s.core 0).saving = false) ∧
      (let s := (hand ct).modCur 0 (fun b => { b with st := .saving, pendBits := 16 })
       Issues .eret s ∧ (s.cur 0).pendBits.getLsbD pPreempt = true ∧ (s.core 0).saving = false) := by decide

/-- A debug session covers the context. -/
def session (s : State) : State := { s with dbg := { Debug.off with isOpen := true, ctxid := placeCtx } }

/-- The context lies in compartment 1 and has one gate over everything. -/
def gated (e : List (Nat × Word)) : State :=
  (es ct e).modCtx placeCtx (fun k => { k with comp := 1, gates := [⟨0, 0x1_0000, 7, 2⟩] })

theorem witness_EventsBreakpointsAndChecks :
    (Issues .wfe ct ∧ Issues .wfe (ct.modCur 0 (fun b => { b with wfe := true }))) ∧
      (∀ i ∈ [Instr.brkpt, .cBrk], Issues i (session ct) ∧ (session ct).sessionOn ct.focus = true ∧ (session ct).dbg.mode = 0) ∧
      (Issues (.checkerr 3) ct ∧ Closed ct.focus ct ∧ ct.agreedHere ct.focus = false ∧ (ct.cur 0).chki = 0) ∧
      (let s := gated [(1, 128), (2, 1)]
       Issues (.gate 1 3) s ∧ s.rdE s.focus 3 = 0 ∧ (s.ctx (s.ctxOf 0)).gates[fld (s.rd s.focus 1) 0 8]? = some ⟨0, 0x1_0000, 7, 2⟩ ∧
         gateFits ⟨0, 0x1_0000, 7, 2⟩ (s.rdE s.focus 0) (s.rdE s.focus 1) (s.rdE s.focus 2) = true ∧
         ((s.cur 0).window 0).isOpen = false ∧ ∀ v < 0, ((s.cur 0).window v).isOpen = true) ∧
      (let s := (gated [(3, 8)]).modCur 0 (fun b => { b with windows := [(0, ⟨0, 128, 0, 1, true⟩)] })
       Issues (.gate 1 3) s ∧ s.rdE s.focus 3 &&& ~~~0xB = 0 ∧ (s.rdE s.focus 3).getLsbD 3 = true ∧
         ((s.cur 0).window (fld (s.rdE s.focus 3) 0 2)).isOpen = true ∧ ((s.cur 0).window (fld (s.rdE s.focus 3) 0 2)).gate = 0) ∧
      (Issues (.gate 1 3) ct ∧ (ct.ctx (ct.ctxOf 0)).comp = 0 ∧ ct.rdE ct.focus 3 &&& ~~~0xB = 0) ∧ Issues (.gstat 1 3) ct ∧
      (let s := regs ct [(1, 0x8000_0000_0000_0000)]
       Issues (.gstat 1 3) s ∧ (s.rd s.focus 1).getLsbD 63 = true) ∧
      (let s := regs tenant [(1, 0x8000_0000_0000_2008)]
       Issues (.gstat 1 3) s ∧ s.laOf (s.ctxOf 0) (fld (s.rd s.focus 1) 0 57) = none) := by decide

/-- TRCTL selects TRACE, and the function's ring is on with room for 16 records, or off. -/
def tracing (on : Word) : State :=
  (((ct.setReg (trRing 128) 0x4000).setReg (trRing 128 + 8) (0x0004_0000 + on)).modCur 0 (fun b => { b with trctl := 0x81 }))

theorem witness_EventsBreakpointsAndChecks_more :
    (let s := gated []
     Issues (.gstat 1 3) s ∧ (s.rd s.focus 1).getLsbD 63 = false ∧ (s.ctx (s.ctxOf 0)).gates[fld (s.rd s.focus 1) 0 8]? = some ⟨0, 0x1_0000, 7, 2⟩ ∧
       (s.ctx (s.ctxOf 0)).comp ≠ 0) ∧
      ((ct.rd ct.focus 1).getLsbD 63 = false ∧ (ct.ctx (ct.ctxOf 0)).gates[fld (ct.rd ct.focus 1) 0 8]? = none) ∧
      (let s := regs ct [(1, 0x8000_0000_0000_2008)]
       Issues (.gstat 1 3) s ∧ s.laOf (s.ctxOf 0) (fld (s.rd s.focus 1) 0 57) = some 0x2008) ∧
      (let s := tracing 1
       Issues (.trace 1) s ∧ (s.cur 0).trctl.getLsbD 0 = true ∧ (s.cur 0).trctl.getLsbD 7 = true ∧ ctxFn (s.ctxOf 0) = 128 ∧ s.ringOn (trRing 128) = true ∧
         s.ringRoom (trRing 128) = true ∧ SMap.get 0 s.traceLost 128 = 0 ∧ s.laOf (rootCtx 128) 0x4000 = some 0x4000 ∧
         s.laOf (rootCtx 128) 0x4020 = some 0x4020 ∧ s.ringBase (trRing 128) + 64 * (s.ringTail (trRing 128) % s.ringSize (trRing 128)) = 0x4000) ∧
      (let s := tracing 0
       Issues (.trace 1) s ∧ (s.cur 0).trctl.getLsbD 0 = true ∧ (s.cur 0).trctl.getLsbD 7 = true ∧
         (s.ringOn (trRing 128) && s.ringRoom (trRing 128)) = false) := by decide

/-- Core 0 runs paired, and its pair has agreed at the instruction that comes next. -/
def agreedPair : State :=
  ct.modCore 0 (fun k => { k with pair := { PairSt.none with mode := .run, agreed := true, mark := ct.closeMark ⟨0, 0⟩ } })

/-- Bit 3 of CHKI is set; the actor may be redelivered or not. -/
def checked (repl : Bool) : State :=
  ct.modCur 0 (fun b => { b with chki := 8, slots := [(0, ⟨.running, ⟨0x1000, BitVec.ofNat 8 (b2n repl), 0, 1, 0⟩, 0, none⟩)] })

theorem witness_ControlFormsComplete_sends :
    ∀ p ∈ [(Instr.send 2 1, 0), (.sendg 2 1, 1), (.sendf 2 1, 2)],
      Issues p.1 sender ∧ sender.badDest sender.focus p.2 = none ∧ sender.gotOf sender.focus = [] ∧ sender.soBusy sender.focus = false ∧
        sender.pendOf sender.focus = [] ∧ sender.accessCause 0 placeCtx 0xC000_0000_0000 4 1 rRead kRead false = none ∧
        (sender.pageParts 0 placeCtx 0 [(0xC000_0000_0000, 4)]).length = 1 ∧
        (∀ r ∈ sender.pageParts 0 placeCtx 0 [(0xC000_0000_0000, 4)], sender.look 0 placeCtx r.va = .hit (ident r.va) ∧
          isOwnBank 0 r.va = true ∧ sender.readBehind sender.focus r.va r.size = false ∧
          sender.cutAt (ident r.va).node (sender.targetOf r.va) = false ∧ ∀ k < r.size, (sender.openJournal 0).newestFor (r.va + k) = none) := by decide

theorem witness_ControlFormsComplete :
      (let s := (hand sender).modCore 0 (fun k => { k with he := [(1, 0x0000_0000_0200_0000)] })
       s.inHandler s.focus = true ∧ (rowFmt (s.rdE s.focus 1)).bad 0 (s.rdE s.focus 2) (s.rdE s.focus 3) = false ∧
         ∀ p ∈ [(Instr.send 2 1, 0), (.sendg 2 1, 1), (.sendf 2 1, 2)], Issues p.1 s ∧ s.badDest s.focus p.2 = none) ∧
      (let s := agreedPair
       Closed s.focus s ∧ (s.core 0).pair.mode ≠ .off ∧ s.effClass 0 ≠ 3 ∧ (s.cur 0).arrayStill = true ∧ (s.cur 0).act.isSome = true ∧
         ∀ i ∈ [Instr.endAct, .cEnd, .endx, .checkerr 3, .unpair, .pair], Issues i s) ∧
      (Issues .unpair ct ∧ (ct.core 0).pair.mode = .off ∧ ct.effClass 0 ≠ 3) ∧
      (Issues (.checkerr 3) (checked true) ∧ Closed ⟨0, 0⟩ (checked true) ∧ ((checked true).cur 0).chki ≠ 0 ∧ (checked true).effClass 0 ≠ 2 ∧
        ((checked true).cur 0).act.isSome = true ∧ (((checked true).cur 0).slot ((checked true).cur 0).actSlot).desc.repl = true ∧
        (((checked true).cur 0).slot ((checked true).cur 0).actSlot).redlv < 3) ∧
      (Issues (.checkerr 3) (checked false) ∧ (checked false).inHandler ⟨0, 0⟩ = false ∧
        (((checked false).cur 0).slot ((checked false).cur 0).actSlot).desc.repl = false) ∧
      (∀ i ∈ [Instr.brkpt, .cBrk, .trace 1, .gstat 1 3], Issues i ct) ∧ ct.sessionOn ct.focus = false ∧
      (∀ i ∈ [Instr.brkpt, .cBrk], Issues i (hand (session ct))) ∧ ((hand (session ct)).core 0).hmode = true ∧ (ct.cur 0).trctl.getLsbD 0 = false ∧
      (let s := ct.modCur 0 (fun b => { b with wfe := true })
       Issues .wfe s ∧ (s.cur 0).wfe = true) ∧
      (let s := gated [(1, 128), (2, 1)]
       Issues (.gate 1 3) s ∧ s.rdE s.focus 3 &&& ~~~0xB = 0 ∧ (s.rdE s.focus 3).getLsbD 3 = false ∧ (s.ctx (s.ctxOf 0)).comp ≠ 0 ∧
         (s.ctx (s.ctxOf 0)).gates[fld (s.rd s.focus 1) 0 8]? = some ⟨0, 0x1_0000, 7, 2⟩ ∧ ((s.cur 0).window 3).isOpen = false) := by decide

/-! ## The same: the device's own steps -/

def onNet (s : State) (b : Body) : State := { s with net := [⟨0, 0, placeCtx, b⟩] }

/-- Core 0 between activations, with bank 15 in FIFO mode; slot 0 waits for one message of channel 0. -/
def idle (h : List Held) (st : SlotSt) : State :=
  (ct.modCore 0 (fun k => { k with bankcfg := 0x2200_0000_0000_0002 })).modCur 0 (fun b => { b with
    act := none, inbox := h, slots := [(0, ⟨st, ⟨0x2000, 0, 0, 1, 0⟩, 0, none⟩)] })

/-- Core 0 has ended its activation and its outbox is released. -/
def ending (o : List OutItem) : State := (idle [] .running).modCur 0 (fun b => { b with
  act := some ⟨0, 0, true, 0, false, 0, 0, placeTrigger⟩, endWait := true, outbox := o })

theorem witness_MessageEvents :
    (let s := onNet (idle [] .idle) (.msg placeTrigger)
     Alive s ∧ s.net[0]? = some ⟨0, 0, placeCtx, .msg placeTrigger⟩ ∧ s.exists? placeCtx = true ∧ s.route? placeCtx 0 placeTrigger.dslot = none ∧
       s.hasRoom placeCtx 0 0 = true ∧ s.live placeCtx 0 = true) ∧
      (let s := (onNet ((idle [] .idle).modCore 0 (fun k => { k with ctx := none })) (.msg placeTrigger)).modCtx placeCtx (fun k => { k with bufslots := 1 })
       s.exists? placeCtx = true ∧ s.route? placeCtx 0 placeTrigger.dslot = none ∧ s.hasRoom placeCtx 0 0 = true ∧ s.live placeCtx 0 = false) ∧
      (let s := idle [⟨placeTrigger, 0, false, 0, []⟩] .idle
       s.live (s.ctxOf 0) 0 = true ∧ (s.cur 0).msgBuf = [] ∧ (s.cur 0).deliverable s.floor 0 = some ⟨placeTrigger, 0, false, 0, []⟩) ∧
      (let s : State := { idle [⟨placeTrigger, 0, true, 0, []⟩] .ready with slotTab := [(0, 0x1_0000_0000_0000_0000_0000)] }
       s.live (s.ctxOf 0) 0 = true ∧ (s.core 0).hmode = false ∧ s.stopped 0 = false ∧ (s.cur 0).act = none ∧ (s.cur 0).pendBits = 0 ∧
         (s.cur 0).held = false ∧ s.fireChoice 0 = some (0, placeTrigger) ∧ ((s.cur 0).slot 0).desc.cls ≠ 3 ∧ fld (s.core 0).kclass 0 2 ≠ 3) ∧
      (let s := ending [.msg [0] placeTrigger 0]
       (s.cur 0).endWait = true ∧ s.stopped 0 = false ∧ (s.cur 0).outbox = .msg [0] placeTrigger 0 :: [] ∧
         s.hasRoom placeCtx 0 (s.inflight placeCtx 0) = true) ∧
      (let s := ending []
       (s.cur 0).act = some ⟨0, 0, true, 0, false, 0, 0, placeTrigger⟩ ∧ (s.cur 0).endWait = true ∧ (s.cur 0).outbox = [] ∧
         (s.core 0).pair = PairSt.none) ∧ Alive ct := by decide

/-- Core 0 is root and member of group 3, with core 1 the other member. -/
def rooted (n : NestCtr) (b : Body) : State :=
  ((onNet ct b).modCtx placeCtx (fun k => { k with groups := [(3, ⟨[0, 1], 0, false, 0, 0, 0, 0⟩)] })).modCur 0 (fun q => { q with
    roots := [(3, n)], loop := some ⟨3, 1, 0x2000, 0x3000, true, 0, 0, [2, 3]⟩, views := [(3, ⟨1, 1, 0, false, [2, 3]⟩)] })

def join1 (g c : Nat) : Join := ⟨c, g, [2, 3], 1, 0⟩
def barIn (e : BarEntry) (m : BarMsg) : State := (rooted NestCtr.idle (.bar m)).modCur 0 (fun q => { q with bars := [(0, e)] })

theorem witness_LoopAndBarrierEvents :
    (let s := rooted NestCtr.idle (.join 3 (join1 1 1))
     Alive s ∧ s.live placeCtx 0 = true ∧ s.exists? placeCtx = true ∧ s.net[0]? = some ⟨0, 0, placeCtx, .join 3 (join1 1 1)⟩ ∧
       ((s.bind placeCtx 0).root 3).st = .idle ∧ (join1 1 1).gen = ((s.bind placeCtx 0).root 3).gen + 1 ∧ (s.group placeCtx 0 3).size = 2) ∧
      (let s := rooted { NestCtr.idle with st := .joining, gen := 1, joins := [join1 1 1] } (.join 3 (join1 1 0))
       ((s.bind placeCtx 0).root 3).st = .joining ∧ (join1 1 0).gen = ((s.bind placeCtx 0).root 3).gen ∧
         ((s.bind placeCtx 0).root 3).joins.length + 1 = (s.group placeCtx 0 3).size ∧
         (∀ i ∈ ((s.bind placeCtx 0).root 3).joins, i.bounds = (join1 1 0).bounds ∧ i.minch = (join1 1 0).minch) ∧ prod (join1 1 0).bounds ≠ 0) ∧
      (let n : NestCtr := { NestCtr.idle with st := .granting, gen := 1, joins := [join1 1 0, join1 1 1], claims := [⟨0, 1, 0⟩], total := 6, remain := 6 }
       let s : State := { rooted n (.leave 3 1) with net := [] }
       s.groupRoot placeCtx 3 = 0 ∧ ((s.bind placeCtx 0).root 3).st = .granting ∧
         ((s.bind placeCtx 0).root 3).eligible (s.group placeCtx 0 3).members = some ⟨0, 1, 0⟩ ∧
         ((s.bind placeCtx 0).root 3).joins.head? = some (join1 1 0)) ∧
      (∀ len ∈ [0, 2], let s := rooted NestCtr.idle (.grant 3 1 4 len false)
       s.net[0]? = some ⟨0, 0, placeCtx, .grant 3 1 4 len false⟩ ∧ (s.bind placeCtx 0).loop = some ⟨3, 1, 0x2000, 0x3000, true, 0, 0, [2, 3]⟩ ∧
         (SMap.get NestView.none (s.bind placeCtx 0).views 3).gen = 1 ∧ (s.core 0).hmode = false) ∧
      (let s := rooted { NestCtr.idle with st := .granting, gen := 1 } (.leave 3 1)
       s.net[0]? = some ⟨0, 0, placeCtx, .leave 3 1⟩ ∧ ((s.bind placeCtx 0).root 3).gen = 1 ∧ ((s.bind placeCtx 0).root 3).st = .granting) ∧
      (let s := rooted NestCtr.idle (.leave 3 1)
       ((s.bind placeCtx 0).root 3).gen < 1 ∧ ((s.bind placeCtx 0).root 3).st ≠ .draining) ∧
      (let e : BarEntry := { BarEntry.zero with st := 1, gen := 1, group := 3 }
       (let m : BarMsg := ⟨0, 3, 1, 0, 0, 5, false, 1⟩
        let s := barIn e m
        s.net[0]? = some ⟨0, 0, placeCtx, .bar m⟩ ∧ e.ended m = false ∧ e.takes m = true ∧ m.op = e.op ∧ m.scope = e.scope ∧
          s.armUnsure 0 m.id = false ∧ e.count + 1 < (s.barMembers placeCtx 0 m.group).length ∧ (s.bind placeCtx 0).bar 0 = e) ∧
       (let m : BarMsg := ⟨0, 3, 1, 0, 0, 5, true, 1⟩
        e.ended m = false ∧ e.takes m = true ∧ (barIn e m).net[0]? = some ⟨0, 0, placeCtx, .bar m⟩ ∧ (barIn e m).armUnsure 0 m.id = false ∧
          1 ∈ (barIn e m).barMembers placeCtx 0 3)) ∧
      (let s := onNet ((barred 2).modCur 0 id) (.note ⟨0, 1, 3, 9⟩)
       s.net[0]? = some ⟨0, 0, placeCtx, .note ⟨0, 1, 3, 9⟩⟩ ∧ ((s.bind placeCtx 0).bar 0).st = 2 ∧ ((s.bind placeCtx 0).bar 0).gen = 1) := by decide

/-- An access of core 0's control thread. -/
def access (id : Nat) (kind : AccKind) (st : AccSt) (la : Nat) : Acc :=
  ⟨id, 0, placeCtx, 0, kind, st, w64 la, la, 4, 0, 1, none, 0, 0, 0, 0, 0, 0, 0⟩

def accessing (s : State) (a : Acc) : State := { s with accs := [a], nextAcc := a.id + 1 }

/-- A journal entry of four bytes at the second page of memory. -/
def entryAt (st : JSt) : JEntry := { JEntry.free with st := st, va := 0x1040, data := [1, 2, 3, 4], size := 4, la := 0x1040, attr := 1 }

def journaled (st : JSt) : State := ct.modCur 0 (fun b => { b with journal := [(2, entryAt st)] })

theorem witness_JournalAndAccessEvents :
    (Alive (journaled .held) ∧ (journaled .held).maySend placeCtx 0 2 = true) ∧
      (let s := accessing (journaled .sent) (access 7 (.store 2) .done 0x1040)
       s.postedAt 0 2 = some (access 7 (.store 2) .done 0x1040)) ∧
      (let s := accessing (journaled .sent) (access 7 (.store 2) (.refused 2) 0x1040)
       s.postedAt 0 2 = some (access 7 (.store 2) (.refused 2) 0x1040)) ∧
      ((0x102 : Word).getLsbD 8 = true ∧ (((journaled .refused).cur 0).entry (fld (0x102 : Word) 0 6)).st = .refused) ∧
      (let a := access 7 .load .flying 0x8000_0000_0000
       let s := accessing ct a
       s.acc? 7 = some a ∧ s.behindReleased a = false ∧ (s.refusal a).isSome = true) ∧
      (let a := access 7 .load .flying 0xC000_0000_0000
       let s := accessing (own ct) a
       s.acc? 7 = some a ∧ s.behindReleased a = false ∧ s.refusal a = none ∧ isScratch a.la = true ∧ a.planes = 0) ∧
      (let a := access 7 .load .flying 0x1040
       let s := accessing ct a
       s.acc? 7 = some a ∧ s.behindReleased a = false ∧ a.leased = true ∧ s.refusal a = none ∧ s.misses a = false ∧
         (∀ l ∈ a.lines, s.writeWaiting l = false) ∧ isAperture a.la = false ∧ s.heldAway a = false ∧ a.lines = [32] ∧
         (s.fetchLines (ctxFn a.ctx) a.lines).2 = true) ∧
      (let a := access 7 (.store 2) .leaseWait 0x1040
       let s := accessing (journaled .sent) a
       s.acc? 7 = some a ∧ SMap.get 0 s.leases (a.la / 128) ≤ s.ptime ∧
         (∀ q ∈ s.accs, q.st = .leaseWait → q.la / 128 = a.la / 128 → a.arr ≤ q.arr) ∧ (entryAt .sent).lineOp = 0 ∧ (entryAt .sent).grp = 0 ∧
         (s.bind placeCtx 0).entry 2 = entryAt .sent ∧ isAperture a.la = false ∧ ∀ j < 4, isHost (a.la + j) = false) ∧
      (let k : L1Copy := ⟨[], 0, 0⟩
       let s := ct.modCore 0 (fun q => { q with l1 := [(32, k)] })
       SMap.find? (s.core 0).l1 32 = some k ∧ k.expiry ≤ s.ptime) ∧
      (let a := access 7 .load (.valued [1, 2, 3, 4] false false) 0x1040
       let w : PendLoad := ⟨7, 3, 4, true, 4, false, { regs := [], es := [], ix := [], v := [], shape := 0, loop := none, views := [], crc := 0, jseq := 0, pc := 0, pend := [], retired := 0, block := [], hostReads := 0 }⟩
       let s := accessing (ct.modCur 0 (fun b => { b with pend := [w] })) a
       s.acc? 7 = some a ∧ (s.core a.core).ctx = some a.ctx ∧ (s.pendOf ⟨0, 0⟩).find? (fun p => decide (p.acc = a.id)) = some w) ∧
      (let a := access 7 .load .hostOut 0x8000_0000_0000
       (accessing ct a).acc? 7 = some a ∧ a.st = .hostOut) := by decide

/-- Contexts 1 and 2, tenants' of the physical function, and node 1 of context 1 over the second page of memory, whose Locus is 1. -/
def leaf : Node := { Node.free with st := .valid, holder := 1, vbase := 0x1000, lbase := 0x1000, len := 0x1000, rights := 0x3F }
def tenants (n : List (Nat × Node)) : State :=
  ({ ct with nodes := n, activity := [(0, { Activity.zero with limLoc := noLimit32 })] }.modCtx 1 (fun k => { k with st := .live, cores := [0] })).modCtx 2 (fun k => { k with st := .live, cores := [0] })

/-- A mapping request of context 1 over the page. -/
def request (op : Nat) (rights : BitVec 6) : MapReq :=
  { op := op, ctx := 1, core := 0, a := 0x1000, b := 0x1000, rights := rights, e0 := 2, e1 := 0x4_0000, e2 := 0, e3 := 0xFFFF_FFFF, stamp := 0
    saddr := 0, node := some 1, gen := 0, status := 0, home := 0, keysel := 0, cmd := none }

def reqRec (op : Nat) (rights : BitVec 6) : ReqRec := ⟨request op rights, [1], [1], [], 0, [1], [], false⟩

/-- The request waits at Locus 1. -/
def asked (op : Nat) (rights : BitVec 6) (n : List (Nat × Node)) : State :=
  { (tenants n).modFrame 1 (fun f => { f with home := some 0 }) with loci := [(1, ⟨[⟨5, 0, 0, 0, false⟩], none, none, (0, 0), 0⟩)], reqs := [(5, reqRec op rights)] }

def part : LPart := ⟨5, 0, 0, 0, false⟩

/-- Node 2 of context 2 lies beneath node 1. -/
def child (st : NodeSt) : Node :=
  { Node.free with st := st, holder := 2, vbase := 0x4_0000, lbase := 0x1000, len := 0x1000, rights := 0x3F, parent := some 1, depth := 1 }

/-- A withdrawal at Locus 1. -/
def withdraw (phase : Nat) (cuts shoots acks : List Nat) : Withdraw := ⟨5, [2], [2], phase, cuts, shoots, acks, 0, none, 0, false⟩
def working (w : Withdraw) : State :=
  { tenants [(1, leaf), (2, child .valid)] with loci := [(1, ⟨[], some w, none, (0, 0), 0⟩)], reqs := [(5, reqRec 2 0)] }

/-- The first two facts of every clause: the request is taken, and its reply may go. -/
abbrev Takes (op : Nat) (rights : BitVec 6) (n : List (Nat × Node)) (ops : List Nat) : Prop :=
  (asked op rights n).takePart 1 ops = some (part, reqRec op rights) ∧ ((asked op rights n).unhold 1 part).replyOk (request op rights) = true

theorem witness_LocusEvents :
    Alive (asked 0 1 [(1, leaf)]) ∧ Takes 0 1 [(1, leaf)] [0] ∧ Takes 1 1 [(1, leaf)] [1] ∧
      (let u := (asked 0 1 []).unhold 1 part
       u.mapStatus (reqRec 0 1) 1 (u.partRuns (request 0 1) 1) ≠ 0) ∧
      (let u := (asked 1 1 []).unhold 1 part
       u.mapStatus (reqRec 1 1) 1 (u.partRuns (request 1 1) 1) ≠ 0) ∧
      (∀ op ∈ [0, 1], let u := (asked op 1 [(1, leaf)]).unhold 1 part
        u.partRuns (request op 1) 1 = [⟨0, 0x1000, 0x1000, some 1⟩] ∧ u.mapStatus (reqRec op 1) 1 (u.partRuns (request op 1) 1) = 0) ∧
      (Takes 2 0 [(1, leaf), (2, child .valid)] [2, 8] ∧
        (let u := (asked 2 0 [(1, leaf), (2, child .valid)]).unhold 1 part
         u.sourceStatus (reqRec 2 0) 1 (u.partRuns (request 2 0) 1) = 0 ∧ (request 2 0).inLimits = true ∧
           u.unmapRoots (request 2 0) 1 (u.partRuns (request 2 0) 1) = [2])) ∧
      (Takes 4 0 [(1, leaf)] [4] ∧
        (let u := (asked 4 0 [(1, leaf)]).unhold 1 part
         u.sourceStatus (reqRec 4 0) 1 (u.partRuns (request 4 0) 1) = 0 ∧ (u.partRuns (request 4 0) 1).filterMap (·.node) = [1] ∧
           ((asked 4 0 [(1, leaf)]).node 1).len = 0x1000)) ∧
      (Takes 5 0 [(1, leaf), (2, child .released)] [5] ∧
        (let q := { reqRec 5 0 with req := { request 5 0 with e1 := 0xFFFF_FFFF } }
         let u := (asked 5 0 [(1, leaf), (2, child .released)]).unhold 1 part
         u.sourceStatus q 1 (u.partRuns q.req 1) = 0 ∧ u.acceptable q.req 1 (u.partRuns q.req 1) = [2])) ∧
      (∀ w ∈ [withdraw 1 [0] [] [], withdraw 2 [] [0] [], withdraw 2 [] [] [0], withdraw 1 [] [] [], withdraw 2 [] [] []],
        ((working w).locus 1).work = some w) ∧
      (∀ a ∈ (working (withdraw 1 [0] [] [])).accs, a.st ≠ .parked ∧ a.st ≠ .hostWait ∧ a.st ≠ .parkWait) ∧
      (working (withdraw 2 [] [] [0])).stillOut 0 [2] = false ∧ SMap.find? (working (withdraw 1 [] [] [])).reqs 5 = some (reqRec 2 0) := by decide

/-- Memory frame 2 is out; its account may hold frames. -/
def away (s : State) : State := (s.setReg (fgbReg 0) 0x0000_0010_0000_0000).setReg (fgbReg 128) 0x0000_0010_0000_0000

/-- MXU 2's ring and command ring are enabled with one command. -/
def commanded (b : List Nat) (f : Frame) : State :=
  { (((away ct).setReg (rqRing 2 + 8) 0x0004_0001).setReg (rqRing 2 + 16) 1).modFrame 2 (fun _ => f) with
    host := putBytes [] 0 (b.map (BitVec.ofNat 8)) }

def rq (opc : Nat) (at8 : Nat) : List Nat := [opc, 0, 0, 0, 0, 0, 0, 0] ++ (leBytes 8 at8).map (·.toNat)
def rqCmd (opc : Nat) : RqCmd := ⟨0, opc, true, 0, 0x2000, 0, 0⟩

def parkOf (id : Nat) : Park := ⟨2, 0, id, 2, placeCtx, 0, 0, 0, 0, false, 0⟩

/-- A FILL from host bytes. -/
abbrev filledFrom (h : Nat) : Prop :=
  let c : RqCmd := { rqCmd 1 with host := w64 h }
  let s : State := { commanded (rq 1 0x2000) Frame.reset with host := putBytes [] 0 ((rq 1 0x2000 ++ (leBytes 8 h).map (·.toNat)).map (BitVec.ofNat 8)) }
  s.rqNext 2 = some c ∧ c.bad 2 false = false ∧ c.host ≠ 0 ∧ (s.frame c.fr).comp ≠ 2 ∧ (s.frame c.fr).cls ≠ 2

theorem witness_ResidencyEvents :
    (let a := access 7 .load .flying 0x2000
     let s := accessing (away ct) a
     Alive s ∧ s.acc? 7 = some a ∧ isHost a.la = false ∧ s.misses a = true ∧ s.refusal a = none ∧ s.noPlace a = false ∧
       s.frameAnswers (a.la / 4096) (acctOf a.ctx) = false) ∧
      (let s : State := { (ct.setReg (mxuReg 2 0 + 8) 0x0004_0001) with mxus := [(2, { Mxu.reset with recs := [parkOf 7] })] }
       (s.mxu 2).recs = parkOf 7 :: [] ∧
         s.ringOn (mxuReg 2 0) = true ∧ s.ringRoom (mxuReg 2 0) = true) ∧
      (let a := access 7 .load .parked 0x2000
       let s : State := { (accessing ct a).modFrame 2 (fun f => { f with st := .resident }) with parks := [parkOf 7] }
       s.parks.filter (fun x => decide (x.mxu = 2) && !x.pri && decide (x.seq ≤ (0 : Word).toNat)) = [parkOf 7] ∧
         (s.frame (parkOf 7).frame).st = .resident ∧ s.acc? (parkOf 7).acc = some a) ∧
      (let s := away ct
       tailOk 1 (s.ringHead (rqRing 2)) (s.ringTail (rqRing 2)) (s.ringSize (rqRing 2)) = true) ∧
      (let s := commanded (rq 1 0x2000) Frame.reset
       s.rqNext 2 = some (rqCmd 1) ∧ (rqCmd 1).bad 2 false = false ∧ (s.frame (rqCmd 1).fr).st = .nonres ∧
         (s.freeSlot 2 (s.frame (rqCmd 1).fr).cls).isSome = true ∧ s.usedOf 0 < s.burst 0 ∧ (rqCmd 1).host = 0) ∧
      filledFrom 0x7000 ∧
      (let s := commanded (rq 2 0x2000) { Frame.reset with st := .resident }
       s.rqNext 2 = some (rqCmd 2) ∧ (s.mxu 2).evict = none ∧ (rqCmd 2).bad 2 true = false ∧ (s.frame (rqCmd 2).fr).st = .resident ∧
         (s.frame (rqCmd 2).fr).pinned = false ∧ s.isResv (rqCmd 2).fr = false ∧ (rqCmd 2).frame ≠ 0xFFFF_FFFF_FFFF_FFFF) ∧
      (let s : State := { commanded (rq 2 0x2000) { Frame.reset with st := .evicting } with mxus := [(2, { Mxu.reset with evict := some 2 })] }
       s.rqNext 2 = some (rqCmd 2) ∧ (s.mxu 2).evict = some 2 ∧ s.frameBusy 2 = false) ∧
      (let s := commanded (rq 3 0x2000) { Frame.reset with st := .resident }
       s.rqNext 2 = some (rqCmd 3) ∧ (rqCmd 3).bad 2 false = false ∧ (s.frame (rqCmd 3).fr).pinned = false) ∧
      (let s : State := { commanded (rq 4 0x2000) { Frame.reset with st := .resident, pinned := true } with pinnedCnt := [(0, 1)] }
       1 ≤ SMap.get 0 s.pinnedCnt (s.frame (rqCmd 4).fr).acct ∧ s.rqNext 2 = some (rqCmd 4) ∧ (rqCmd 4).bad 2 false = false ∧ (s.frame (rqCmd 4).fr).pinned = true) ∧
      (let s : State := { ct with treqs := [⟨0, 0, 0x3000, false, 0⟩] }
       s.treqs.find? (fun t => decide ((t.rid, t.pasid, t.page) = (0, 0, 0x3000))) = some ⟨0, 0, 0x3000, false, 0⟩ ∧ s.preqs = []) ∧
      (let s : State := { ct with preqs := [⟨0, 0, 0x3000, true, false, false⟩] }
       s.preqs.find? (fun t => decide ((t.rid, t.pasid, t.page) = (0, 0, 0x3000)) && !t.answered) = some ⟨0, 0, 0x3000, true, false, false⟩) ∧
      (let x : Inval := ⟨0, 0, 0, 4096, []⟩
       let s : State := { ct with invals := [x] }
       s.invals.length < 32 ∧ s.invals = x :: [] ∧ ∀ id ∈ x.waits, ∀ a ∈ s.accs, a.id = id → s.under x.rid x.pasid x.base x.len a = false) := by decide

theorem witness_LaunchQueueTail : Alive ct ∧ queueExists 0 0 = true ∧ queueExists 128 15 = true ∧
    (let s := ct
     let from_ := fun (v x : Nat) => (v + 2 ^ 32 - x) % 2 ^ 32
     let size := 2 ^ fld (s.reg (lqReg 0 0 8)) 16 4
     size < from_ 5000 (fld (s.reg (lqReg 0 0 0x18)) 0 32) ∧ from_ 1 (fld (s.reg (lqReg 0 0 0x18)) 0 32) ≤ size ∧
       from_ 1 (fld (s.reg (lqReg 0 0 0x10)) 0 32) ≤ size) := by decide

theorem witness_PeriodRefill : let s : State := { ct with ptime := 100000 }
    Alive s ∧ s.ptime % 100000 = 0 ∧ s.period < s.ptime / 100000 := by decide

/-- Contexts 1 and 2 live, and bytes at the second page of memory. -/
def filled8 (bs : List Byte) : State := { tenants [] with mem := putBytes [] 0x1000 bs }

/-- Launch queue 0 of the physical function in a state, with its ring at the second page of memory. -/
def queue (st tail : Nat) (bs : List Byte) : State :=
  ((((filled8 bs).setReg (lqReg 128 0 0) 0x1000).setReg (lqReg 128 0 8) 0x4_0000).setReg (lqReg 128 0 0x10) (w64 tail)).setReg
    (lqReg 128 0 0x20) (w64 st)

/-- A QUERY of context 1, its completion record at 0x1100. -/
def queryEntry : List Byte := [4, 0, 0, 0, 7, 0, 0, 0] ++ leBytes 8 1 ++ leBytes 8 0x1100 ++ leBytes 8 0x1200 ++ List.replicate 32 0

def command (opc ctx : Nat) (args : List Byte) : Cmd :=
  { seq := 3, ptime := 0, stamp := 64, fn := 128, queue := 0, opc := opc, done := false, entry := 0, tag := 0, status := 0, ctxid := ctx
    ctime := 0, result := 0, flags := 0, cpladdr := 0x1100, args := args, fpcfg := 0, fpacct := 0, started := false, ready := false }

def journalOf (s : State) (c : Cmd) : State := { s with journal := [(3, c)], jnext := 4 }

theorem witness_QueueEvents :
    queueExists 128 0 = true ∧ Alive (queue 0 0 []) ∧
      (let s := queue 0 0 []
       s.lqState 128 0 = 0 ∧ fld (s.reg (lqReg 128 0 8)) 16 4 = 4 ∧ (s.laOf (rootCtx 128) (s.reg (lqReg 128 0 0)).toNat).isSome = true) ∧
      ((queue 1 1 []).lqState 128 0 = 1 ∧ (queue 1 1 []).lqPend 128 0 ≠ 0) ∧
      ((queue 2 1 []).lqState 128 0 = 2 ∧ ∀ a ∈ (queue 2 1 []).accs, a.thr ≠ thrQueue) ∧
      (let s := (queue 2 1 queryEntry).setReg bootReg 5
       s.stage = 5 ∧ s.halted = false ∧ s.lqPend 128 0 ≠ 0 ∧ s.devIo 128 (queueTag 128 0) none [(0x1000, 64)] = .ok ∧
         (s.dropDev (queueTag 128 0)).entryStatus 128 ((s.dropDev (queueTag 128 0)).readVa (rootCtx 128) 0x1000 64) = 0) ∧
      (let c := { command 4 1 [] with started := true, ready := true }
       let s := journalOf (filled8 []) c
       s.cmd? 3 = some c ∧ s.devIo 128 (cmdTag 3) (some (0x1100, completion c.tag c.status c.opc c.result)) [(0x1100, 16)] = .ok) ∧
      ct.canPay 5 = false := by decide

theorem witness_QueueEvents_room : ((queue 1 1 []).queuesIn 2).length < 128 := by decide

/-- A descriptor block with one actor on core 0 in slot 0, and its list behind it. -/
def launchBlock : List Byte :=
  List.replicate 0x48 0 ++ leBytes 4 1 ++ List.replicate 4 0 ++ leBytes 8 0x1058 ++
    (List.replicate 8 0 ++ leBytes 8 0x2000 ++ [0, 0, 1, 0, 1, 0, 0, 0] ++ List.replicate 48 0)

def launching : State := journalOf (filled8 launchBlock) (command 1 1 (leBytes 8 0x1000 ++ List.replicate 32 0))

set_option maxRecDepth 8000 in
theorem witness_CommandEvents :
    (let c := command 1 1 (leBytes 8 0x1000 ++ List.replicate 32 0)
     let s := launching
     let d := s.readVa (rootCtx 128) c.descVa 0x58
     let es := entriesOf (actorCount d) (s.readVa (rootCtx 128) (entN d 0x50 8) (72 * actorCount d))
     Alive s ∧ s.cmd? 3 = some c ∧ nbit c.flags 2 = false ∧ s.mayStartCmd c 1 = true ∧ s.ctxOk 128 1 1 3 = true ∧ s.closedWorld 1 = false ∧
       c.descVa % 64 = 0 ∧ c.trigLen ≤ 256 ∧ s.logRoom 0 c.trigLen = true ∧ s.devIo 128 (cmdTag 3) none [(c.descVa + 0x48, 4), (c.descVa + 0x50, 8)] = .ok ∧
       countOk d = true ∧ s.devIo 128 (cmdTag 3) none (c.ranges d false false) = .ok ∧ es.all actorFieldsOk = true ∧
       (es.map actorOf).all (fun a => (s.ctx 1).cores.contains a.core && !a.desc.paired) = true ∧
       pairsOk (s.actorsOf 1) (es.map actorOf) ((s.ctx 1).kclass.getLsbD 7) = true ∧
       onGrid (c.dest % 256) (c.dest / 2 ^ 8 % 256) = true ∧ (s.ctx 1).cores.contains c.destCore = true ∧ s.replaying 0 = false) ∧
      (let c := command 2 1 (List.replicate 40 0)
       let s := journalOf (filled8 []) c
       s.cmd? 3 = some c ∧ s.mayStartCmd c 2 = true ∧ s.ctxOk 128 2 1 3 = true ∧ s.replaying 0 = false ∧ s.logRoom 0 40 = true) ∧
      (let c := command 4 1 (leBytes 8 0x1200 ++ List.replicate 32 0)
       let s := journalOf (filled8 []) c
       s.mayStartCmd c 4 = true ∧ s.ctxOk 128 4 1 3 = true ∧
         s.devIo 128 (cmdTag 3) (some (entN c.args 0 8, (s.ctx 1).record 1)) [(entN c.args 0 8, 256)] = .ok) ∧
      (let c := command 3 1 []
       let s := journalOf (filled8 []) c
       s.mayStartCmd c 3 = true ∧ s.ctxOk 128 3 1 3 = true ∧ s.launchesDue 1 3 = false) ∧
      (let s := ct.modCtx 1 (fun k => { k with st := .destroying })
       (s.ctx 1).st = .destroying ∧ s.allOut 1 = true ∧ (∀ p ∈ s.reqs, p.2.req.op = 8 → p.2.req.ctx ≠ 1) ∧ s.holdsNodes 1 = false ∧
         ∀ a ∈ s.accs, a.ctx ≠ 1) := by decide

/-- Core 0's save engine is at work. -/
def switching (saving : Bool) : State := (hand ct).modCore 0 (fun k => { k with sbusy := true, saving := saving })

/-- A bind record of context 1. -/
def record1 : BitVec 128 := 0x1_0000_0001

theorem witness_SwitchEvents :
    (let s := ct.modCur 0 (fun b => { b with pendBits := 1 })
     Alive s ∧ s.canTake 0 = true ∧ (s.cur 0).firstAsync.isSome = true ∧ (s.cur 0).pend = [] ∧ (s.cur 0).act.isSome = true ∧
       (s.core 0).pair = PairSt.none) ∧
      (let s := switching true
       (s.core 0).sbusy = true ∧ (s.core 0).saving = true ∧ (s.core 0).ctx = some placeCtx ∧
         (∀ m < 16, s.committedBy ⟨0, m + 1⟩ = false ∧ ((s.cur 0).mt m).prog = 0 ∧ s.unitBusy 0 m = false) ∧
         (s.stopUnits 0).engineWrites 0 = false ∧ (s.cur 0).copies = [] ∧ (s.cur 0).cmds = []) ∧
      (let s : State := { switching false with areas := [(bindKey placeCtx 0, Bind.zero)] }
       (s.core 0).saving = false ∧ (s.core 0).hmode = true ∧ (s.cur 0).st ≠ .restoring ∧
         SMap.find? s.areas (bindKey placeCtx 0) = some Bind.zero ∧ s.hmem = []) ∧
      (let s : State := { (switching false).modCur 0 (fun b => { b with st := .restoring }) with slotTab := [(0, 0x1_8000_0000)] }
       (s.cur 0).st = .restoring ∧ (s.cur 0).cims = [] ∧ (s.cur 0).netBuf = [] ∧ s.hmem = [] ∧ (s.cur 0).paired = none ∧ (s.cur 0).loop = none ∧
         recCtx (s.slotRec 0) = placeCtx ∧ recValid (s.slotRec 0) = true) ∧
      (let s : State := { ct.modCore 0 (fun k => { k with parkto := 0x8000_0000_0000_0000 }) with ptime := 1, parks := [parkOf 7] }
       (s.core 0).parkto.getLsbD 63 = true ∧ (s.cur 0).st = .bound ∧ s.stopped 0 = false ∧ ∃ q ∈ s.parks, s.expired 0 q = true) ∧
      ct.recordOk 0 (recMask 0) = true ∧ (∀ q ∈ ct.queuesIn 1, ct.lqPend q.1 q.2 = 0) := by decide

/-- The same core, where the handler has stored a zero over the first byte of the header. -/
def spoiled : State := { switching false with areas := [(bindKey placeCtx 0, Bind.zero)], hmem := [(areaBase placeCtx 0, 0)] }

theorem spoiled_stores : spoiled.areaStores placeCtx 0 = [(0, 0)] := by
  have h : 0 < areaSize (spoiled.ctx placeCtx).bufslots := by decide
  have hm : spoiled.hmem = [(areaBase placeCtx 0, 0)] := rfl
  have hi : spoiled.inArea placeCtx 0 (areaBase placeCtx 0) = true := by simp only [State.inArea, inAreaOf]; simp; omega
  simp [State.areaStores, hm, hi]

theorem witness_SwitchEvents_header : SMap.find? spoiled.areas (bindKey placeCtx 0) = some Bind.zero ∧
    spoiled.headerOk placeCtx 0 Bind.zero = false := by
  refine ⟨by decide, ?_⟩
  rw [State.headerOk, spoiled_stores]
  decide

/-- Core 0 is free, and context 1 has a message for its actor there. -/
def schedulable : State :=
  { ((tenants []).modCore 0 (fun k => { k with ctx := none })).setBind 1 0
      { Bind.zero with st := .out, slots := [(0, ⟨.idle, ⟨0x2000, 0, 0, 1, 0⟩, 0, none⟩)], msgBuf := [⟨placeTrigger, 0, false, 0, []⟩] } with
    accounts := [(0, { Account.zero with bal := 5 })] }

theorem witness_SwitchEvents_schedule :
    schedulable.apexChoice (minStamp schedulable.reports) 0 = some 1 ∧ schedulable.recordOk 0 (schedulable.recordFor 1) = true := by decide

/-- Core 0 runs paired, in a mode. -/
def pairedIn (m : PairMode) (shut ckpt : Option Bind) (closing : Bool) : State :=
  ct.modCore 0 (fun k => { k with pair := { PairSt.none with mode := m, shut := shut, ckpt := ckpt, closing := closing } })

/-- Locus 1 works on a re-layout of the one frame 17. -/
def relayout (done : Word) : State :=
  { (((ct.setReg (rlReg 1 0) 0x11000).setReg (rlReg 1 8) 0x1000).setReg (rlReg 1 0x10) 3).setReg (rlReg 1 0x18) (1 + 0x1_0000_0000 * done) with
    loci := [(1, ⟨[⟨5, 0, 0, 0, true⟩], none, some 0, (0, 0), 0⟩)] }

theorem witness_ReliabilityEvents :
    (let s := ct.modCur 0 (fun b => { b with ebud := 1 })
     Alive s ∧ (s.core 0).ctx = some placeCtx ∧ (s.bind placeCtx 0).ebud = 1 ∧ (s.bind placeCtx 0).ebcnt ≠ 0xFFFF_FFFF) ∧
      ct.classAt 0x1000 ≠ 2 ∧ bit (ct.reg (rlReg 1 0x10)) 0 = false ∧ bit (3 : Word) 0 = true ∧
      (let s : State := { relayout 0 with loci := [(1, ⟨[⟨5, 0, 0, 0, true⟩], none, none, (0, 0), 0⟩)], activity := [(128, { Activity.zero with limLoc := noLimit32 })] }
       s.nextPart 1 = some ⟨5, 0, 0, 0, true⟩ ∧ (s.locus 1).relay = none ∧ s.locOk 128 1 = true ∧ s.halted = false ∧
         s.rangeMapped 0x11000 0x1000 = false ∧ ({ s with nodes := [(1, { leaf with lbase := 0x11000 })] } : State).rangeMapped 0x11000 0x1000 = true) ∧
      (let s := relayout 0
       s.nextPart 1 = some ⟨5, 0, 0, 0, true⟩ ∧ s.halted = false ∧ (s.locus 1).relay.isSome = true ∧ fld (s.reg (rlReg 1 0x10)) 1 2 = 1 ∧ isMemory 0x11000 = true ∧ isMemory 0x11FFF = true ∧
         isAperture 0x11000 = false ∧ rootHas 0x11000 0x1000 1 = true ∧ (s.frame 17).st = .nonres) ∧
      (let s := relayout 1
       s.nextPart 1 = some ⟨5, 0, 0, 0, true⟩ ∧ fld (s.reg (rlReg 1 0x18)) 32 32 = 1 ∧ 0x11000 + 0x1000 ≤ (17 + 16) * 4096) ∧
      (let s := pairedIn .run none none true
       (s.core 0).pair.compares = true ∧ (s.core 0).pair.shut = none ∧ (s.core 0).pair.closing = true ∧
         (s.cur 0).mts.all (fun m => m.2.prog = 0) = true) ∧
      (let s := pairedIn .run (some Bind.zero) (some Bind.zero) false
       (s.core 0).pair.compares = true ∧ (s.core 0).pair.mode = .run ∧ (s.core 0).pair.shut = some Bind.zero ∧
         (s.core 0).pair.ckpt = some Bind.zero) ∧
      (let s := pairedIn .rerun (some Bind.zero) (some Bind.zero) false
       (s.core 0).pair.compares = true ∧ (s.core 0).pair.mode = .rerun ∧ ({ s with spares := [] } : State).spareCount (dieOf 0) = 0 ∧
         ({ s with spares := [(0, 2)] } : State).spareCount (dieOf 0) ≠ 0) ∧
      (let s := pairedIn .tiebreak (some Bind.zero) (some Bind.zero) false
       (s.core 0).pair.mode = .tiebreak ∧ (s.core 0).pair.partner = false ∧ (s.core 0).pair.shut = some Bind.zero) := by decide

/-- Virtual function 3's world in a state, with key slots 4 and 5. -/
def worldIn (st : WorldSt) : State := { ct with worlds := [(3, { World.reset with st := st, moslot := 4, doslot := 5 })] }

theorem witness_WorldEvents :
    Alive ct ∧ (ct.world 3).st = .isOpen ∧ (∀ c ∈ ct.contextsOf 3, (ct.ctx c).st ≠ .live) ∧
      (let s := ct.modCtx 0x0300_0001 (fun k => { k with st := .live })
       (s.world 3).st = .isOpen ∧ ∃ c ∈ s.contextsOf 3, (s.ctx c).st = .live) ∧
      (let s := worldIn .configured
       (s.world 3).st = .configured ∧ (List.replicate 64 (0 : Byte)).length = 64 ∧ (s.world 3).mokey = false ∧ (s.world 3).dokey = false) ∧
      ((worldIn .keyed).world 3).st = .keyed ∧
      (((worldIn .retiring).world 3).st = .retiring ∧ (worldIn .retiring).contextsOf 3 = [] ∧ (worldIn .retiring).slotBusy 3 = false) ∧
      (ct.cxlOk false 0 0x1000 = true ∧ (ct.frame 1).st = .resident ∧ ct.remoteAt 32 < 2 ∧ ct.writeWaiting 32 = false ∧ SMap.get 0 ct.leases 32 ≤ ct.ptime) ∧
      (let s : State := { ct with leases := [(32, 7)] }
       s.cxlOk false 0 0x1000 = true ∧ s.ptime < SMap.get 0 s.leases 32) ∧
      ct.cxlOk true 0 0x1000 = false ∧ (ct.world 3).oldset = false ∧ 1 ∈ [16, 8, 4, 2, 1] ∧ 3 ∉ [16, 8, 4, 2, 1] ∧
      (let s : State := { worldIn .configured with frames := [(1, { Frame.reset with comp := 2, vf := 3 })] }
       ∀ p ∈ s.frames, p.1 = 0x2000 / 4096 → p.2.comp ≠ 2 ∨ p.2.vf ≠ 3) := by decide

set_option maxRecDepth 8000 in
theorem witness_WorldEvents_keys : ct.freeKeys = [0, 1] := by decide

def portIn (q : Port) : State := { ct with ports := [(2, q)] }
def proxied (st : Nat) (missing : Bool) : State := { ct with proxies := [(0x40, ⟨st, missing, none, false, false⟩)] }

set_option maxRecDepth 8000 in
theorem witness_LinkEvents :
    Alive ct ∧ (ct.port 2).st = .disabled ∧ (ct.port 11).st = .disabled ∧
      (∀ st ∈ [PortSt.up, .training, .retrain], ((portIn { Port.reset with st := st, width := 8, lanes := 9 }).port 2).st = st) ∧
      (let q : Port := { Port.reset with st := .up, width := 8, lanes := 9 }
       ((portIn q).port 2).lanes = 9 ∧ ((portIn q).port 2).spared = 0xFF) ∧
      (((portIn { Port.reset with st := .up, width := 8, lanes := 8 }).port 2).lanes ≠ 9) ∧
      (flitGood [] = false) ∧ (flitSeq [] = (ct.port 2).expect) ∧
      (((proxied 0 true).proxy 0x40).missing = true ∧ (proxied 0 true).lineLost (0x40 * 128) = false ∧ ((proxied 0 true).proxy 0x40).inval = none) ∧
      (((proxied 0 false).proxy 0x40).orphan = false ∧ ((proxied 0 false).proxy 0x40).missing = false ∧ ((proxied 0 false).proxy 0x40).st = 0) ∧
      (((proxied 2 false).proxy 0x40).st ≠ 0 ∧ SMap.get 0 (proxied 2 false).leases 0x40 ≤ (proxied 2 false).ptime) ∧
      fld (ct.reg skfstat) 0 3 = 0 ∧
      (let s := ct.setReg skfstat 1
       fld (s.reg skfstat) 0 3 = 1 ∧ s.copiesHeld = [] ∧ s.remote = [] ∧ s.remoteInv = [] ∧ s.fabOut = [] ∧
         ∀ r ∈ s.ports, r.2.buf = [] ∧ r.2.st ≠ .training ∧ r.2.st ≠ .retrain) ∧
      (let s : State := { (portIn { Port.reset with st := .up }).modCtx 1 (fun k => { k with st := .live, cores := [0] }) with
         fabIn := (messageFlits 1 0 0 [] [1, 2, 3, 4]).map (fitBytes 236) ++ (messageFlits 2 0 0 [] []).map (fitBytes 236) }
       s.halted = false ∧ (s.takeFlits (messageFlits 1 0 0 [] [1, 2, 3, 4])).isSome = true ∧ (s.takeFlits (messageFlits 2 0 0 [] [])).isSome = true ∧
         fld (s.reg skfstat) 0 3 = 0 ∧ (s.port 2).st = .up ∧ s.logRoom 0 4 = true ∧ (s.ctx 1).st = .live ∧ s.holdsArea 1 0 0 = true ∧ s.replaying 0 = false ∧
         (s.ctx 2).st ≠ .live) := by decide

/-- A flit whose CRC is good and whose SEQ is the one expected. -/
theorem witness_LinkEvents_flit (b : List Byte) (h : b = List.replicate 248 0) :
    flitGood (b ++ leBytes 8 (crc64 b).toNat) = true ∧ flitSeq (b ++ leBytes 8 (crc64 b).toNat) = (ct.port 2).expect :=
  ⟨flitGood_append b (by rw [h, List.length_replicate]), by subst h; rfl⟩

/-- The debugger's mode. -/
def debugged (m : Nat) (v : Bool) : State := { ct with dbg := { Debug.off with isOpen := true, mode := m, vstop := v } }

theorem witness_DebugEvents :
    Alive ct ∧ ct.dbg.mode = 0 ∧ ((debugged 0 false).dbg.isOpen = true ∧ (debugged 0 false).dbg.mode = 0) ∧ (debugged 2 false).dbg.mode = 2 ∧
      ((debugged 1 false).dbg.mode = 1 ∧ (debugged 1 false).dbg.vstop = false) ∧
      ((debugged 2 false).dbg.isOpen = true ∧ ((debugged 2 false).core (debugged 2 false).dbgCore).ctx = some placeCtx ∧
        (let s : State := { debugged 2 false with dbg := { (debugged 2 false).dbg with ctxid := placeCtx } }
         s.dbg.mode = 2 ∧ s.dbg.isOpen = true ∧ (s.core s.dbgCore).ctx = some s.dbg.ctxid)) ∧ bit (1 : Word) 0 = true ∧ bit (0 : Word) 0 = false ∧ fld (0 : Word) 4 2 = 0 ∧
      (let s : State := { (debugged 1 true).modCur 0 (fun b => { b with act := none }) with floor := 1 }
       s.dbg.mode = 1 ∧ s.dbg.vstop = true ∧ (∀ b ∈ s.binds, b.2.act = none) ∧ (s.reg (pfReg 0x3_8018)).toNat < s.floor) ∧
      (let s : State := { debugged 1 true with ptime := 10_000_000 }
       s.dbg.mode = 1 ∧ s.dbg.vstop = true ∧ s.dbg.since + 10_000_000 ≤ s.ptime) ∧
      (let s := (debugged 3 false).modCur 0 (fun b => { b with act := none })
       s.dbg.mode = 3 ∧ (s.core s.dbg.core).hmode = false ∧ (s.cur s.dbg.core).act = none) ∧
      (let s : State := { debugged 3 false with ptime := 1_000_000 }
       s.dbg.mode = 3 ∧ s.dbg.since + 1_000_000 ≤ s.ptime) ∧
      (let s : State := { ct.modCur 0 (fun b => { b with trctl := 0x1_0000 }) with ptime := 683 }
       fld (s.cur 0).trctl 16 16 ≠ 0 ∧ (s.cur 0).act.isSome = true ∧ (s.core 0).ctx.isSome = true ∧
         2 * (1024 * fld (s.cur 0).trctl 16 16) ≤ 3 * (s.ptime - (s.core 0).lastCycle)) ∧
      (let s := tenants []
       let v : Word := 0x1_0000_0000
       (s.ctx (fld v 32 32)).st ≠ .free ∧ s.holdsArea (fld v 32 32) (fld v 0 11 % 64) (fld v 0 11 / 64) = true ∧ ctxFn (fld v 32 32) = 0 ∧
         s.counter (fld v 32 32) (fld v 0 11) (fld v 24 8) (fld v 16 8) = some 0 ∧ bit (s.reg (cntReg 0 + 32)) (fld v 24 8) = false ∧
         s.logRoom 0 64 = true) := by decide

/-- The physical function replays a log of one outside input without payload. -/
def replayer : State :=
  { (((ct.setReg (rpRing 128) 0x1000).setReg (rpRing 128 + 8) 0x0004_0003).setReg (rpRing 128 + 16) 1) with
    mem := [(0x1022, 1), (0x1024, 1)] }

theorem witness_DebugEvents_replay : replayer.replaying 128 = true ∧
    (match replayer.nextInject 128 with
     | some (n, h, _) => decide (n = 0 ∧ ofLe ((h.drop 0x30).take 2) < 0xFE00)
     | none => false) = true ∧ (replayer.logRecords 128).length = 1 := by decide

theorem witness_ManagementEvents :
    Alive ct ∧ ct.power.gateHot ≤ 255 ∧ ct.powered = true ∧ ct.tripped = false ∧ ct.power.restart = false ∧
      ({ ct with power := { ct.power with restart := true } } : State).power.restart = true ∧
      (let s : State := { ct with power := { ct.power with count := 100, sum := 190_000 } }
       10 * s.power.winNow ≤ s.power.count ∧ s.power.count ≠ 0 ∧ s.power.sum % s.power.count = 0 ∧ s.power.sum / s.power.count < 4096 ∧
         s.power.capNow * s.power.count < s.power.sum ∧ s.power.lowered = false) ∧
      (let s : State := { ct.setReg (erRing + 8) 0x0004_0001 with errWait := [[1]] }
       s.errWait = [1] :: [] ∧ s.ringOn erRing = true ∧ s.ringRoom erRing = true) ∧
      (ct.scanHidden 0x1000 = false ∧ isMemory 0x1000 = true ∧ (ct.modFrame 1 (fun f => { f with comp := 3 })).scanHidden 0x1000 = true) ∧
      (ct.lqState 0 0 = 0 ∧ ct.lqState 128 31 = 0 ∧ (queue 1 1 []).lqState 128 0 ≠ 0) := by decide

/-- Boot accepts an image whose keys reach the root key and whose signature verifies. What verifies is opaque (log 9), so that it does
stands as a premise. -/
theorem witness_ManagementEvents_images (key sig : List Byte) (i : Nat) (hk : Config.sha256 key = Config.rootDigest)
    (hs : Config.rsaVerify key (leBytes 2 0xFFFF) sig = true) (hv : Config.minVersion i ≤ 0xFFFF) :
    (List.replicate 3 (⟨[], 0xFFFF, [(key, [])], sig⟩ : BootImage))[0]?.any (imageOk i) = true ∧
      (([] : List BootImage)[0]?.any (imageOk 0)) = false := by
  simp [imageOk, hk, hs, hv, List.replicate]

theorem witness_ManagementEvents_sites : (workingSites [] ct.oldSites 0).length < 992 := by
  have h : workingSites [] ct.oldSites 0 = [] := List.filter_eq_nil_iff.mpr (fun _ _ => by simp)
  rw [h]; decide

theorem length_filter_ne (a : Nat) (l : List Nat) (h : l.Nodup) : l.length ≤ (l.filter (fun k => !decide (k = a))).length + 1 := by
  induction l with
  | nil => simp
  | cons b l ih =>
    obtain ⟨hb, hl⟩ := List.nodup_cons.mp h
    by_cases e : b = a
    · subst e
      have : l.filter (fun k => !decide (k = b)) = l :=
        List.filter_eq_self.mpr (fun x hx => by simp; rintro rfl; exact hb hx)
      simp [this]
    · have := ih hl
      simp [e]; omega

theorem length_filter_not (f l : List Nat) (h : l.Nodup) : l.length ≤ (l.filter (fun k => !f.contains k)).length + f.length := by
  induction f generalizing l with
  | nil => exact Nat.le_of_eq (congrArg List.length (List.filter_eq_self.mpr (fun _ _ => rfl)).symm)
  | cons a f ih =>
    have h1 := length_filter_ne a l h
    have h2 := ih _ (h.filter (fun k => !decide (k = a)))
    have e : (l.filter (fun k => !decide (k = a))).filter (fun k => !f.contains k) = l.filter (fun k => !(a :: f).contains k) := by
      rw [List.filter_filter]; congr 1; funext k; simp [Bool.and_comm]
    rw [e] at h2
    simp only [List.length_cons]
    omega

theorem dieSites_nodup (d : Nat) : (dieSites d).Nodup :=
  List.Pairwise.map _ (fun a b (h : a ≠ b) => by omega) List.nodup_range

theorem length_dedup (l : List Nat) : (dedup l).length ≤ l.length := by
  induction l with
  | nil => simp [dedup]
  | cons a l ih => have := List.length_filter_le (fun x => decide (x ≠ a)) (dedup l); simp only [dedup, List.length_cons]; omega

/-- Sites enough of each die pass where all do, whatever the fuses say. -/
theorem witness_ManagementEvents_boot : 992 ≤ (workingSites (dieSites 0 ++ dieSites 1) ct.oldSites 0).length ∧
    992 ≤ (workingSites (dieSites 0 ++ dieSites 1) ct.oldSites 1).length := by
  have ho : ct.oldSites = [] := by decide
  have hw : ∀ d, (∀ k ∈ dieSites d, k ∈ dieSites 0 ++ dieSites 1) → 992 ≤ (workingSites (dieSites 0 ++ dieSites 1) [] d).length := by
    intro d hd
    have h := length_filter_not (fusedSites d) (dieSites d) (dieSites_nodup d)
    have hl : (dieSites d).length = 1024 := by simp [dieSites]
    have hf : (fusedSites d).length ≤ 24 := by
      refine Nat.le_trans (length_dedup _) ?_
      simp only [List.length_map, List.length_range]
      omega
    have hc : workingSites (dieSites 0 ++ dieSites 1) [] d = (dieSites d).filter (fun k => !(fusedSites d).contains k) := by
      refine List.filter_congr (fun k hk => ?_)
      simp [List.contains_eq_mem, hd k hk, -List.mem_append]
    rw [hc]
    omega
  rw [ho]
  exact ⟨hw 0 (fun k hk => List.mem_append_left _ hk), hw 1 (fun k hk => List.mem_append_right _ hk)⟩

theorem witness_StepRunsDecoded :
    ct.agenda = [] ∧ ct.canTake 0 = false ∧ ct.canRun ⟨0, 0⟩ = true ∧ ct.codeLa 0 0x1000 = some (ident 0x1000) ∧ ct.fetchCause 0 0x1000 = none ∧
      ct.fetchMiss 0 0x1000 = none ∧ ct.codeLa 0 0x1002 = some (ident 0x1002) ∧ ct.fetchCause 0 0x1002 = none ∧ ct.fetchMiss 0 0x1002 = none ∧
      [ct.codeByte 0 0x1000, ct.codeByte 0 0x1001, ct.codeByte 0 0x1002, ct.codeByte 0 0x1003] = [0x83, 0x81, 0x20, 0x00] ∧
      ((hand ct).inHandler ⟨0, 0⟩ = true ∧ (hand ct).canTake 0 = false ∧ (hand ct).canRun ⟨0, 0⟩ = true) ∧
      (let s := mt.modMt 0 0 (fun m => { m with run := .broadcast, block := [(4, 0x3B)] })
       s.canRun ⟨0, 1⟩ = true ∧ s.inHandler ⟨0, 1⟩ = false ∧ ((s.cur 0).mt 0).run = .broadcast ∧ ((s.cur 0).mt 0).block = (4, 0x3B) :: [] ∧
         (0x3B : IWord).getLsbD 0 = true) ∧
      ({ ct with agenda := [.turn 0 0] } : State).agenda = .turn 0 0 :: [] := by decide

theorem witness_StepRunsDecoded_words : decode [0x83, 0x81, 0x20, 0x00] = .ok (.add 2 1 3, []) ∧ decode [0x3B, 0, 0, 0] = .ok (.vshape 0, []) :=
  ⟨rfl, rfl⟩

theorem witness_DecodeOfEncode : (Instr.add 2 1 3).wf = true ∧ encode (.add 2 1 3) = .word 0x00208183 ∧ (Instr.cEnd).wf = true ∧
    encode .cEnd = .half 0x400E := by decide

theorem witness_FrozenModule : (({ ct with freeze := true } : State).freeze = true) ∧ (({ ct with powered := false } : State).powered = false) := by
  decide

theorem witness_StepKeepsMemoryCanonical :
    ct.advances ∧ Memory.wf ct.mem = true ∧ Memory.wf ct.host = true ∧ Memory.wf ct.dram = true := by
  refine ⟨?_, by decide⟩
  have h : ∀ o : Host.Outcome State Fault Refusal, (match o with | .next _ => true | _ => false) = true → ∃ t, o = .next t := by
    intro o; cases o <;> simp
  exact h _ (by decide)

theorem witness_TimeNeverStepsBack : ct.advances := witness_StepKeepsMemoryCanonical.1

/-! ## Words that the spec prints beside their assembly: the examples of each entry and the listings of the example kernels -/

theorem test_words_scalar : ∀ p ∈ [
    (0x00750383, Instr.add 7 10 7), (0x00731283, .sub 7 6 5), (0x02730283, .and 7 6 5), (0x00279385, .slli 2 15 7), (0x04335285, .srai 3 6 5),
    (0x00335285, .srli 3 6 5), (0x00800285, .addi 8 0 5), (0x00030389, .lui 0x30 7), (0x0073029D, .mul 7 6 5), (0x0073429D, .div 7 6 5),
    (0x0003429F, .clz 6 5), (0x0040008F, .jal 0x400 1), (0x00008011, .jalr 0 1 0), (0x00038021, .sete 7 0), (0xFFF010A1, .setei 0xFFF 1),
    (0x000522A1, .geteI 2 5), (0xFE041C0D, .bne 0xFF8 0 8), (0xFE061A0D, .bne 0xFF4 0 12), (0x0000018B, .auipc 0 3)],
    decodeTableWord 32 p.1 = some p.2 := by decide

theorem test_words_short : ∀ p ∈ [
    (0x000E, Instr.cNop), (0x400E, .cEnd), (0x800E, .cStop), (0xC00E, .cBrk), (0x17F0, .cAddi 5 0x3F), (0x14B2, .cMv 10 11), (0x1FC8, .cBeqz 1 0xFC), (0x0814, .cLd 2 0 1), (0xA28C, .cQget 2 5),
    (0x320C, .cQput 3 4)],
    decodeTableWord 16 p.1 = some p.2 := by decide

theorem test_words_memory : ∀ p ∈ [
    (0x00053313, Instr.ld 0 10 6), (0x0003A613, .lw 0 7 12), (0x00533415, .sd 8 5 6), (0x00534015, .swf 0 5 6), (0x0063A015, .sw 0 6 7),
    (0x00032397, .lwfc 0 6 7), (0x00533399, .amoadd 0 0 5 6 3 7), (0x70533419, .amominu 0 0 5 6 3 8), (0x9254A399, .amocas 0 1 5 9 2 7), (0x1404A019, .amoswap 0 2 0 9 2 0), (0x0003101B, .discard 0 6),
    (0x0803301B, .prefetch 128 6), (0x0220001B, .fence 2 2)],
    decodeTableWord 32 p.1 = some p.2 := by decide

theorem test_words_actors : ∀ p ∈ [
    (0x00628023, Instr.qput 6 5 0), (0x006092A3, .qget 6 1 5), (0x000201A3, .qput 0 4 3), (0x00E48027, .send 14 9), (0x00E49027, .sendg 14 9),
    (0x00E4A027, .sendf 14 9), (0x00003527, .mld 0 10), (0x0002B5A7, .mld 5 11), (0x000042A7, .mlen 5), (0x000352A7, .mhdr 6 5),
    (0x00000029, .endAct), (0x00001029, .endx), (0x00628025, .nest 6 5), (0x0002A3A5, .nestq 5 7), (0x000302AB, .grank 6 5),
    (0x000312AB, .gsize 6 5), (0x007322AB, .gmemb 7 6 5), (0x3062802D, .barm 3 0 6 5), (0x0062902D, .barv 6 5), (0x0002A3AD, .barw 5 7),
    (0x0002B02D, .barx 5), (0x0002C3AD, .barq 5 7)],
    decodeTableWord 32 p.1 = some p.2 := by decide

theorem test_words_array : ∀ p ∈ [
    (0x0028002F, Instr.bcast 2 16), (0x0042802F, .bcast 4 5), (0x0001902F, .bfetch 0 3), (0x0101902F, .bfetch 16 3), (0x0000202F, .stop),
    (0x0002B02F, .mtwait 5), (0x0008302F, .mtwait 16), (0x000042AF, .mtstat 5), (0x0002D02F, .mtrst 5), (0x002081B1, .vaddVv 2 1 3),
    (0x0A911133, .vfmaxVx 9 2 2), (0x00428135, .vld 4 5 2), (0x000311B5, .vst 6 3), (0x0042A135, .vldp 4 5 2), (0x0042B135, .vstp 4 5 2),
    (0xE2008137, .vcvt 7 1 1 2), (0x120101B7, .vcvt 0 9 2 3), (0x10009137, .vsplit 0 8 1 2), (0x0070A137, .vscale 7 1 2), (0x0002B0B7, .vtag 5 1),
    (0x0003003B, .vshape 6), (0x000110BB, .vmov 2 1), (0x003120BB, .vbcr 3 2 1), (0x003130BB, .vbcc 3 2 1), (0x000140BB, .vtrn 2 1),
    (0x0062D0BB, .vins 6 5 1), (0x006162BB, .vext 6 2 5)],
    decodeTableWord 32 p.1 = some p.2 := by decide

theorem test_words_engines : ∀ p ∈ [
    (0x0000003D, Instr.mldb 0 0 0 0), (0x0000113D, .mmul 0 0 0 0 2), (0x006020BD, .mmrot 0 0 1 2 1), (0x000031BD, .mdrain 0 0 0 3),
    (0x0000403D, .mzero 0 0 0 0), (0x0000503D, .mwait), (0x000062BD, .mstat 5), (0x00E002BF, .cpy 3 2 5), (0x000011BF, .cpyx 0 0 3),
    (0x0002A03F, .cpyw 5), (0x000032BF, .cpyq 5)],
    decodeTableWord 32 p.1 = some p.2 := by decide

theorem test_words_system : ∀ p ∈ [
    (0x170508C1, Instr.map 0x0B 16 10 17), (0x067312C1, .grant 3 7 6 5), (0x000528C1, .unmap 10 17), (0x00034041, .release 6),
    (0x000352C1, .accept 6 5), (0x000332C1, .mquery 6 5), (0x0002C043, .trap 5), (0x02004043, .eret), (0x06004043, .brkpt),
    (0x0802C043, .trace 5), (0x0A004043, .pair), (0x0C004043, .unpair), (0x0E004043, .wfe), (0x040042C3, .checkerr 5),
    (0x000302C5, .gate 6 5), (0x000312C5, .gstat 6 5)],
    decodeTableWord 32 p.1 = some p.2 := by decide

/-! ## Ill-formed terms, one for each check, and the bits that stand for nothing -/

theorem test_ill_formed_terms : ∀ i ∈ [
    Instr.sete 1 8, .setei 0 8, .gete 12 3, .amoadd 0 0 5 6 6 7, .amocas 0 1 5 9 7 7, .fence 6 1, .fence 0 0, .loop 2 9, .barm 0 5 6 5, .barm 6 0 6 5,
    .bcast 0 5, .bcast 9 5, .vld 0 5 2, .vld 10 5 2, .vldp 1 5 2, .vldp 9 5 2, .vstp 9 5 2, .vcvt 0 11 1 2, .vcvt 0 1 1 2, .vcvt 3 9 1 2,
    .vsplit 0 8 2 2, .mldb 0 6 1 0, .mmul 0 0 1 0 2, .mmrot 0 0 1 0 2, .mdrain 0 7 1 3, .mzero 0 1 0 0, .cpy 3 0 5, .cpyx 6 2 3, .cAddi 0 1, .cLi 0 1,
    .cMv 0 1, .cAdd 0 1, .cSub 0 1, .cAnd 0 1, .unassignedEncoding 0xFFFF_FFFF], i.wf = false := by decide

theorem test_well_formed_limits : ∀ i ∈ [
    Instr.sete 1 7, .gete 7 3, .amoadd 0 0 5 6 5 7, .fence 5 1, .loop 3 9, .barm 5 4 6 5, .bcast 8 5, .vld 9 5 2, .vldp 2 5 2, .vstp 8 5 2, .vcvt 7 1 1 2,
    .vcvt 0 10 1 2, .mzero 0 5 1 0, .cAddi 1 0], i.wf = true := by decide

/-- Reserved encodings decode to no neighbour (R84, R85, R95): F3 5 with F7 1 of OPR, F7 2 of OPR, and all ones. -/
theorem test_reserved_words : ∀ w ∈ [0x02735283, 0x04730283, 0xFFFFFFFF], decodeTableWord 32 w = some (.unassignedEncoding (BitVec.ofNat 32 w)) ∨
    decodeTableWord 32 w = none := by decide

/-! ## Results that the spec's examples and tables print -/

/-- Register 3 of the focused control thread after one instruction, and where control stands. -/
def result (i : Instr) (s : State) : Option (Word × Word) :=
  match exec i s with
  | .next t => some (t.rd ⟨0, 0⟩ 3, t.pcOf ⟨0, 0⟩)
  | _ => none

def two (a b : Word) : State := regs ct [(1, a), (2, b)]

/-- The table of R98. -/
theorem test_division : result (.div 2 1 3) (two (-7) 2) = some (-3, 0x1004) ∧ result (.rem 2 1 3) (two (-7) 2) = some (-1, 0x1004) ∧
    result (.divu 2 1 3) (two (-7) 2) = some (0x7FFF_FFFF_FFFF_FFFC, 0x1004) ∧ result (.remu 2 1 3) (two (-7) 2) = some (1, 0x1004) ∧
    result (.div 2 1 3) (two 5 0) = some (-1, 0x1004) ∧ result (.rem 2 1 3) (two 5 0) = some (5, 0x1004) ∧
    result (.div 2 1 3) (two 0x8000_0000_0000_0000 (-1)) = some (0x8000_0000_0000_0000, 0x1004) ∧
    result (.rem 2 1 3) (two 0x8000_0000_0000_0000 (-1)) = some (0, 0x1004) := by decide

/-- The table of R99. -/
theorem test_bit_counts : result (.clz 1 3) (two 0xF0_0000 0) = some (40, 0x1004) ∧ result (.ctz 1 3) (two 0xF0_0000 0) = some (20, 0x1004) ∧
    result (.popc 1 3) (two 0xF0_0000 0) = some (4, 0x1004) ∧ result (.brev 1 3) (two 0xF0_0000 0) = some (0x0F00_0000_0000, 0x1004) ∧
    result (.clz 1 3) (two 0 0) = some (64, 0x1004) ∧ result (.ctz 1 3) (two 0 0) = some (64, 0x1004) := by decide

/-- R95 to R97: a shift by 64 shifts by 0, SLTIU by one asks for zero, LUI copies bit 31 up. -/
theorem test_arithmetic : result (.sll 2 1 3) (two 9 64) = some (9, 0x1004) ∧ result (.sltiu 1 1 3) (two 0 0) = some (1, 0x1004) ∧
    result (.sltiu 0xFFF 1 3) (two 7 0) = some (1, 0x1004) ∧ result (.sltiu 0xFFF 1 3) (two (-1) 0) = some (0, 0x1004) ∧
    result (.lui 0x80000 3) ct = some (0xFFFF_FFFF_8000_0000, 0x1004) ∧ result (.lui 0x30 3) ct = some (0x3_0000, 0x1004) ∧
    result (.sra 2 1 3) (two 0x8000_0000_0000_0000 63) = some (-1, 0x1004) ∧ result (.add 2 1 0) (two 1 1) = some (0, 0x1004) := by decide

/-- R100 to R102 by hand: a taken branch adds twice its field, JALR links, and an odd target of it is MISALIGN with nothing written. -/
theorem test_control : result (.bne 0xFF8 0 1) (two 1 0) = some (0, 0xFF0) ∧ result (.bne 0xFF8 0 1) (two 0 0) = some (0, 0x1004) ∧
    result (.jalr 2 1 3) (two 0x2000 0) = some (0x1004, 0x2002) ∧
    (match exec (.jalr 1 1 3) (two 0x2000 0) with
     | .next t => (t.core 0).hmode && decide ((t.core 0).tcause = 3) && decide ((t.core 0).tval = 0x2001) && decide (t.cur 0 = (two 0x2000 0).cur 0)
     | _ => false) = true ∧
    result (.jal 0x400 3) ct = some (0x1004, 0x1800) := by decide

/-- A load of the core's own bank by hand: LW sign-extends, LWU does not (R295). -/
theorem test_loads : (let s : State := { regs (own ct) [(1, 0xC000_0000_0000)] with mem := putBytes [] 0xC000_0000_0000 [1, 2, 3, 0x80] }
    result (.lw 0 1 3) s = some (0xFFFF_FFFF_8003_0201, 0x1004) ∧ result (.lwu 0 1 3) s = some (0x8003_0201, 0x1004) ∧
    result (.lb 3 1 3) s = some (0xFFFF_FFFF_FFFF_FF80, 0x1004) ∧ result (.lh 0 1 3) s = some (0x201, 0x1004)) := by decide

/-- A trap by hand (R133, R148): TRAP enters the handler with its operand as TVAL. -/
theorem test_trap : (match exec (.trap 1) (two 77 0) with
    | .next t => (t.core 0).hmode && decide ((t.core 0).tval = 77) && decide ((t.core 0).tepc = 0x1000) && decide ((t.cur 0).pc = 0x1000)
    | _ => false) = true := by decide

/-- Chapter 03's examples: planes (R42, R45), rounding (R51, R52) and conversions (R54, R60). -/
theorem test_planes : (List.range 7).map (fun k => ni8Value (k + 2) 166) = [64, 96, 80, 72, 76, 78, 77] ∧ ni8Fill 2 0x80 = 0xA0 ∧
    ni8Value 8 0xA0 = 65 ∧ ni8Value 4 0xA0 = 80 ∧ quantise 8 (.rat false 48 1) = 152 := by decide

/-- A binding to save. -/
def saved : Bind := { Bind.zero with x := [(5, 0x1122334455667788)], mtmask := 0xFFFF, tepc := 0x2000 }

/-- R119, R121: the magic value and the version, TEPC at 0x18, MTMASK at 0x50, and x5 at 0x500 + 40. -/
theorem test_save_area :
    (List.range 8).map (ct.areaByte placeCtx 0 saved) = [0x53, 0x54, 0x58, 0x43, 1, 0, 0, 0] ∧
      ct.areaByte placeCtx 0 saved 0x19 = 0x20 ∧ ct.areaByte placeCtx 0 saved 0x50 = 0xFF ∧
      ct.areaByte placeCtx 0 saved 0x528 = 0x88 ∧ ct.areaByte placeCtx 0 saved 0x52F = 0x11 := by decide

set_option maxRecDepth 4000 in
/-- R363's check value. -/
theorem test_crc : crc64 [0x31, 0x32, 0x33, 0x34, 0x35, 0x36, 0x37, 0x38, 0x39] = 0x62EC_59E3_F1A4_F00A := by decide

theorem test_rounding : convertTo 5 0 (.ofInt 125) = 0x70 ∧ convertTo 7 0 (.ofInt 125) = 0x57D0 ∧ convertTo 9 0 (.ofInt 16777217) = 0x4B80_0000 ∧
    convertTo 9 0 ((ExactNum.ofInt 255).scale 120) = 0x7F7F_0000 ∧ convertTo 7 0 ((ExactNum.ofInt 255).scale 120) = 0x7C00 ∧
    convertTo 9 0 ((ExactNum.ofInt 255).scale 127) = 0x7F80_0000 ∧ convertTo 8 0 (.ofInt 70000) = 0x4789 := by decide

end Sys2Proof.Tests
end

section
/-! What is privileged, and what the instructions legal outside the handler do there (R82, R147 to R149, R388, R431). -/
namespace Sys2Proof.Machine

/-! ## Legality that an instruction decides itself -/

/-- The prologue and the instruction's own check answer alike: ILLEGAL with the instruction as TVAL. -/
theorem run_ownIllegal {i : Instr} {s : State} {eff : Focus → State} (hlen : instrLen i = 4) (h : issue i s = .go ∨ issue i s = .illegal)
    (heff : eff s.focus = s.exact s.focus 4 cIllegal (encodeWord i)) :
    run i s eff = .next (s.exact s.focus 4 cIllegal (encodeWord i)) := by
  rcases h with hgo | hill
  · rw [run_go eff hgo, heff]
  · rw [run_illegal eff hill, hlen]

/-- With no load outstanding an exact cause is raised at once (R38). -/
theorem raise_noPending {s : State} {f : Focus} (h : s.pendOf f = []) (len code : Nat) (tval : Word) :
    s.raise f len code tval = s.exact f len code tval := by
  simp [State.raise, h]

/-! ## State registers (R82, R87, R147) -/

/-- A state register at 0x100 or above is legal in the handler only (R82). -/
theorem srLegal_privileged {s : State} {f : Focus} {n : Nat} (hn : 0x100 ≤ n) (hh : s.inHandler f = false) (write : Bool) :
    s.srLegal f n write = false := by
  have hlow : ¬ n < 0x100 := by omega
  unfold State.srLegal
  split
  · rfl
  · simp [hh, hlow]

theorem execCsrr_privileged {n : BitVec 12} {d : Reg} {s : State} (hn : 0x100 ≤ n.toNat) (hh : s.inHandler s.focus = false)
    (hp : s.pendOf s.focus = []) (h : issue (.csrr n d) s = .go ∨ issue (.csrr n d) s = .illegal) :
    execCsrr n d s = .next (s.exact s.focus 4 cIllegal (encodeWord (.csrr n d))) :=
  run_ownIllegal rfl h (by simp [srLegal_privileged hn hh, raise_noPending hp])

/-- CSRW, CSRS and CSRC alike. -/
theorem csrOp_privileged {i : Instr} {op : Nat} {n : BitVec 12} {a d : Reg} {s : State} (hlen : instrLen i = 4) (hn : 0x100 ≤ n.toNat)
    (hh : s.inHandler s.focus = false) (h : issue i s = .go ∨ issue i s = .illegal) :
    csrOp i op n a d s = .next (s.exact s.focus 4 cIllegal (encodeWord i)) :=
  run_ownIllegal hlen h (by simp [srLegal_privileged hn hh])

/-- Every access to a state register at 0x100 or above is ILLEGAL outside the handler. -/
theorem exec_csr_privileged {n : BitVec 12} {a d : Reg} {s : State} {i : Instr}
    (hi : i ∈ [Instr.csrr n d, .csrw n a d, .csrs n a d, .csrc n a d]) (hn : 0x100 ≤ n.toNat) (hh : s.inHandler s.focus = false)
    (hp : s.pendOf s.focus = []) (h : issue i s = .go ∨ issue i s = .illegal) :
    exec i s = .next (s.exact s.focus 4 cIllegal (encodeWord i)) := by
  simp only [List.mem_cons, List.not_mem_nil, or_false] at hi
  rcases hi with rfl | rfl | rfl | rfl
  case inl => rw [exec_csrr]; exact execCsrr_privileged hn hh hp h
  case inr.inl => rw [exec_csrw]; exact csrOp_privileged rfl hn hh h
  case inr.inr.inl => rw [exec_csrs]; exact csrOp_privileged rfl hn hh h
  case inr.inr.inr => rw [exec_csrc]; exact csrOp_privileged rfl hn hh h

/-! ## ERET, TRAP and BRKPT (R148, R149, R431) -/

theorem exec_eret_outsideHandler {s : State} (hh : s.inHandler s.focus = false) (h : issue .eret s = .go ∨ issue .eret s = .illegal) :
    exec .eret s = .next (s.exact s.focus 4 cIllegal (encodeWord .eret)) := by
  rw [exec_eret, execEret]
  exact run_ownIllegal rfl h (by simp [hh])

theorem exec_trap_issues {a : Reg} {s : State} (h : Issues (.trap a) s) :
    exec (.trap a) s = .next (s.exact s.focus 4 cSwtrap (s.rd s.focus a.toNat)) := by
  rw [exec_trap, execTrap]
  exact run_go _ h

/-- BRKPT that no session watches retires. -/
theorem exec_brkpt_noSession {s : State} (h : Issues .brkpt s) (hs : s.sessionOn s.focus = false) :
    exec .brkpt s = .next (s.retire s.focus 4) := by
  have hlen : instrLen .brkpt = 4 := rfl
  rw [exec_brkpt, execBrkpt, brkptOp, run_go _ h]
  simp [hs, hlen]

/-! ## PAIR and UNPAIR (R388) -/

/-- Paired execution runs on the core it starts on; the partner is another core. -/
theorem mode_startPair (s : State) (c : Nat) (byInstr : Bool) : ((s.startPair c byInstr).core c).pair.mode = .run := by
  simp [State.startPair, State.core_modCore]

/-- PAIR on a core that may pair, with its partner free and no actor in the partner's slots. -/
theorem exec_pair_starts {s : State} (h : Issues .pair s) (hk : (s.core s.focus.core).kclass.getLsbD 7 = true)
    (heven : s.focus.core % 2 = 0) (hoff : (s.core s.focus.core).pair.mode = .off)
    (hslots : ∀ k < 16, ((s.bind (s.ctxOf s.focus.core) (s.focus.core + 1)).slot k).st = .empty)
    (hfree : s.partnerFree s.focus.core = true) :
    exec .pair s = .next ((s.retire s.focus 4).startPair s.focus.core true) := by
  have hbit : bit (s.core s.focus.core).kclass 7 = true := hk
  rw [exec_pair, execPair, run_go _ h]
  simp +contextual [hoff, hbit, heven, hslots, hfree]

/-- UNPAIR on a core that is not paired retires, unless the actor's own class is PAIRED. -/
theorem exec_unpair_off {s : State} (h : Issues .unpair s) (hcls : s.effClass s.focus.core ≠ 3)
    (hoff : (s.core s.focus.core).pair.mode = .off) : exec .unpair s = .next (s.retire s.focus 4) := by
  rw [exec_unpair, execUnpair, run_go _ h]
  simp [hcls, hoff]

/-! ## R82 -/

/-- Settles O34, each part by the lemma above that says what its instruction does outside the handler. -/
theorem privilegedOutsideHandler : Obligations.PrivilegedOutsideHandler := by
  intro n a d s f hh
  exact ⟨fun i hi hn hp h => exec_csr_privileged hi hn hh hp h, exec_eret_outsideHandler hh, exec_trap_issues,
    fun h hs => ⟨_, exec_brkpt_noSession h hs, passes_retire s f 4⟩,
    fun h hk heven hoff hslots hfree => ⟨_, exec_pair_starts h hk heven hoff hslots hfree, mode_startPair _ _ _⟩,
    fun h hcls hoff => ⟨_, exec_unpair_off h hcls hoff, passes_retire s f 4⟩⟩

end Sys2Proof.Machine
end

section
/-! The launch queues' tail rule (R154) and the refill at a period boundary (R167). -/
namespace Sys2Proof.Machine

/-! ## Fields of a word -/

/-- A field that lies within the word reads back what was stored in it, cut to its width. -/
theorem fld_setFld_same {n : Nat} (w : BitVec n) (lo len v : Nat) (h : lo + len ≤ n) : fld (setFld w lo len v) lo len = v % 2 ^ len := by
  have hn : 2 ^ n = 2 ^ lo * 2 ^ (n - lo) := by rw [← Nat.pow_add, Nat.add_sub_cancel' (by omega)]
  have hdvd : 2 ^ len ∣ 2 ^ (n - lo) := Nat.pow_dvd_pow 2 (by omega)
  have hlo : 0 < 2 ^ lo := Nat.two_pow_pos lo
  simp only [fld, setFld, BitVec.toNat_ofNat]
  rw [hn, Nat.mod_mul_right_div_self, Nat.mod_mod_of_dvd _ hdvd, Nat.add_mul_div_right _ _ hlo, Nat.mul_comm (_ % _) (2 ^ lo),
    Nat.sub_mul_div]
  have hold : (w.toNat / 2 ^ lo - w.toNat / 2 ^ lo % 2 ^ len) % 2 ^ len = 0 := Nat.mod_eq_zero_of_dvd (Nat.dvd_sub_mod _)
  rw [Nat.add_mod, hold, Nat.zero_add, Nat.mod_mod, Nat.mod_mod]

/-- A bit of a word is its field of width 1. -/
theorem getLsbD_iff_fld {n : Nat} (w : BitVec n) (i : Nat) : w.getLsbD i = true ↔ fld w i 1 = 1 := by
  rw [← BitVec.testBit_toNat, Nat.testBit_eq_decide_div_mod_eq, decide_eq_true_eq, fld, Nat.pow_one]

/-! ## LQTAIL_WRITE (R154) -/

theorem lqReg_inj {fn n o p : Nat} : lqReg fn n o = lqReg fn n p ↔ o = p := by
  simp [lqReg, regKey]

/-- A tail is in order when it runs neither ahead of the ring nor behind the current tail. -/
theorem tailOk_iff {t prog tail size : Nat} :
    tailOk t prog tail size = true ↔ (t + 2 ^ 32 - prog) % 2 ^ 32 ≤ size ∧ (t + 2 ^ 32 - tail) % 2 ^ 32 ≤ size := by
  rw [tailOk, Bool.and_eq_true, decide_eq_true_eq, decide_eq_true_eq]

theorem exec_lqtailWrite_accepted {fn n : Nat} {v : BitVec 32} {s : State} (hs : Alive s) (hq : queueExists fn n = true)
    (h : tailOk v.toNat (s.lqProg fn n) (s.lqTail fn n) (s.lqSize fn n) = true) :
    exec (.lqtailWrite fn n v) s = .next (s.setReg (lqReg fn n 0x10) (zext v)) := by
  rw [exec_lqtailWrite, execLqtailWrite, device_alive _ hs, hq, if_neg (by decide), if_pos h]

theorem exec_lqtailWrite_refused {fn n : Nat} {v : BitVec 32} {s : State} (hs : Alive s) (hq : queueExists fn n = true)
    (h : ¬ tailOk v.toNat (s.lqProg fn n) (s.lqTail fn n) (s.lqSize fn n) = true) :
    exec (.lqtailWrite fn n v) s = .next (s.setRegFld (lqReg fn n 0x20) 8 1 1) := by
  rw [exec_lqtailWrite, execLqtailWrite, device_alive _ hs, hq, if_neg (by decide), if_neg h]

/-- A bit of a register that is stored as 1 reads 1. -/
theorem getLsbD_reg_setRegFld_one {s : State} {k i : Nat} (hi : i < 64) : ((s.setRegFld k i 1 1).reg k).getLsbD i = true := by
  rw [State.setRegFld, State.reg_setReg_same, getLsbD_iff_fld, fld_setFld_same _ _ _ _ (by omega), Nat.pow_one]

theorem reg_setRegFld_ne {s : State} {k j : Nat} (lo len v : Nat) (h : j ≠ k) : (s.setRegFld k lo len v).reg j = s.reg j := by
  rw [State.setRegFld, State.reg_setReg, if_neg h]

/-- Settles O44: the write is split on the rule's two comparisons, which are the model's `tailOk`. -/
theorem launchQueueTail : Obligations.LaunchQueueTail := by
  intro fn n v s from_ prog tail size hs hq
  have hok : tailOk v.toNat (s.lqProg fn n) (s.lqTail fn n) (s.lqSize fn n) = true ↔ from_ prog ≤ size ∧ from_ tail ≤ size := tailOk_iff
  have hne : lqReg fn n 0x10 ≠ lqReg fn n 0x20 := mt lqReg_inj.1 (by decide)
  by_cases h : from_ prog ≤ size ∧ from_ tail ≤ size
  · refine ⟨_, exec_lqtailWrite_accepted hs hq (hok.2 h), fun hbad => ?_, fun _ => ⟨State.reg_setReg_same .., ?_⟩⟩
    · omega
    · rw [State.reg_setReg, if_neg hne.symm]
  · exact ⟨_, exec_lqtailWrite_refused hs hq (mt hok.1 h), fun _ => ⟨reg_setRegFld_ne _ _ _ hne, getLsbD_reg_setRegFld_one (by decide)⟩,
      fun hgood => absurd hgood h⟩

/-! ## What flits that leave keep -/

theorem sendFlits_accounts {s t : State} {fn : Option Nat} {type dst : Nat} {fs : List (List Byte)}
    (h : s.sendFlits fn type dst fs = some t) : t.accounts = s.accounts := by
  unfold State.sendFlits at h
  split at h
  case h_1 => cases h
  case h_2 => cases fn <;> cases h <;> rfl

theorem drainOut_accounts (s : State) (l : List FabOut) : (s.drainOut l).accounts = s.accounts := by
  induction l generalizing s with
  | nil => rfl
  | cons f t ih =>
    rw [State.drainOut]
    split
    case h_1 u hu => rw [ih, sendFlits_accounts hu]
    case h_2 => exact ih s

@[simp] theorem drainFab_accounts (s : State) : s.drainFab.accounts = s.accounts := drainOut_accounts _ _

/-! ## PERIOD_BOUNDARY (R166, R167, R171) -/

@[simp] theorem State.account_setAccount_same (s : State) (a : Nat) (k : Account) : (s.setAccount a k).account a = k :=
  SMap.get_set_same ..

theorem State.account_setAccount_ne (s : State) {a b : Nat} (k : Account) (h : b ≠ a) : (s.setAccount a k).account b = s.account b :=
  SMap.get_set_ne _ _ _ h

@[simp] theorem refillAccount_regs (s : State) (a : Nat) : (s.refillAccount a).regs = s.regs := rfl

theorem account_refillAccount_ne (s : State) {a b : Nat} (h : b ≠ a) : (s.refillAccount a).account b = s.account b :=
  State.account_setAccount_ne s _ h

/-- What an account's refill gives depends on that account and on the registers alone. -/
theorem account_refillAccount_congr {s t : State} {a : Nat} (hacc : t.account a = s.account a) (hregs : t.regs = s.regs) :
    (t.refillAccount a).account a = (s.refillAccount a).account a := by
  have hreg : t.reg = s.reg := by funext k; rw [State.reg, State.reg, hregs]
  simp only [State.refillAccount, State.account_setAccount_same, hacc, hreg]

theorem account_refillAccounts_notMem {l : List Nat} {a : Nat} (h : a ∉ l) (s : State) :
    (l.foldl State.refillAccount s).account a = s.account a := by
  induction l generalizing s with
  | nil => rfl
  | cons b l ih =>
    obtain ⟨hb, hl⟩ := not_or.1 (mt List.mem_cons.2 h)
    exact (ih hl _).trans (account_refillAccount_ne s hb)

/-- Every account listed once is refilled once, and from what it held before the first refill. -/
theorem account_refillAccounts_mem {l : List Nat} {a : Nat} (hl : l.Nodup) (h : a ∈ l) (s : State) :
    (l.foldl State.refillAccount s).account a = (s.refillAccount a).account a := by
  induction l generalizing s with
  | nil => cases h
  | cons b l ih =>
    obtain ⟨hbl, hl⟩ := List.nodup_cons.1 hl
    rw [List.foldl_cons]
    by_cases hab : a = b
    · subst hab; exact account_refillAccounts_notMem hbl _
    · rw [ih hl (List.mem_of_ne_of_mem hab h)]
      exact account_refillAccount_congr (account_refillAccount_ne s hab) (refillAccount_regs s b)

theorem refillFns_accounts (l : List Nat) (s : State) : (l.foldl State.refillFn s).accounts = s.accounts :=
  foldl_keeps State.accounts State.refillFn (fun _ _ => rfl) l s

/-- At a boundary that is due every account is as its own refill leaves it; the functions' refill and the flits that leave keep it. -/
theorem exec_periodBoundary_account {s : State} (hs : Alive s) (hdue : s.boundaryDue = true) :
    ∃ t, exec .periodBoundary s = .next t ∧ ∀ a < 1024, t.account a = (s.refillAccount a).account a := by
  rw [exec_periodBoundary, execPeriodBoundary, device_alive _ hs, if_pos hdue]
  refine ⟨_, rfl, fun a ha => ?_⟩
  rw [State.account, drainFab_accounts, refillFns_accounts]
  exact account_refillAccounts_mem List.nodup_range (List.mem_range.2 ha) _

/-- R167's repayment and balance, of one account. -/
theorem refillAccount_debt_bal (s : State) (a : Nat) :
    let refill := fld (s.reg (acReg a 0)) 0 32
    let repay := min (s.account a).debt (refill / 2)
    ((s.refillAccount a).account a).debt = (s.account a).debt - repay ∧ ((s.refillAccount a).account a).bal = refill - repay := by
  rw [State.refillAccount, State.account_setAccount_same]
  exact ⟨rfl, rfl⟩

/-- Settles O45: the boundary refills each account once, and one refill is R167's. -/
theorem periodRefill : Obligations.PeriodRefill := by
  intro s hs hptime hperiod
  have hdue : s.boundaryDue = true := by simp [State.boundaryDue, hptime, hperiod]
  obtain ⟨t, hexec, hacc⟩ := exec_periodBoundary_account hs hdue
  refine ⟨t, hexec, fun a ha => ?_⟩
  rw [hacc a ha]
  exact refillAccount_debt_bal s a

end Sys2Proof.Machine
end
